-- ==== Sys2Proof/Word.lean ====
section
/-! DEFINITION. The word types of the AF-64 and its number of things (R3, R14, R57). -/

namespace Sys2Proof

/-- A byte of any memory (R4). -/
abbrev Byte := BitVec 8
/-- A 32-bit bundle word, `g` register or control value (R47, R57). -/
abbrev Word := BitVec 32
/-- A 64-bit address register, program counter or doubleword (R57). -/
abbrev DWord := BitVec 64
/-- A short vector, a queue entry of lq0, lq1 or sq (R51, R57). -/
abbrev Vec := BitVec 256

/-- Sparse data by key: pairs with strictly rising keys; an unlisted key has the default its user names. -/
abbrev SMap (α : Type) := List (Nat × α)

/-- A byte memory: pairs of address and byte in the canonical form of `Machine.memWf`. -/
abbrev Mem := SMap Byte

end Sys2Proof
end

