-- ==== Sys2Proof/Syntax.lean ====
section
/-! DEFINITION. The instructions and steps of the AF-64 (R71-R84 and the table of operations and events): one
constructor of `Instr` for every row of the opcode table. A row with bits is one A-class or X-class body; the framing
bits L, K, HA, HB and the extension immediate belong to the bundle (R71, R74), not to the body. A row without bits is a
step of the part, and its arguments are what the schedule or the outside world chooses. -/

namespace Sys2Proof

/-- Fields of a hint of the A-class map (R85): opcode low bits, unchecked bits. -/
structure FHintA where
  o : BitVec 4
  x : BitVec 22
  deriving DecidableEq, Repr

/-- Fields of format AJ: signed bundle offset (R80, R123). -/
structure FAJ where
  o : BitVec 22
  deriving DecidableEq, Repr

/-- Fields of `jr`: the register holding the target (R124). -/
structure FJr where
  a : BitVec 4
  deriving DecidableEq, Repr

/-- Fields of `callr`: link register, target register (R124). -/
structure FCallr where
  d : BitVec 4
  a : BitVec 4
  deriving DecidableEq, Repr

/-- Fields of format AB: two registers and a signed offset (R125). -/
structure FAB where
  a : BitVec 4
  b : BitVec 4
  o : BitVec 11
  deriving DecidableEq, Repr

/-- Fields of format AX: signed offset (R126). -/
structure FAX where
  o : BitVec 19
  deriving DecidableEq, Repr

/-- Fields of format AG: slot and signed offset (R127). -/
structure FAG where
  s : BitVec 3
  o : BitVec 18
  deriving DecidableEq, Repr

/-- Fields of format AL: counter, count register, count, END (R129). -/
structure FAL where
  c : BitVec 1
  r : BitVec 4
  n : BitVec 8
  e : BitVec 9
  deriving DecidableEq, Repr

/-- Fields of format AR: aD, aA, aB (R131). -/
structure FAR where
  d : BitVec 4
  a : BitVec 4
  b : BitVec 4
  deriving DecidableEq, Repr

/-- Fields of format AI: aD, aA, IMM14 (R132). -/
structure FAI where
  d : BitVec 4
  a : BitVec 4
  i : BitVec 14
  deriving DecidableEq, Repr

/-- Fields of `ali`: aD, IMM14 (R132). -/
structure FAli where
  d : BitVec 4
  i : BitVec 14
  deriving DecidableEq, Repr

/-- Fields of a load: width, BASE, DATA, ORD, OFF (R140). -/
structure FLd where
  w : BitVec 3
  b : BitVec 4
  d : BitVec 5
  r : BitVec 3
  o : BitVec 7
  deriving DecidableEq, Repr

/-- Fields of a store: width, GS, BASE, DATA, ORD, OFF (R140). -/
structure FSt where
  w : BitVec 3
  g : BitVec 3
  b : BitVec 4
  d : BitVec 5
  r : BitVec 3
  o : BitVec 7
  deriving DecidableEq, Repr

/-- Fields of `atom`: GS, BASE, SRC, OP, ORD, W, RES (R148). -/
structure FAtom where
  g : BitVec 3
  b : BitVec 4
  s : BitVec 4
  p : BitVec 4
  r : BitVec 3
  w : BitVec 1
  e : BitVec 2
  deriving DecidableEq, Repr

/-- Fields of `cas`: GS, BASE, SRC (new), CMP, ORD, W, RES (R149). -/
structure FCas where
  g : BitVec 3
  b : BitVec 4
  s : BitVec 4
  c : BitVec 4
  r : BitVec 3
  w : BitVec 1
  e : BitVec 2
  deriving DecidableEq, Repr

/-- Fields of `pref`: BASE, OFF (R146). -/
structure FPref where
  b : BitVec 4
  o : BitVec 7
  deriving DecidableEq, Repr

/-- Fields of `tdef`: N, B, space (R181). -/
structure FTdef where
  n : BitVec 6
  b : BitVec 6
  s : BitVec 6
  deriving DecidableEq, Repr

/-- Fields of `tinv`: N (R181). -/
structure FTinv where
  n : BitVec 6
  deriving DecidableEq, Repr

/-- Fields of `mmz`: GS, D (R181). -/
structure FMmz where
  g : BitVec 3
  d : BitVec 6
  deriving DecidableEq, Repr

/-- Fields of `mma`: GS, A, B, D, K (R181). -/
structure FMma where
  g : BitVec 3
  a : BitVec 6
  b : BitVec 6
  d : BitVec 2
  k : BitVec 4
  deriving DecidableEq, Repr

/-- Fields of `mma.bl`: GS, A, D (R181). -/
structure FMmaBl where
  g : BitVec 3
  a : BitVec 6
  d : BitVec 2
  deriving DecidableEq, Repr

/-- Fields of `mma.r`: GS, A, log2 L, D (R181). -/
structure FMmaR where
  g : BitVec 3
  a : BitVec 6
  l : BitVec 6
  d : BitVec 2
  deriving DecidableEq, Repr

/-- Fields of `mld`: GS, S, D (R181). -/
structure FMld where
  g : BitVec 3
  s : BitVec 6
  d : BitVec 6
  deriving DecidableEq, Repr

/-- Fields of `mld.bl`: GS, B, depth code, K (R181). -/
structure FMldBl where
  g : BitVec 3
  b : BitVec 6
  p : BitVec 6
  k : BitVec 6
  deriving DecidableEq, Repr

/-- Fields of `mst`: GS, D, S, scale, T, RM (R181, R193). -/
structure FMst where
  g : BitVec 3
  d : BitVec 6
  s : BitVec 6
  c : BitVec 1
  t : BitVec 2
  r : BitVec 3
  deriving DecidableEq, Repr

/-- Fields of `cpy`, `cpy.t`, `strm`: GS, D, S, charge (R181). -/
structure FCpy where
  g : BitVec 3
  d : BitVec 6
  s : BitVec 6
  c : BitVec 1
  deriving DecidableEq, Repr

/-- Fields of `cpy.g`, `cpy.s`: GS, D, S, I, charge (R181). -/
structure FCpyI where
  g : BitVec 3
  d : BitVec 6
  s : BitVec 6
  i : BitVec 6
  c : BitVec 1
  deriving DecidableEq, Repr

/-- Fields of `cpy.m`: GS, D, S, R, charge (R181). -/
structure FCpyM where
  g : BitVec 3
  d : BitVec 6
  s : BitVec 6
  r : BitVec 6
  c : BitVec 1
  deriving DecidableEq, Repr

/-- Fields of `cpy.mma`: GS, D, S, N, charge (R181). -/
structure FCpyMma where
  g : BitVec 3
  d : BitVec 6
  s : BitVec 6
  n : BitVec 6
  c : BitVec 1
  deriving DecidableEq, Repr

/-- Fields of `drain`: path (R82). -/
structure FDrain where
  p : BitVec 2
  deriving DecidableEq, Repr

/-- Fields of `chain`: GS, D, S, T, with tT (R181). -/
structure FChain where
  g : BitVec 3
  d : BitVec 6
  s : BitVec 6
  t : BitVec 6
  f : BitVec 1
  deriving DecidableEq, Repr

/-- Fields of `ksend`: GS, S, K, R, hashed (R181). -/
structure FKsend where
  g : BitVec 3
  s : BitVec 6
  k : BitVec 6
  r : BitVec 6
  h : BitVec 1
  deriving DecidableEq, Repr

/-- Fields of `kbin.add`: B (R181). -/
structure FKbinAdd where
  b : BitVec 6
  deriving DecidableEq, Repr

/-- Fields of `kbin.app`: B, n (R181). -/
structure FKbinApp where
  b : BitVec 6
  n : BitVec 6
  deriving DecidableEq, Repr

/-- Fields of `coll`, `coll.red`: GS, D, S, G (R181). -/
structure FColl where
  g : BitVec 3
  d : BitVec 6
  s : BitVec 6
  r : BitVec 6
  deriving DecidableEq, Repr

/-- Fields of `eng.k`: N, S, high half (R181). -/
structure FEngK where
  n : BitVec 6
  s : BitVec 6
  h : BitVec 1
  deriving DecidableEq, Repr

/-- Fields of `eng.go`: GS, D, reply (R181). -/
structure FEngGo where
  g : BitVec 3
  d : BitVec 6
  r : BitVec 1
  deriving DecidableEq, Repr

/-- Fields of `spawn`: GS, F, J, offset (R216). -/
structure FSpawn where
  g : BitVec 3
  f : BitVec 4
  j : BitVec 4
  o : BitVec 11
  deriving DecidableEq, Repr

/-- Fields of `fork.br`: F, J, offset (R216). -/
structure FFork where
  f : BitVec 4
  j : BitVec 4
  o : BitVec 11
  deriving DecidableEq, Repr

/-- Fields of `join`: C, space (R216). -/
structure FJoin where
  c : BitVec 4
  s : BitVec 2
  deriving DecidableEq, Repr

/-- Fields of `jdec`: GS, C, space (R216). -/
structure FJdec where
  g : BitVec 3
  c : BitVec 4
  s : BitVec 2
  deriving DecidableEq, Repr

/-- Fields of `send`: GS, D, P, n (R216). -/
structure FSend where
  g : BitVec 3
  d : BitVec 4
  p : BitVec 4
  n : BitVec 9
  deriving DecidableEq, Repr

/-- Fields of `send.eos`: GS, D, S (R216). -/
structure FSendEos where
  g : BitVec 3
  d : BitVec 4
  s : BitVec 4
  deriving DecidableEq, Repr

/-- Fields of `put`: GS, T, S, N (R216). -/
structure FPut where
  g : BitVec 3
  t : BitVec 4
  s : BitVec 4
  n : BitVec 3
  deriving DecidableEq, Repr

/-- Fields of `put.x`: GS, T, N (R216). -/
structure FPutX where
  g : BitVec 3
  t : BitVec 4
  n : BitVec 3
  deriving DecidableEq, Repr

/-- Fields of `nbar.init`: N, barrier (R216). -/
structure FNbarInit where
  n : BitVec 4
  b : BitVec 5
  deriving DecidableEq, Repr

/-- Fields of `nbar.arr`: GS, T, P, barrier (R216). -/
structure FNbarArr where
  g : BitVec 3
  t : BitVec 4
  p : BitVec 4
  b : BitVec 5
  deriving DecidableEq, Repr

/-- Fields of `nbar.wt`: T, P, barrier (R216). -/
structure FNbarWt where
  t : BitVec 4
  p : BitVec 4
  b : BitVec 5
  deriving DecidableEq, Repr

/-- Fields of `nbar.tx`: GS, T, N, barrier (R216). -/
structure FNbarTx where
  g : BitVec 3
  t : BitVec 4
  n : BitVec 4
  b : BitVec 5
  deriving DecidableEq, Repr

/-- Fields of `fence`: scope (R230). -/
structure FFence where
  s : BitVec 3
  deriving DecidableEq, Repr

/-- Fields of `stv`: GS, B, S (R216). -/
structure FStv where
  g : BitVec 3
  b : BitVec 4
  s : BitVec 4
  deriving DecidableEq, Repr

/-- Fields of `ldv`, `ldv.s`: B, D (R216). -/
structure FLdv where
  b : BitVec 4
  d : BitVec 4
  deriving DecidableEq, Repr

/-- Fields of `vrcl`: GS, B (R216). -/
structure FVrcl where
  g : BitVec 3
  b : BitVec 4
  deriving DecidableEq, Repr

/-- Fields of `sys`: A, B, n (R216). -/
structure FSys where
  a : BitVec 4
  b : BitVec 4
  n : BitVec 10
  deriving DecidableEq, Repr

/-- Fields of `trap`: A, n (R216). -/
structure FTrap where
  a : BitVec 4
  n : BitVec 10
  deriving DecidableEq, Repr

/-- Fields of `brk`: n (R216). -/
structure FBrk where
  n : BitVec 10
  deriving DecidableEq, Repr

/-- Fields of `rdcr`: D, register number (R216). -/
structure FRdcr where
  d : BitVec 4
  n : BitVec 3
  deriving DecidableEq, Repr

/-- Fields of `wrcr`: S, register number (R216). -/
structure FWrcr where
  s : BitVec 4
  n : BitVec 3
  deriving DecidableEq, Repr

/-- Fields of a hint of the X-class map (R85). -/
structure FHintX where
  o : BitVec 4
  x : BitVec 22
  deriving DecidableEq, Repr

/-- Fields of `vmode`: PG, mode (R176). -/
structure FVmode where
  p : BitVec 3
  m : BitVec 1
  deriving DecidableEq, Repr

/-- Fields of format XG: PG, SLOT, PS, N (R166). -/
structure FXG where
  p : BitVec 3
  s : BitVec 3
  q : BitVec 3
  n : BitVec 1
  deriving DecidableEq, Repr

/-- Fields of format XL: PG, PD, PA, PB, TT (R164). -/
structure FXL where
  p : BitVec 3
  d : BitVec 3
  a : BitVec 3
  b : BitVec 3
  t : BitVec 4
  deriving DecidableEq, Repr

/-- Fields of format XS: PS, D, A, B (R165). -/
structure FXS where
  s : BitVec 3
  d : BitVec 6
  a : BitVec 6
  b : BitVec 6
  deriving DecidableEq, Repr

/-- Fields of formats XR, XV, XW with M = 0: PG, D, A, B (R75). -/
structure FXR where
  p : BitVec 3
  d : BitVec 6
  a : BitVec 6
  b : BitVec 6
  deriving DecidableEq, Repr

/-- Fields of formats XR, XV, XW with B = M = 0: PG, D, A (R75). -/
structure FXR1 where
  p : BitVec 3
  d : BitVec 6
  a : BitVec 6
  deriving DecidableEq, Repr

/-- Fields of format XR with M: PG, D, A, B, M (R161). -/
structure FXRM where
  p : BitVec 3
  d : BitVec 6
  a : BitVec 6
  b : BitVec 6
  m : BitVec 1
  deriving DecidableEq, Repr

/-- Fields of format XI: PG, D, A, IMM7 (R162). -/
structure FXI where
  p : BitVec 3
  d : BitVec 6
  a : BitVec 6
  i : BitVec 7
  deriving DecidableEq, Repr

/-- Fields of `li`: PG, D, IMM7 (R162). -/
structure FLi where
  p : BitVec 3
  d : BitVec 6
  i : BitVec 7
  deriving DecidableEq, Repr

/-- Fields of format XC: PG, PD, COND, A, B (R163). -/
structure FXC where
  p : BitVec 3
  d : BitVec 3
  c : BitVec 3
  a : BitVec 6
  b : BitVec 6
  deriving DecidableEq, Repr

/-- Fields of `cvt`: destination type, PG, D, A, RM, SRC (R169). -/
structure FCvt where
  t : BitVec 4
  p : BitVec 3
  d : BitVec 6
  a : BitVec 6
  r : BitVec 3
  s : BitVec 4
  deriving DecidableEq, Repr

/-- Fields of `vext`: PG, A, B (R173). -/
structure FVext where
  p : BitVec 3
  a : BitVec 6
  b : BitVec 6
  deriving DecidableEq, Repr

/-- Fields of `vred`: PG, A (R174). -/
structure FVred where
  p : BitVec 3
  a : BitVec 6
  deriving DecidableEq, Repr

/-- Fields of `vredq.f32`: PG, A, B, M (R175). -/
structure FVredq where
  p : BitVec 3
  a : BitVec 6
  b : BitVec 6
  m : BitVec 1
  deriving DecidableEq, Repr

/-- Fields of `vcvt`: PG, D, A, RM, SRC (R170). -/
structure FVcvt where
  p : BitVec 3
  d : BitVec 6
  a : BitVec 6
  r : BitVec 3
  s : BitVec 4
  deriving DecidableEq, Repr

/-- A read of a Plaza core in the panel configuration space (R20, R289, R330, R332). -/
structure CfgRead where
  core : Nat
  guest : Bool
  off : Nat
  /-- Bytes read. -/
  width : Nat
  deriving DecidableEq, Repr

/-- What arrives at a home (R240, R241): an access in flight from a tile, an access of a Plaza core (R257) to edge memory or host
memory by its physical address, or a Plaza core's read of a configuration register. -/
inductive HomeReq where
  /-- The access in flight with this number. -/
  | tile (id : Nat)
  /-- A Plaza core reads `n` bytes. -/
  | plazaLoad (core pa n : Nat)
  /-- A Plaza core writes bytes. -/
  | plazaStore (core pa : Nat) (bytes : List Byte)
  /-- An AMO of 4 or 8 bytes with its rl bit; the operation has the code of Table 5-7. -/
  | plazaAmo (core pa : Nat) (op : BitVec 4) (wide rl : Bool) (v : DWord)
  /-- A load-reserved of 4 or 8 bytes. -/
  | plazaLr (core pa : Nat) (wide : Bool)
  /-- A store-conditional of 4 or 8 bytes with its rl bit. -/
  | plazaSc (core pa : Nat) (wide rl : Bool) (v : DWord)
  /-- A `FENCE` that orders reads and writes, or, with `io`, I/O as well. -/
  | plazaFence (core : Nat) (io : Bool)
  | configRead (r : CfgRead)
  deriving DecidableEq, Repr

/-- What the engine of a peer module sends for a round: the number of participants that it combined, and their combined words
(R316). -/
structure Partial where
  parts : Nat
  words : List Word
  deriving DecidableEq, Repr

/-- What a span loses (R314): lanes of a port, or the peer module with this identifier. -/
inductive SpanLoss where
  | port (p : Nat)
  | module (id : Nat)
  deriving DecidableEq, Repr

/-- An inbox message (R223, R224): one in flight from a tile, or one that a Plaza core sends for a launch; or a message of
tag 0, of a Plaza core of this die or, on die 0, of a Boulevard engine, to any 20-bit destination (R15, R17); or a message of
tag 0 of a Boulevard engine that acts on a command of a task, by the tile, the GTID and the bundle of the command (R17, R187). -/
inductive InboxReq where
  | net (m : Nat)
  | plaza (tile launch : Nat) (bytes : List Byte)
  | tagZero (die : Nat) (dst : BitVec 20)
  | engine (tile : Nat) (gtid pc : DWord) (dst : BitVec 20)
  deriving DecidableEq, Repr

/-- A field of a frame that system software may rewrite before a resolution (R292). -/
inductive FrameEdit where
  | a (n : BitVec 4) (v : DWord)
  | g (n : BitVec 6) (v : Word)
  | p (n : BitVec 3) (v : Bool)
  | acc (v : Word)
  | rm (v : BitVec 3)
  | lfsr (v : Word)
  | rpc (v : DWord)
  /-- ACTION of the replay entry with this position in log order. -/
  | action (i : Nat) (v : BitVec 4)
  /-- The DATA a supply delivers, of the replay entry with this position. -/
  | data (i : Nat) (v : Vec)
  /-- A write to any other byte of the frame, which its CRC-32C catches. -/
  | other
  deriving DecidableEq, Repr

/-- A write of RESOLVE1 in the panel block of `die` by Plaza core `core` (R289, R292). -/
structure Resolution where
  core : Nat
  die : Nat
  /-- Bit 3 of the resolution word. -/
  skipbp : Bool
  edits : List FrameEdit
  deriving DecidableEq, Repr

/-- An access of a Plaza core to a register of a die's panel block (R289). -/
structure BlockAccess where
  core : Nat
  /-- A guest's access is discarded and reads zero. -/
  guest : Bool
  die : Nat
  /-- Bytes accessed. -/
  width : Nat
  val : DWord
  deriving DecidableEq, Repr

/-- A write of a Plaza core to the panel configuration space (R20, R289, R330, R332). -/
structure CfgWrite where
  core : Nat
  guest : Bool
  off : Nat
  /-- Bytes written. -/
  width : Nat
  val : DWord
  deriving DecidableEq, Repr

/-- One sample of the three sensors of a physical quad (R328): degrees Celsius, degrees Celsius, amperes. -/
structure SensorReading where
  t0 : Int
  t1 : Int
  amps : Int
  deriving DecidableEq, Repr

/-- A write to a submission page (R260, R309, R310). -/
structure SlotWrite where
  /-- The host port whose page it is, and the number of the page there. -/
  port : Nat
  page : Nat
  /-- Byte offset in the page. -/
  off : Nat
  /-- The write is a Deferrable Memory Write of a host, or one access of a core. -/
  whole : Bool
  bytes : List Byte
  deriving DecidableEq, Repr

/-- What BAR0 of a host port shows, by name: the manual gives no offsets but that of the lifetime block (R306, R320, R341; log
107). -/
inductive Bar0Reg where
  /-- Sites that passed die test (R320). -/
  | passing
  /-- The MISROUTE counter of the port (R311). -/
  | misroute
  /-- Counters of a span port: its lanes, retrains and losses (R313, R314). -/
  | spanLanes (p : Nat)
  | spanRetrains (p : Nat)
  | spanLosses (p : Nat)
  /-- Bytes of the lifetime block from an offset (R341). -/
  | lifetime (off n : Nat)
  /-- Bytes of the Gwemon mailbox from an offset (R306). -/
  | mailbox (off n : Nat)
  deriving DecidableEq, Repr

/-- A host request to a port (R306, R307): a read, a write or an AtomicOp to BAR4; a configuration request; a read of BAR0 or of the
submission pages of BAR2; a write to the Gwemon mailbox of BAR0; a Deferrable Memory Write to BAR4; a request that relies on a feature which the port does not
support. -/
inductive Bar4Req where
  | read (port off n : Nat)
  | write (port off : Nat) (bytes : List Byte)
  | fetchAdd (port off : Nat) (wide : Bool) (v : DWord)
  | swap (port off : Nat) (wide : Bool) (v : DWord)
  | cas (port off : Nat) (wide : Bool) (cmp new : DWord)
  | config (port off n : Nat)
  | bar0 (port : Nat) (r : Bar0Reg)
  | page (port off n : Nat)
  | deferrable (port off : Nat) (bytes : List Byte)
  | mailbox (port off : Nat) (bytes : List Byte)
  | feature (port : Nat)
  deriving DecidableEq, Repr

/-- A firmware image as the management controller meets it (R319). -/
structure Image where
  /-- The image bytes. -/
  bytes : List Byte
  version : Nat
  /-- The XMSS signature of the slot. -/
  signature : List Byte
  deriving DecidableEq, Repr

/-- How a host port comes up (R307, R308): whether it negotiates CXL, and the edge-memory range that system software chooses for its
BAR4. -/
structure PortSetup where
  cxl : Bool
  base : Nat
  size : Nat
  deriving DecidableEq, Repr

/-- What the boot of R320 finds: the input voltage, the host ports, the sites that pass die test, and the bad physical quads of
their clusters. -/
structure BootReport where
  /-- The 12 V input in millivolts (Table 23-8). -/
  input : Nat
  /-- Ports 0 to 3, in this order. -/
  ports : List PortSetup
  /-- Sites that pass die test, in increasing site number. -/
  sites : List Nat
  /-- For site x 4 + cluster of the site, its bad physical quads; an unlisted cluster has none. -/
  badQuads : List (Nat × List Nat)
  deriving DecidableEq, Repr

/-- The counts of clk that a tagged-sample record holds and that the timing of the hardware decides (R339). -/
structure SampleCounts where
  iwait : Nat
  xwait : Nat
  owait : Nat
  latency : Nat
  mem : Nat
  deriving DecidableEq, Repr

/-- A ring of records (R330): the ring of a die, or the ring of a region tag's session. -/
inductive RingName where
  | die (n : Nat)
  | session (tag : Nat)
  deriving DecidableEq, Repr

/-- A request about virtual states (R326). -/
inductive StateRequest where
  /-- System software sets the virtual state of a cohort. -/
  | set (cohort vs : Nat)
  /-- The hypervisor maps a tenant's virtual state to a physical point. -/
  | remap (tenant vs point : Nat)
  deriving DecidableEq, Repr

/-- Every instruction and step of the opcode table, in the table's order. -/
inductive Instr where
  /-- R85: Access-side no-operation that changes no architectural state. -/
  | nopA
  /-- R85: A-class hint opcode 0xF2-0xFF that changes no state and whose bits 21:0 are not checked. -/
  | hintA (f : FHintA)
  /-- R123: Jumps to pc + 8 x offset. -/
  | jmp (f : FAJ)
  /-- R123: Writes pc + 8 to a15 and jumps to pc + 8 x offset. -/
  | call (f : FAJ)
  /-- R124: Jumps to the address in aA, raising ALIGN precisely when it is misaligned. -/
  | jr (f : FJr)
  /-- R124: Writes the link into aD and jumps to the address in aA. -/
  | callr (f : FCallr)
  /-- R125: Branches when aA equals aB. -/
  | beq (f : FAB)
  /-- R125: Branches when aA differs from aB. -/
  | bne (f : FAB)
  /-- R125: Branches when aA is less than aB, signed. -/
  | blt (f : FAB)
  /-- R125: Branches when aA is at least aB, signed. -/
  | bge (f : FAB)
  /-- R125: Branches when aA is less than aB, unsigned. -/
  | bltu (f : FAB)
  /-- R125: Branches when aA is at least aB, unsigned. -/
  | bgeu (f : FAB)
  /-- R126: Waits for and consumes the xq head and branches when it is zero. -/
  | bxz (f : FAX)
  /-- R126: Waits for and consumes the xq head and branches when it is non-zero. -/
  | bxnz (f : FAX)
  /-- R126: Waits for and consumes the xq head and branches when it is negative. -/
  | bxlt (f : FAX)
  /-- R126: Waits for and consumes the xq head and branches when it is zero or positive. -/
  | bxge (f : FAX)
  /-- R127: Waits for the newest earlier generation of a guard slot and branches when it is true. -/
  | bgd (f : FAG)
  /-- R127: Waits for the newest earlier generation of a guard slot and branches when it is false. -/
  | bngd (f : FAG)
  /-- R129: Arms hardware loop counter lc0 or lc1 with its start, end bundle and count, skipping the body when the count is zero. -/
  | loop (f : FAL)
  /-- R131: aD := aA + aB. -/
  | aadd (f : FAR)
  /-- R131: aD := aA - aB. -/
  | asub (f : FAR)
  /-- R131: aD := aA and aB. -/
  | aand (f : FAR)
  /-- R131: aD := aA or aB. -/
  | aor (f : FAR)
  /-- R131: aD := aA xor aB. -/
  | axor (f : FAR)
  /-- R131: aD := aA shifted left by aB mod 64. -/
  | ashl (f : FAR)
  /-- R131: aD := aA shifted right logically by aB mod 64. -/
  | ashr (f : FAR)
  /-- R131: aD := aA shifted right arithmetically by aB mod 64. -/
  | asra (f : FAR)
  /-- R131: aD := low 64 bits of aA x aB, ready 3 clk after issue. -/
  | amul (f : FAR)
  /-- R131: Builds a pr address from a scratchpad offset in aA and a tile identifier in aB. -/
  | apeer (f : FAR)
  /-- R132: aD := aA + immediate. -/
  | aaddi (f : FAI)
  /-- R132: aD := aA and immediate. -/
  | aandi (f : FAI)
  /-- R132: aD := aA or immediate. -/
  | aori (f : FAI)
  /-- R132: aD := aA xor immediate. -/
  | axori (f : FAI)
  /-- R132: aD := aA shifted left by immediate mod 64. -/
  | ashli (f : FAI)
  /-- R132: aD := aA shifted right logically by immediate mod 64. -/
  | ashri (f : FAI)
  /-- R132: aD := aA shifted right arithmetically by immediate mod 64. -/
  | asrai (f : FAI)
  /-- R132: aD := the immediate value. -/
  | ali (f : FAli)
  /-- R132: Replaces the upper 32 bits of aA with the low 32 bits of the immediate into aD. -/
  | alh (f : FAI)
  /-- R141: Loads 1-32 bytes from own scratchpad into an lq entry or a-register, or touches when DATA is a0. -/
  | ldSp (f : FLd)
  /-- R141: Loads from the scratchpad of a tile of the same cohort. -/
  | ldPr (f : FLd)
  /-- R141: Loads from own quad local memory. -/
  | ldQl (f : FLd)
  /-- R141: Loads from global memory through the die's address gateway. -/
  | ldGl (f : FLd)
  /-- R144: Stores 1-32 bytes from an a-register or sq to own scratchpad, optionally guarded. -/
  | stSp (f : FSt)
  /-- R144: Stores to the scratchpad of a tile of the same cohort. -/
  | stPr (f : FSt)
  /-- R144: Stores to own quad local memory. -/
  | stQl (f : FSt)
  /-- R144: Stores to global memory. -/
  | stGl (f : FSt)
  /-- R148: Indivisible read-modify-write of a scratchpad word, delivering the old value. -/
  | atomSp (f : FAtom)
  /-- R148: Indivisible read-modify-write of a peer scratchpad word. -/
  | atomPr (f : FAtom)
  /-- R148: Indivisible read-modify-write of a global word at its home controller or host port. -/
  | atomGl (f : FAtom)
  /-- R149: Compare-and-swap on a scratchpad word. -/
  | casSp (f : FCas)
  /-- R149: Compare-and-swap on a peer scratchpad word. -/
  | casPr (f : FCas)
  /-- R149: Compare-and-swap on a global word. -/
  | casGl (f : FCas)
  /-- R146: Prefetch hint for global memory that never faults or orders. -/
  | prefGl (f : FPref)
  /-- R146: Prefetch hint for quad local memory. -/
  | prefQl (f : FPref)
  /-- R184: Reads a 32-byte tensor descriptor into a tensor-identifier entry, leaving it pending until the data arrive. -/
  | tdef (f : FTdef)
  /-- R185: Invalidates one tensor-identifier entry after any pending tdef. -/
  | tinv (f : FTinv)
  /-- R185: Invalidates all 64 tensor-identifier entries. -/
  | tinvAll
  /-- R189: Queues a command that zeroes an accumulator. -/
  | mmz (f : FMmz)
  /-- R190: Queues one k-slab multiply-accumulate of tensors A and B into an accumulator. -/
  | mma (f : FMma)
  /-- R191: Queues an mma that takes its B slab from the bl latch and empties it. -/
  | mmaBl (f : FMmaBl)
  /-- R192: Queues an mma.bl that then forwards its slab to the Ringway successor. -/
  | mmaR (f : FMmaR)
  /-- R189: Queues a load of an FP32 accumulator image into an accumulator. -/
  | mld (f : FMld)
  /-- R191: Queues a latch of one B slab with its scales into bl. -/
  | mldBl (f : FMldBl)
  /-- R193: Queues a store of an accumulator through a conversion into a tensor. -/
  | mst (f : FMst)
  /-- R198: Copies tensor rows of equal shape, optionally charging a named barrier. -/
  | cpy (f : FCpy)
  /-- R198: Gathers source rows by an index tensor. -/
  | cpyG (f : FCpyI)
  /-- R198: Scatters source rows by an index tensor. -/
  | cpyS (f : FCpyI)
  /-- R198: Copies a tensor transposed. -/
  | cpyT (f : FCpy)
  /-- R201: Multicasts a copy through the Crossing into a rectangle of tiles of the cluster. -/
  | cpyM (f : FCpyM)
  /-- R202: Copies and then pushes a follow-on mma body from a k register to the matrix queue. -/
  | cpyMma (f : FCpyMma)
  /-- R203: Subscribes the tile to a Boulevard weight stream for a byte count. -/
  | strm (f : FCpy)
  /-- R204: Waits until all earlier accesses and engine work on a path have been done, then acts as a report point and acquire. -/
  | drain (f : FDrain)
  /-- R206: Queues an element-wise step program on the quad unit over one or two tensors into a destination. -/
  | chain (f : FChain)
  /-- R208: Sends a tensor row as a keyed payload to a key-accumulate unit of the cohort. -/
  | ksend (f : FKsend)
  /-- R207: Binds the tile's bin table in add mode to an FP32 sp tensor. -/
  | kbinAdd (f : FKbinAdd)
  /-- R207: Binds the tile's bin table in append mode with slots of 32n bytes. -/
  | kbinApp (f : FKbinApp)
  /-- R207: Unbinds the tile's bin table. -/
  | kbinOff
  /-- R210: Joins an all-reduce round of a collective group, writing the result at every participant. -/
  | coll (f : FColl)
  /-- R210: Joins a reduce round whose result is written only at the root. -/
  | collRed (f : FColl)
  /-- R211: Writes the low or high half of an a-register into staging register kN. -/
  | engK (f : FEngK)
  /-- R212: Sends a generic engine command from k0-k3 to an engine destination, optionally asking for replies in ef. -/
  | engGo (f : FEngGo)
  /-- R218: Makes a continuation record for a new task one level deeper and places it in the deque, spill or reserved slot. -/
  | spawn (f : FSpawn)
  /-- R218: Offers the fall-through as a task record and continues at the target one level deeper. -/
  | forkBr (f : FFork)
  /-- R221: Suspends the task until a join counter reads zero. -/
  | join (f : FJoin)
  /-- R221: Decrements a join counter indivisibly as a release, waking waiters when it reaches zero. -/
  | jdec (f : FJdec)
  /-- R222: Writes the task's record to the newest end of the deque with no wait cause. -/
  | suspend
  /-- R222: Writes the task's record as a resident record ready at once behind other ready records. -/
  | yield
  /-- R222: Ends the task after its accesses have left, as a report point. -/
  | exit
  /-- R223: Sends n bytes of scratchpad as a message to a tile inbox or edge streamer, as a release. -/
  | send (f : FSend)
  /-- R226: Sends the end-of-stream token for a stream to an edge streamer. -/
  | sendEos (f : FSendEos)
  /-- R225: Writes a register value to a landing register of self or a mesh neighbour. -/
  | put (f : FPut)
  /-- R225: Writes the xq head to a landing register of self or a mesh neighbour. -/
  | putX (f : FPutX)
  /-- R224: Suspends the task until it consumes the oldest unconsumed inbox message. -/
  | wfm
  /-- R229: Sets a named barrier's expected count and clears its arrivals, pending bytes and sums. -/
  | nbarInit (f : FNbarInit)
  /-- R229: Arrives at a named barrier as a release and report point, returning its phase. -/
  | nbarArr (f : FNbarArr)
  /-- R229: Suspends the task until a named barrier passes a given phase. -/
  | nbarWt (f : FNbarWt)
  /-- R229: Adds a signed byte count to a named barrier's pending bytes. -/
  | nbarTx (f : FNbarTx)
  /-- R230: Waits until earlier accesses are performed at the scope, acting as acquire and release. -/
  | fence (f : FFence)
  /-- R232: Writes a scratchpad word and its version indivisibly as a release at cluster scope. -/
  | stv (f : FStv)
  /-- R233: Waits without suspending until a word's version reaches v, then returns data and version as an acquire. -/
  | ldv (f : FLdv)
  /-- R233: Reads a versioned word once and suspends the task on the version when not yet reached. -/
  | ldvS (f : FLdv)
  /-- R232: Resets a scratchpad word's version to 0 as a release. -/
  | vrcl (f : FVrcl)
  /-- R234: Completes its bundle and traps with SYS_REQUEST asking the home Plaza for service n. -/
  | sys (f : FSys)
  /-- R234: Raises USER_TRAP precisely with n and a[A]. -/
  | trap (f : FTrap)
  /-- R234: Raises BREAK precisely with n. -/
  | brk (f : FBrk)
  /-- R236: Reads a control register into aD. -/
  | rdcr (f : FRdcr)
  /-- R236: Writes aS to the RW fields of a control register. -/
  | wrcr (f : FWrcr)
  /-- R235: Stops every tile of the cohort in place and sends HALTED records. -/
  | halt
  /-- R85: Execute-side no-operation that takes its queue entry and changes nothing. -/
  | nopX
  /-- R85: X-class hint that changes no state. -/
  | hintX (f : FHintX)
  /-- R176: Switches the tile between short and long vector mode with the waits of R66. -/
  | vmode (f : FVmode)
  /-- R166: Resolves the guard-slot generation opened by its bundle to pS or its inverse. -/
  | gset (f : FXG)
  /-- R164: Writes a predicate as a truth-table function of two predicates. -/
  | plog (f : FXL)
  /-- R165: Writes A or B to gD by predicate pS. -/
  | sel (f : FXS)
  /-- R159: 32-bit wrapping add. -/
  | add (f : FXR)
  /-- R159: 32-bit wrapping subtract. -/
  | sub (f : FXR)
  /-- R159: Signed saturating add. -/
  | addsI32 (f : FXR)
  /-- R159: Unsigned saturating add. -/
  | addsN32 (f : FXR)
  /-- R159: Signed saturating subtract. -/
  | subsI32 (f : FXR)
  /-- R159: Unsigned saturating subtract. -/
  | subsN32 (f : FXR)
  /-- R159: Low 32 bits of the product. -/
  | mul (f : FXR)
  /-- R159: High 32 bits of the signed product. -/
  | mulhI32 (f : FXR)
  /-- R159: High 32 bits of the unsigned product. -/
  | mulhN32 (f : FXR)
  /-- R98: Signed division truncating toward zero, without trapping. -/
  | divI32 (f : FXR)
  /-- R98: Unsigned division. -/
  | divN32 (f : FXR)
  /-- R98: Signed remainder. -/
  | remI32 (f : FXR)
  /-- R98: Unsigned remainder. -/
  | remN32 (f : FXR)
  /-- R159: Signed minimum. -/
  | minI32 (f : FXR)
  /-- R159: Unsigned minimum. -/
  | minN32 (f : FXR)
  /-- R159: Signed maximum. -/
  | maxI32 (f : FXR)
  /-- R159: Unsigned maximum. -/
  | maxN32 (f : FXR)
  /-- R159: Bitwise and. -/
  | and (f : FXR)
  /-- R159: Bitwise or. -/
  | or (f : FXR)
  /-- R159: Bitwise exclusive or. -/
  | xor (f : FXR)
  /-- R159: A and not B. -/
  | andn (f : FXR)
  /-- R160: Logical shift left by B mod 32. -/
  | shl (f : FXR)
  /-- R160: Logical shift right by B mod 32. -/
  | shr (f : FXR)
  /-- R160: Arithmetic shift right by B mod 32. -/
  | sra (f : FXR)
  /-- R160: Rotate left by B mod 32. -/
  | rol (f : FXR)
  /-- R160: Counts leading zero bits. -/
  | clz (f : FXR1)
  /-- R160: Counts trailing zero bits. -/
  | ctz (f : FXR1)
  /-- R160: Counts one bits. -/
  | popc (f : FXR1)
  /-- R160: Extracts a zero-extended bit field. -/
  | bfx (f : FXR)
  /-- R160: Inserts a bit field into the old destination value. -/
  | bfi (f : FXR)
  /-- R161: Adds with carry in and carry out in p7. -/
  | addc (f : FXRM)
  /-- R161: Subtracts with borrow in and borrow out in p7. -/
  | subc (f : FXRM)
  /-- R162: Add of a 7-bit signed immediate. -/
  | addi (f : FXI)
  /-- R162: And with an immediate. -/
  | andi (f : FXI)
  /-- R162: Or with an immediate. -/
  | ori (f : FXI)
  /-- R162: Exclusive or with an immediate. -/
  | xori (f : FXI)
  /-- R162: Shift left by an immediate. -/
  | shli (f : FXI)
  /-- R162: Logical shift right by an immediate. -/
  | shri (f : FXI)
  /-- R162: Arithmetic shift right by an immediate. -/
  | srai (f : FXI)
  /-- R162: Writes a sign-extended 7-bit immediate. -/
  | li (f : FLi)
  /-- R163: Writes a predicate from a signed integer comparison. -/
  | cmpI32 (f : FXC)
  /-- R163: Writes a predicate from an unsigned comparison. -/
  | cmpN32 (f : FXC)
  /-- R163: Writes a predicate from an FP32 comparison, including unordered. -/
  | cmpF32 (f : FXC)
  /-- R167: FP32 add rounded in the default mode. -/
  | addF32 (f : FXR)
  /-- R167: FP32 subtract. -/
  | subF32 (f : FXR)
  /-- R167: FP32 multiply. -/
  | mulF32 (f : FXR)
  /-- R167: Fused A x B + destination with one rounding. -/
  | fmaF32 (f : FXR)
  /-- R167: Fused A x B - destination. -/
  | fmsF32 (f : FXR)
  /-- R167: Fused -(A x B) + destination. -/
  | fnmaF32 (f : FXR)
  /-- R167: Fused -(A x B) - destination. -/
  | fnmsF32 (f : FXR)
  /-- R97: FP32 minimum with the NaN and signed-zero rules. -/
  | minF32 (f : FXR)
  /-- R97: FP32 maximum with the NaN and signed-zero rules. -/
  | maxF32 (f : FXR)
  /-- R167: Clears the sign of a non-NaN operand. -/
  | absF32 (f : FXR1)
  /-- R167: Flips the sign of a non-NaN operand. -/
  | negF32 (f : FXR1)
  /-- R168: Correctly rounded reciprocal. -/
  | rcpF32 (f : FXR1)
  /-- R168: Correctly rounded square root. -/
  | sqrtF32 (f : FXR1)
  /-- R168: Correctly rounded reciprocal square root. -/
  | rsqF32 (f : FXR1)
  /-- R168: Correctly rounded power of two. -/
  | ex2F32 (f : FXR1)
  /-- R168: Correctly rounded base-2 logarithm. -/
  | lg2F32 (f : FXR1)
  /-- R168: Correctly rounded hyperbolic tangent. -/
  | tanhF32 (f : FXR1)
  /-- R169: Converts operand A from type SRC to the destination type given by the opcode, in the rounding mode RM. -/
  | cvt (f : FCvt)
  /-- R172: Lane-wise FP32 add. -/
  | vaddF32 (f : FXR)
  /-- R172: Lane-wise FP32 subtract. -/
  | vsubF32 (f : FXR)
  /-- R172: Lane-wise FP32 multiply. -/
  | vmulF32 (f : FXR)
  /-- R172: Lane-wise fused multiply-add into the destination. -/
  | vfmaF32 (f : FXR)
  /-- R172: Lane-wise FP32 minimum. -/
  | vminF32 (f : FXR)
  /-- R172: Lane-wise FP32 maximum. -/
  | vmaxF32 (f : FXR)
  /-- R172: Lane-wise integer add. -/
  | vaddI32 (f : FXR)
  /-- R172: Lane-wise integer subtract. -/
  | vsubI32 (f : FXR)
  /-- R172: Lane-wise low 32 bits of the product. -/
  | vmulI32 (f : FXR)
  /-- R172: Lane-wise bitwise and. -/
  | vand (f : FXR)
  /-- R172: Lane-wise bitwise or. -/
  | vor (f : FXR)
  /-- R172: Lane-wise bitwise exclusive or. -/
  | vxor (f : FXR)
  /-- R172: Lane-wise shift left. -/
  | vshl (f : FXR)
  /-- R172: Lane-wise logical shift right. -/
  | vshr (f : FXR)
  /-- R172: Lane-wise arithmetic shift right. -/
  | vsra (f : FXR)
  /-- R173: Permutes lanes of A by indices in B. -/
  | vperm (f : FXR)
  /-- R173: Broadcasts lane 0 of A to all lanes. -/
  | vbcast (f : FXR1)
  /-- R173: Extracts one lane of A into acc. -/
  | vext (f : FVext)
  /-- R173: Inserts lane 0 of A into one lane of the destination. -/
  | vins (f : FXR)
  /-- R174: Reduces 8 lanes by a fixed tree of FP32 adds into acc. -/
  | vredAddF32 (f : FVred)
  /-- R174: Reduces 8 lanes by FP32 maximum into acc. -/
  | vredMaxF32 (f : FVred)
  /-- R174: Reduces 8 lanes by integer add into acc. -/
  | vredAddI32 (f : FVred)
  /-- R175: Pops n entries from lq0, lq1 or ri and adds them into acc, counting progress in cr.redq. -/
  | vredqF32 (f : FVredq)
  /-- R170: Converts each of 8 lanes from type SRC to f32. -/
  | vcvt (f : FVcvt)
  /-- R177: Pushes a long element-wise add to the quad unit. -/
  | waddF32 (f : FXR)
  /-- R177: Pushes a long element-wise subtract. -/
  | wsubF32 (f : FXR)
  /-- R177: Pushes a long element-wise multiply. -/
  | wmulF32 (f : FXR)
  /-- R177: Pushes a long element-wise fused multiply-add. -/
  | wfmaF32 (f : FXR)
  /-- R177: Pushes a long element-wise minimum. -/
  | wminF32 (f : FXR)
  /-- R177: Pushes a long element-wise maximum. -/
  | wmaxF32 (f : FXR)
  /-- R177: Pushes a broadcast of a scalar to every element of a w register. -/
  | wbcastF32 (f : FXR1)
  /-- R177: Pushes an insert of a scalar into one element of a w register. -/
  | wins (f : FXR)
  /-- R177: Extracts one element of a w register into a scalar destination, waiting for the value. -/
  | wext (f : FXR)
  /-- R177: Reduces 128 elements by a pairwise add tree into a scalar. -/
  | wredAddF32 (f : FXR1)
  /-- R177: Reduces 128 elements by maximum into a scalar. -/
  | wredMaxF32 (f : FXR1)
  /-- R48, a step: A 256-byte code line arrives in the fetch buffer and issue from it resumes. -/
  | fetchLineFill (t : Nat) (base : DWord)
  /-- R141, a step: A load, atomic or refusal response returns and fills its lq entry or a-register, poisoning and logging on a fault. -/
  | accessResponse (id : Nat)
  /-- R241, a step: A home performs an arriving access in coherence order, waking join and version waiters where it applies. -/
  | homeAccess (r : HomeReq)
  /-- R135, a step: Once in-flight accesses settle after the replay queue fills, the logged faults are raised as at a report point. -/
  | replayQueueFull (t : Nat)
  /-- R184, a step: A tdef descriptor arrives and the entry becomes valid or poisoned. -/
  | tdefDescriptorArrival (t n : Nat)
  /-- R188, a step: The matrix array finishes a command and starts the next queued one. -/
  | matrixCommandComplete (t : Nat)
  /-- R192, a step: A forwarded slab lands in the successor's ring buffer and enters bl when empty. -/
  | ringwayForwardLanding (t : Nat)
  /-- R197, a step: A copy's last byte lands, settling its barrier charge and completing on its path. -/
  | copyComplete (t i : Nat)
  /-- R203, a step: Stream data on channel 4 fill a subscriber's tensor rows. -/
  | streamDataArrival (t i prod : Nat) (bytes : List Byte)
  /-- R226, a step: A producer's end-of-stream token arrives, ending the subscription once every producer's token is in. -/
  | endOfStreamToken (t i prod : Nat)
  /-- R208, a step: A keyed payload arrives at a key-accumulate unit and is added, appended or dropped. -/
  | ksendArrival (m : Nat)
  /-- R210, a step: A collective round with every participant issued combines and writes its result. -/
  | collectiveRoundComplete (g : Nat) (peers : List Partial)
  /-- R178, a step: The quad unit runs a long form or chain unit from a tile's queue. -/
  | quadUnitCommand (t : Nat) (chain : Bool)
  /-- R62, a step: An engine result arrives at a tile's ef, waiting while ef is full. -/
  | engineReply (t : Nat)
  /-- R213, a step: Stream engine QUERY replies with copies in flight per path. -/
  | streamEngineQuery (m : Nat)
  /-- R213, a step: Matrix array replies with DET and REP. -/
  | ctrRead (m : Nat)
  /-- R213, a step: Matrix array clears DET and REP. -/
  | ctrClear (m : Nat)
  /-- R213, a step: Key-accumulate unit replies with DROP. -/
  | dropRead (m : Nat)
  /-- R213, a step: Key-accumulate unit clears DROP. -/
  | dropClear (m : Nat)
  /-- R213, a step: Quad unit replies with the tile's queued long and chain commands. -/
  | quadUnitQuery (m : Nat)
  /-- R213, a step: Crossing replies with requests merged since cohort start. -/
  | mergeRead (m : Nat)
  /-- R214, a step: Address gateway replies with the translation a gl access would use. -/
  | probe (m : Nat)
  /-- R213, a step: Collective engine replies with a group's participant count. -/
  | groupInfo (m : Nat)
  /-- R213, a step: Edge streamer replies with bytes queued for a stream. -/
  | streamInfo (m : Nat)
  /-- R213, a step: An engine answers an opcode it does not accept with 0xFFFF_FFFF or discards it. -/
  | engGoUnaccepted (m : Nat)
  /-- R224, a step: An inbox message arrives and takes the lowest free slot, or is refused when no resident cohort of its launch holds the tile. -/
  | inboxDelivery (r : InboxReq)
  /-- R60, a step: A put lands in a landing register once its presence bit is clear. -/
  | putLanding (m : Nat)
  /-- R61, a step: A ring-channel value arrives in the successor's ri. -/
  | ringValueArrival (t : Nat)
  /-- R221, a step: A wake for a join counter that reached zero makes waiting records ready. -/
  | joinWake (m : Nat)
  /-- R221, a step: Every 4 us a waiting join record rereads its counter. -/
  | joinReread (t i : Nat)
  /-- R229, a step: A barrier arrival or pending-byte change from another tile is applied at the barrier's home. -/
  | nbarRemoteAccess (id : Nat)
  /-- R275, a step: A free tile selects its next record by reserved slot, ready resident, own deque, then steal. -/
  | taskSelect (t : Nat)
  /-- R276, a step: A claim at a victim's deque port removes its oldest stealable entry and sets TRANSIT. -/
  | stealClaim (t victim : Nat)
  /-- R276, a step: A stolen record lands at the thief. -/
  | stealLanding (t : Nat)
  /-- R276, a step: A thief that found every victim empty tries again after 256 clk. -/
  | stealRetry (t : Nat)
  /-- R291, a step: After its queues settle, a trapped task's state is written to a frame from the pool and a trap record is sent. -/
  | frameWrite (t : Nat)
  /-- R288, a step: A trap or NOTIFY record is accepted into the die's Plaza mailbox. -/
  | trapRecordDelivery (t : Nat)
  /-- R292, a step: Resolution that restores the frame, acts on replay entries and resumes the task. -/
  | resume (r : Resolution)
  /-- R295, a step: Resolution that lets the task or halted tile issue exactly one bundle. -/
  | step (r : Resolution)
  /-- R292, a step: Resolution that ends the task as exit does. -/
  | endTask (r : Resolution)
  /-- R292, a step: Resolution that ends the launch with the trap's code. -/
  | endLaunch (r : Resolution)
  /-- R289, a step: Adds a frame address to the die's frame pool, setting FPOVF when full. -/
  | fppush (w : BlockAccess)
  /-- R289, a step: Reading the pool overflow flag returns and clears it. -/
  | fpovf (w : BlockAccess)
  /-- R289, a step: A 64-byte read returns and removes the oldest mailbox record. -/
  | mbpop (w : BlockAccess)
  /-- R279, a step: Writing a request descriptor address starts pre-emption of a cohort, launch or region. -/
  | preempt (w : BlockAccess)
  /-- R289, a step: Writing a request descriptor address asks for the listed save areas to be restored. -/
  | restore (w : BlockAccess)
  /-- R290, a step: Reading a core's panel access status register returns and clears the first refused access. -/
  | panelAccessStatus (core : Nat)
  /-- R289, a step: Write to a configuration register with no behaviour of its own, subject to its access and width checks. -/
  | registerWrite (w : CfgWrite)
  /-- R70, a step: A pre-emption request reaching a tile stops issue and runs out its execute queue. -/
  | preemptionHalt (t : Nat)
  /-- R297, a step: A halted cohort's state is saved to a context save area and the descriptor updated. -/
  | cohortSave (c : Nat)
  /-- R280, a step: A saved cohort whose restore was asked is restored onto its own logical quads once they are free. -/
  | cohortRestore (c : Nat)
  /-- R305, a step: A hot quad's team is halted and moved to a cool spare quad. -/
  | thermalMigration (q : Nat)
  /-- R21, a step: The remap entry is rewritten and held messages and tiles resume on the new quad. -/
  | migrationComplete (q : Nat)
  /-- R328, a step: Every 10 us each quad sensor is sampled and thermal limits are applied. -/
  | sensorSample (p : Nat) (r : SensorReading)
  /-- R324, a step: Input below 11.0 V moves every quad to the lowest point within 20 us. -/
  | inputUndervoltage (mv : Nat)
  /-- R324, a step: Input below 10.5 V for 1 ms removes the compute rails and resets the module. -/
  | undervoltageReset (mv : Nat)
  /-- R324, a step: Every 100 us input power is measured and boost or operating points are lowered over the cap. -/
  | powerSample (w : Nat)
  /-- R327, a step: A request for P0 or P1 files a cluster boost claim granted oldest first, two per die. -/
  | boostClaim (c : Nat)
  /-- R327, a step: Each 10 us interval begun above P2 takes one permit, starting a fall at zero. -/
  | boostPermitInterval (c : Nat)
  /-- R327, a step: 20 us after falling to P1 at zero permits the cluster drops to P2 and releases its grant. -/
  | boostFall (c : Nat)
  /-- R327, a step: Each full 40 us at or below P2 refills one permit. -/
  | boostPermitRefill (c : Nat)
  /-- R326, a step: A quad's change of physical operating point completes within 5 us. -/
  | operatingPointChange (q : Nat)
  /-- R340, a step: A VH droop of 30 mV slows issue and may write a droop record. -/
  | droop (q depth dur : Nat)
  /-- R278, a step: A free token passing on the die ring goes to the oldest claim. -/
  | tokenCirculation (die : Nat)
  /-- R194, a step: 2 us without an mma ends a cluster's burst and returns its tokens. -/
  | burstEnd (c : Nat)
  /-- R260, a step: A 128-byte card write to a submission slot is accepted, retried or discarded. -/
  | cardSubmission (w : SlotWrite)
  /-- R310, a step: A Plaza core's 128-byte store submits a card and records the outcome. -/
  | plazaSubmission (core : Nat) (w : SlotWrite)
  /-- R310, a step: Reading a core's submission status returns and clears the latest outcome. -/
  | submissionStatus (core : Nat)
  /-- R266, a step: The next queued card is given a launch number and checked, then admitted or refused. -/
  | admission (page slot : Nat)
  /-- R268, a step: Free quads of a cluster are offered to the launch of highest effective level. -/
  | cohortDispatch (c : Nat)
  /-- R270, a step: An idle cluster of an exhausted die steals a ticket from the die with most left. -/
  | ticketSteal (c l : Nat)
  /-- R272, a step: A participating BATCH tile claims its next chunk of records. -/
  | batchChunkClaim (t : Nat)
  /-- R43, a step: A cohort whose tasks have exited and stores reached panel scope retires, setting its scoreboard bit. -/
  | cohortRetirement (c : Nat)
  /-- R268, a step: Each 2 ms of waiting raises a launch below level 40 one effective level. -/
  | ageing (l : Nat)
  /-- R265, a step: The launch's completion record is written and its interrupt sent. -/
  | launchCompletion (l : Nat)
  /-- R283, a step: The launch watchdog reaching its deadline ends the launch. -/
  | watchdog (l : Nat)
  /-- R307, a step: A host request to BAR4 reaches the home controller of edge memory. -/
  | hostBar4Access (r : Bar4Req)
  /-- R256, a step: A host back-invalidation response lets the home perform the held store. -/
  | backInvalidationResponse (pa : Nat)
  /-- R255, a step: A zero-length flushing read completes, making earlier host stores performed at .sy. -/
  | flushingReadCompletion (port : Nat)
  /-- R314, a step: A span port that loses a lane retrains at 4 lanes or is lost, by the lanes it has left; or a module is lost,
whatever that number. -/
  | spanLaneLoss (p : SpanLoss) (lanes : Nat)
  /-- R314, a step: A retrained span port resumes with retransmission of cut-off flits. -/
  | spanRetrainComplete (p : Nat)
  /-- R318, a step: A die link exceeding its error threshold closes and sheds to fewer lanes. -/
  | laneShed (link : Nat) (bad : BitVec 16)
  /-- R318, a step: A shed link reopens at the narrower width within 1.5 us. -/
  | linkReopen (link : Nat)
  /-- R320, a step: 12 V in range releases the management controller, which runs the boot sequence. -/
  | powerOn (r : BootReport)
  /-- R321, a step: Gwemon confirms health, making its slot active and raising the minimum security version. -/
  | healthConfirmation
  /-- R321, a step: No health confirmation within 120 s resets the module and boots the other slot. -/
  | healthWatchdog
  /-- R322, a step: Gwemon commits the next key index and returns a signed attestation report. -/
  | attestationReport (nonce : BitVec 256)
  /-- R337, a step: Writing T sends the sampling pulse to every cluster. -/
  | pulse (core : Nat) (tick : DWord)
  /-- R337, a step: A tile latches run state, PC and GTID when cr.cycle equals T or on late arrival. -/
  | sampleLatch (t : Nat)
  /-- R338, a step: A cluster writes a KIND 1 snapshot record of its tiles' runs to the die ring. -/
  | snapshotRecord (c : Nat)
  /-- R339, a step: When a tile's sample gap count expires it marks the next issued bundle. -/
  | taggedSampleMark (t : Nat)
  /-- R339, a step: A marked bundle's completion writes a KIND 3 record to the session ring. -/
  | taggedSampleRecord (t : Nat) (c : SampleCounts)
  /-- R332, a step: Writing OPEN = 1 clears counters, totals and ring indices and opens the session. -/
  | sessionOpen (tag : Nat)
  /-- R332, a step: Writing OPEN = 0 stops all counting. -/
  | sessionClose (tag : Nat)
  /-- R336, a step: A 32-bit low-half read of TOTAL latches the high half into the core's SHADOW. -/
  | totalLowRead (core tag i : Nat)
  /-- R336, a step: A 32-bit high-half read returns the latched half when SHADOW matches and clears VALID. -/
  | totalHighRead (core tag i : Nat)
  /-- R330, a step: Reading a ring's LOST count returns and clears it. -/
  | lost (r : RingName)
  /-- R341, a step: At least every 60 s the lifetime records are committed to non-volatile storage. -/
  | lifetimeCommit
  /-- R302, a step: An invalidation of a tenant's translations completes once old-entry accesses are performed. -/
  | gatewayInvalidation (die tenant : Nat) (range : Option (Nat × Nat))
  /-- R301, a step: A gateway walk of the range and page tables completes and fills the TLB or raises XLATE. -/
  | pageWalk (die tag : Nat) (va : Nat)
  /-- R283, a step: System software ends a launch, which then completes with status ABORTED (0x26). -/
  | launchAbort (l : Nat)
  /-- R311, a step: Unmasking an MSI-X entry whose pending bit is set sends the held completion message. -/
  | msiXUnmask (port vec : Nat)
  /-- R324, a step: The 12 V input returns above 11.0 V after an undervoltage that did not reset the module. -/
  | inputRecovery (mv : Nat)
  /-- R326, a step: System software sets a cohort's virtual state, or the hypervisor remaps a virtual state, and the tiles request the mapped physical point. -/
  | virtualStateSet (r : StateRequest)
  /-- R330, a step: Setting an ENABLE bit turns a die ring's source on, and turning on the first source of an idle ring zeroes WIDX, RIDX, LOST and SEQ. -/
  | ringSourceEnable (die : Nat) (val : DWord)
  /-- R319, a step: A new firmware image is written into the inactive slot, or into slot A through the recovery management window. -/
  | firmwareUpdate (slotA : Bool) (img : Image)
  /-- R226, a step: A send arrives at an edge streamer, which appends the data for a registered producer or drops it and sends ENGINE_FAIL STREAM_UNKNOWN. -/
  | streamerSendArrival (m : Nat)
  deriving DecidableEq, Repr

/-- A bundle (R71, R74): paired (hold bits HA and HB, A body, X body), a lone A instruction or a lone X instruction,
each lone one with its extension immediate. -/
inductive Bundle where
  | paired (ha hb : Bool) (a x : Instr)
  | loneA (a : Instr) (ext : Word)
  | loneX (x : Instr) (ext : Word)
  deriving DecidableEq, Repr

end Sys2Proof
end

