-- ==== Sys2Proof/Machine/Checks.lean ====
section
/-! DEFINITION. The static decode checks of Table 5-10 (R75-R82, R86, R215), as decidable functions of one instruction,
and of one bundle. They look at field values only; the mode checks of R66 are made on the execute side. -/

namespace Sys2Proof.Machine

/-- What an operand field of an X instruction may name (Table 5-4). `vecAcc` is a vector position that also names acc,
`vreg` the count of `vredq.f32` (R175), `imm` the IMM7 of format XI. -/
inductive OperandKind where
  | none | scalar | vec | vecAcc | vreg | long | imm
  deriving DecidableEq, Repr

/-- The operand positions of an X instruction: destination, A and B. -/
structure XShape where
  d : OperandKind
  a : OperandKind
  b : OperandKind
  deriving DecidableEq, Repr

/-- Code `c` is legal in a source position of kind `k`; code 62 is legal here and checked against the bundle by
`extOk` (R74, R76). -/
def srcOk (k : OperandKind) (c : BitVec 6) : Bool :=
  let n := c.toNat
  match k with
  | .none | .imm => true
  | .scalar => n < 51 || 52 < n
  | .vec => n < 16 || n == 48 || n == 49 || n == 62
  | .vecAcc => n < 16 || n == 48 || n == 49 || n == 62 || n == 63
  | .vreg => n < 16 || n == 62
  | .long => n < 8

/-- Code `c` is legal in a destination position of kind `k` (R76). -/
def dstOk (k : OperandKind) (c : BitVec 6) : Bool :=
  let n := c.toNat
  match k with
  | .scalar => n < 48 || n == 50 || n == 51 || n == 52 || n == 63
  | .vec => n < 16 || n == 51
  | .long => n < 8
  | _ => true

/-- A scalar type as R102 compares them: floating-point (fraction bits, exponent of the largest finite value, exponent
of the smallest subnormal, largest significand in units of its last place), signed or unsigned integer (magnitude
bits). -/
inductive TypeShape where
  | float (frac : Nat) (emax : Int) (emin : Int) (topFrac : Nat)
  | signed (mag : Nat)
  | unsigned (mag : Nat)
  deriving DecidableEq, Repr

/-- The shapes of Tables 7-1 and 7-2 by type code; `topFrac` is the fraction of the largest finite value. -/
def typeShape (code : Nat) : TypeShape :=
  match code with
  | 0 => .float 23 127 (-149) (2 ^ 23 - 1)
  | 1 => .float 10 127 (-136) (2 ^ 10 - 1)
  | 2 => .float 7 127 (-133) (2 ^ 7 - 1)
  | 3 => .float 10 15 (-24) (2 ^ 10 - 1)
  | 4 => .float 2 15 (-16) 3
  | 5 => .float 3 8 (-9) 6
  | 6 => .float 2 4 (-4) 3
  | 7 => .float 3 2 (-3) 7
  | 8 => .float 1 2 (-1) 1
  | 9 => .signed 7
  | 10 => .unsigned 8
  | 11 => .signed 15
  | 12 => .unsigned 16
  | 13 => .signed 31
  | _ => .unsigned 32

/-- The largest finite value of the first shape exceeds that of the second. -/
def largerMax (f1 : Nat) (e1 : Int) (t1 : Nat) (f2 : Nat) (e2 : Int) (t2 : Nat) : Bool :=
  e2 < e1 || (e1 == e2 && (2 ^ f2 + t2) * 2 ^ f1 < (2 ^ f1 + t1) * 2 ^ f2)

/-- R102: some finite value of type `src` is not a value of type `dst`. -/
def narrowing (src dst : Nat) : Bool :=
  match typeShape src, typeShape dst with
  | .float f1 e1 m1 t1, .float f2 e2 m2 t2 => f2 < f1 || largerMax f1 e1 t1 f2 e2 t2 || m1 < m2
  | .float .., _ => true
  | .signed m, .float f e _ _ => f + 1 < m || e < m
  | .unsigned m, .float f e _ _ => f + 1 < m || e + 1 < m
  | .signed m, .signed m2 => m2 < m
  | .signed _, .unsigned _ => true
  | .unsigned m, .signed m2 => m2 < m
  | .unsigned m, .unsigned m2 => m2 < m

/-- R78: the legal RM and SRC of a conversion to `dst`. -/
def cvtOk (dst : Nat) (rm : BitVec 3) (src : BitVec 4) : Bool :=
  dst < 15 && src.toNat != 15 && src.toNat != dst && rm.toNat != 7 && (rm.toNat != 5 || narrowing src.toNat dst)

/-- Whether a lone A instruction uses its extension immediate, and how (R74). -/
inductive ExtUse where
  /-- Added to the immediate field when the instruction acts. -/
  | added
  /-- Added to the immediate field when the bundle is decoded (format AS but for the branch-like forms, R215). -/
  | folded
  /-- A hint: ignored. -/
  | ignored
  /-- Must be zero. -/
  | zero
  deriving DecidableEq, Repr

/-- The operand positions of each X instruction (R159, R162, R163, R165, R169-R177). -/
def xShape (i : Instr) : XShape :=
  match i with
  | .sel _ => ⟨.scalar, .scalar, .scalar⟩
  | .add _ => ⟨.scalar, .scalar, .scalar⟩
  | .sub _ => ⟨.scalar, .scalar, .scalar⟩
  | .addsI32 _ => ⟨.scalar, .scalar, .scalar⟩
  | .addsN32 _ => ⟨.scalar, .scalar, .scalar⟩
  | .subsI32 _ => ⟨.scalar, .scalar, .scalar⟩
  | .subsN32 _ => ⟨.scalar, .scalar, .scalar⟩
  | .mul _ => ⟨.scalar, .scalar, .scalar⟩
  | .mulhI32 _ => ⟨.scalar, .scalar, .scalar⟩
  | .mulhN32 _ => ⟨.scalar, .scalar, .scalar⟩
  | .divI32 _ => ⟨.scalar, .scalar, .scalar⟩
  | .divN32 _ => ⟨.scalar, .scalar, .scalar⟩
  | .remI32 _ => ⟨.scalar, .scalar, .scalar⟩
  | .remN32 _ => ⟨.scalar, .scalar, .scalar⟩
  | .minI32 _ => ⟨.scalar, .scalar, .scalar⟩
  | .minN32 _ => ⟨.scalar, .scalar, .scalar⟩
  | .maxI32 _ => ⟨.scalar, .scalar, .scalar⟩
  | .maxN32 _ => ⟨.scalar, .scalar, .scalar⟩
  | .and _ => ⟨.scalar, .scalar, .scalar⟩
  | .or _ => ⟨.scalar, .scalar, .scalar⟩
  | .xor _ => ⟨.scalar, .scalar, .scalar⟩
  | .andn _ => ⟨.scalar, .scalar, .scalar⟩
  | .shl _ => ⟨.scalar, .scalar, .scalar⟩
  | .shr _ => ⟨.scalar, .scalar, .scalar⟩
  | .sra _ => ⟨.scalar, .scalar, .scalar⟩
  | .rol _ => ⟨.scalar, .scalar, .scalar⟩
  | .clz _ => ⟨.scalar, .scalar, .none⟩
  | .ctz _ => ⟨.scalar, .scalar, .none⟩
  | .popc _ => ⟨.scalar, .scalar, .none⟩
  | .bfx _ => ⟨.scalar, .scalar, .scalar⟩
  | .bfi _ => ⟨.scalar, .scalar, .scalar⟩
  | .addc _ => ⟨.scalar, .scalar, .scalar⟩
  | .subc _ => ⟨.scalar, .scalar, .scalar⟩
  | .addi _ => ⟨.scalar, .scalar, .imm⟩
  | .andi _ => ⟨.scalar, .scalar, .imm⟩
  | .ori _ => ⟨.scalar, .scalar, .imm⟩
  | .xori _ => ⟨.scalar, .scalar, .imm⟩
  | .shli _ => ⟨.scalar, .scalar, .imm⟩
  | .shri _ => ⟨.scalar, .scalar, .imm⟩
  | .srai _ => ⟨.scalar, .scalar, .imm⟩
  | .li _ => ⟨.scalar, .none, .none⟩
  | .cmpI32 _ => ⟨.none, .scalar, .scalar⟩
  | .cmpN32 _ => ⟨.none, .scalar, .scalar⟩
  | .cmpF32 _ => ⟨.none, .scalar, .scalar⟩
  | .addF32 _ => ⟨.scalar, .scalar, .scalar⟩
  | .subF32 _ => ⟨.scalar, .scalar, .scalar⟩
  | .mulF32 _ => ⟨.scalar, .scalar, .scalar⟩
  | .fmaF32 _ => ⟨.scalar, .scalar, .scalar⟩
  | .fmsF32 _ => ⟨.scalar, .scalar, .scalar⟩
  | .fnmaF32 _ => ⟨.scalar, .scalar, .scalar⟩
  | .fnmsF32 _ => ⟨.scalar, .scalar, .scalar⟩
  | .minF32 _ => ⟨.scalar, .scalar, .scalar⟩
  | .maxF32 _ => ⟨.scalar, .scalar, .scalar⟩
  | .absF32 _ => ⟨.scalar, .scalar, .none⟩
  | .negF32 _ => ⟨.scalar, .scalar, .none⟩
  | .rcpF32 _ => ⟨.scalar, .scalar, .none⟩
  | .sqrtF32 _ => ⟨.scalar, .scalar, .none⟩
  | .rsqF32 _ => ⟨.scalar, .scalar, .none⟩
  | .ex2F32 _ => ⟨.scalar, .scalar, .none⟩
  | .lg2F32 _ => ⟨.scalar, .scalar, .none⟩
  | .tanhF32 _ => ⟨.scalar, .scalar, .none⟩
  | .cvt _ => ⟨.scalar, .scalar, .none⟩
  | .vaddF32 _ => ⟨.vec, .vec, .vec⟩
  | .vsubF32 _ => ⟨.vec, .vec, .vec⟩
  | .vmulF32 _ => ⟨.vec, .vec, .vec⟩
  | .vfmaF32 _ => ⟨.vec, .vec, .vec⟩
  | .vminF32 _ => ⟨.vec, .vec, .vec⟩
  | .vmaxF32 _ => ⟨.vec, .vec, .vec⟩
  | .vaddI32 _ => ⟨.vec, .vec, .vec⟩
  | .vsubI32 _ => ⟨.vec, .vec, .vec⟩
  | .vmulI32 _ => ⟨.vec, .vec, .vec⟩
  | .vand _ => ⟨.vec, .vec, .vec⟩
  | .vor _ => ⟨.vec, .vec, .vec⟩
  | .vxor _ => ⟨.vec, .vec, .vec⟩
  | .vshl _ => ⟨.vec, .vec, .vec⟩
  | .vshr _ => ⟨.vec, .vec, .vec⟩
  | .vsra _ => ⟨.vec, .vec, .vec⟩
  | .vperm _ => ⟨.vec, .vec, .vec⟩
  | .vbcast _ => ⟨.vec, .vecAcc, .none⟩
  | .vext _ => ⟨.none, .vec, .vec⟩
  | .vins _ => ⟨.vec, .vecAcc, .vec⟩
  | .vredAddF32 _ => ⟨.none, .vec, .none⟩
  | .vredMaxF32 _ => ⟨.none, .vec, .none⟩
  | .vredAddI32 _ => ⟨.none, .vec, .none⟩
  | .vredqF32 _ => ⟨.none, .none, .vreg⟩
  | .vcvt _ => ⟨.vec, .vec, .none⟩
  | .waddF32 _ => ⟨.long, .long, .long⟩
  | .wsubF32 _ => ⟨.long, .long, .long⟩
  | .wmulF32 _ => ⟨.long, .long, .long⟩
  | .wfmaF32 _ => ⟨.long, .long, .long⟩
  | .wminF32 _ => ⟨.long, .long, .long⟩
  | .wmaxF32 _ => ⟨.long, .long, .long⟩
  | .wbcastF32 _ => ⟨.long, .scalar, .none⟩
  | .wins _ => ⟨.long, .scalar, .scalar⟩
  | .wext _ => ⟨.scalar, .long, .scalar⟩
  | .wredAddF32 _ => ⟨.scalar, .long, .none⟩
  | .wredMaxF32 _ => ⟨.scalar, .long, .none⟩
  | _ => ⟨.none, .none, .none⟩

/-- The A operand code of an X instruction, where it has one. -/
def codeA (i : Instr) : Option (BitVec 6) :=
  match i with
  | .sel f => some f.a
  | .add f => some f.a
  | .sub f => some f.a
  | .addsI32 f => some f.a
  | .addsN32 f => some f.a
  | .subsI32 f => some f.a
  | .subsN32 f => some f.a
  | .mul f => some f.a
  | .mulhI32 f => some f.a
  | .mulhN32 f => some f.a
  | .divI32 f => some f.a
  | .divN32 f => some f.a
  | .remI32 f => some f.a
  | .remN32 f => some f.a
  | .minI32 f => some f.a
  | .minN32 f => some f.a
  | .maxI32 f => some f.a
  | .maxN32 f => some f.a
  | .and f => some f.a
  | .or f => some f.a
  | .xor f => some f.a
  | .andn f => some f.a
  | .shl f => some f.a
  | .shr f => some f.a
  | .sra f => some f.a
  | .rol f => some f.a
  | .clz f => some f.a
  | .ctz f => some f.a
  | .popc f => some f.a
  | .bfx f => some f.a
  | .bfi f => some f.a
  | .addc f => some f.a
  | .subc f => some f.a
  | .addi f => some f.a
  | .andi f => some f.a
  | .ori f => some f.a
  | .xori f => some f.a
  | .shli f => some f.a
  | .shri f => some f.a
  | .srai f => some f.a
  | .cmpI32 f => some f.a
  | .cmpN32 f => some f.a
  | .cmpF32 f => some f.a
  | .addF32 f => some f.a
  | .subF32 f => some f.a
  | .mulF32 f => some f.a
  | .fmaF32 f => some f.a
  | .fmsF32 f => some f.a
  | .fnmaF32 f => some f.a
  | .fnmsF32 f => some f.a
  | .minF32 f => some f.a
  | .maxF32 f => some f.a
  | .absF32 f => some f.a
  | .negF32 f => some f.a
  | .rcpF32 f => some f.a
  | .sqrtF32 f => some f.a
  | .rsqF32 f => some f.a
  | .ex2F32 f => some f.a
  | .lg2F32 f => some f.a
  | .tanhF32 f => some f.a
  | .cvt f => some f.a
  | .vaddF32 f => some f.a
  | .vsubF32 f => some f.a
  | .vmulF32 f => some f.a
  | .vfmaF32 f => some f.a
  | .vminF32 f => some f.a
  | .vmaxF32 f => some f.a
  | .vaddI32 f => some f.a
  | .vsubI32 f => some f.a
  | .vmulI32 f => some f.a
  | .vand f => some f.a
  | .vor f => some f.a
  | .vxor f => some f.a
  | .vshl f => some f.a
  | .vshr f => some f.a
  | .vsra f => some f.a
  | .vperm f => some f.a
  | .vbcast f => some f.a
  | .vext f => some f.a
  | .vins f => some f.a
  | .vredAddF32 f => some f.a
  | .vredMaxF32 f => some f.a
  | .vredAddI32 f => some f.a
  | .vcvt f => some f.a
  | .waddF32 f => some f.a
  | .wsubF32 f => some f.a
  | .wmulF32 f => some f.a
  | .wfmaF32 f => some f.a
  | .wminF32 f => some f.a
  | .wmaxF32 f => some f.a
  | .wbcastF32 f => some f.a
  | .wins f => some f.a
  | .wext f => some f.a
  | .wredAddF32 f => some f.a
  | .wredMaxF32 f => some f.a
  | _ => none

/-- The B operand code of an X instruction, where it has one in a field. -/
def codeB (i : Instr) : Option (BitVec 6) :=
  match i with
  | .sel f => some f.b
  | .add f => some f.b
  | .sub f => some f.b
  | .addsI32 f => some f.b
  | .addsN32 f => some f.b
  | .subsI32 f => some f.b
  | .subsN32 f => some f.b
  | .mul f => some f.b
  | .mulhI32 f => some f.b
  | .mulhN32 f => some f.b
  | .divI32 f => some f.b
  | .divN32 f => some f.b
  | .remI32 f => some f.b
  | .remN32 f => some f.b
  | .minI32 f => some f.b
  | .minN32 f => some f.b
  | .maxI32 f => some f.b
  | .maxN32 f => some f.b
  | .and f => some f.b
  | .or f => some f.b
  | .xor f => some f.b
  | .andn f => some f.b
  | .shl f => some f.b
  | .shr f => some f.b
  | .sra f => some f.b
  | .rol f => some f.b
  | .bfx f => some f.b
  | .bfi f => some f.b
  | .addc f => some f.b
  | .subc f => some f.b
  | .cmpI32 f => some f.b
  | .cmpN32 f => some f.b
  | .cmpF32 f => some f.b
  | .addF32 f => some f.b
  | .subF32 f => some f.b
  | .mulF32 f => some f.b
  | .fmaF32 f => some f.b
  | .fmsF32 f => some f.b
  | .fnmaF32 f => some f.b
  | .fnmsF32 f => some f.b
  | .minF32 f => some f.b
  | .maxF32 f => some f.b
  | .vaddF32 f => some f.b
  | .vsubF32 f => some f.b
  | .vmulF32 f => some f.b
  | .vfmaF32 f => some f.b
  | .vminF32 f => some f.b
  | .vmaxF32 f => some f.b
  | .vaddI32 f => some f.b
  | .vsubI32 f => some f.b
  | .vmulI32 f => some f.b
  | .vand f => some f.b
  | .vor f => some f.b
  | .vxor f => some f.b
  | .vshl f => some f.b
  | .vshr f => some f.b
  | .vsra f => some f.b
  | .vperm f => some f.b
  | .vext f => some f.b
  | .vins f => some f.b
  | .vredqF32 f => some f.b
  | .waddF32 f => some f.b
  | .wsubF32 f => some f.b
  | .wmulF32 f => some f.b
  | .wfmaF32 f => some f.b
  | .wminF32 f => some f.b
  | .wmaxF32 f => some f.b
  | .wins f => some f.b
  | .wext f => some f.b
  | _ => none

/-- HA is legal: the instruction has an operand A that a latch may replace (R77, R175, R177). -/
def haOk (i : Instr) : Bool :=
  match (xShape i).a with
  | .scalar | .vec | .vecAcc => true
  | _ => false

/-- HB is legal: the instruction has an operand B in a field that a latch may replace (R77, R175, R177). -/
def hbOk (i : Instr) : Bool :=
  match (xShape i).b with
  | .scalar | .vec | .vecAcc | .vreg => true
  | _ => false

/-- Some source field holds code 62, so the instruction takes EXT (R74). -/
def usesExt (i : Instr) : Bool :=
  codeA i == some 62#6 || codeB i == some 62#6

/-- A hint of the X-class map, whose lone word 1 is ignored (R74). -/
def isHintX (i : Instr) : Bool :=
  match i with
  | .hintX _ => true
  | _ => false

/-- The fields of an X operand position are legal. -/
def fieldsOk (i : Instr) (d a b : BitVec 6) : Bool :=
  dstOk (xShape i).d d && srcOk (xShape i).a a && srcOk (xShape i).b b

/-- A load or store DATA field that names one of a1-a15 at width 256, or lies beyond the codes of its direction
(R81). -/
def dataOk (w : BitVec 3) (d : BitVec 5) (top : Nat) : Bool :=
  d.toNat ≤ top && (w.toNat != 4 || d.toNat == 0 || 16 ≤ d.toNat)


/-- The bits of a hint that make it a `pref` of the table's form (R146), which has a constructor of its own. -/
def prefPattern (f : FHintA) : Bool :=
  f.o.toNat < 2 && f.x.extractLsb' 7 8 == 0x20#8 && f.x.extractLsb' 19 3 == 0#3

/-- The checks of Table 5-10 that one instruction body passes or fails. A step of the table has no body; its
arguments are checked by the step. -/
def staticOk (i : Instr) : Bool :=
  match i with
  | .hintA f => !(prefPattern f)
  | .loop f => f.e != 0#9 && (f.r == 0#4 || f.n == 0#8)
  | .ldSp f => f.w.toNat ≤ 4 && f.r != 7#3 && dataOk f.w f.d 17
  | .ldPr f => f.w.toNat ≤ 4 && f.r != 7#3 && dataOk f.w f.d 17
  | .ldQl f => f.w.toNat ≤ 4 && f.r != 7#3 && dataOk f.w f.d 17
  | .ldGl f => f.w.toNat ≤ 4 && f.r != 7#3 && dataOk f.w f.d 17
  | .stSp f => f.w.toNat ≤ 4 && f.r != 7#3 && dataOk f.w f.d 16
  | .stPr f => f.w.toNat ≤ 4 && f.r != 7#3 && dataOk f.w f.d 16
  | .stQl f => f.w.toNat ≤ 4 && f.r != 7#3 && dataOk f.w f.d 16
  | .stGl f => f.w.toNat ≤ 4 && f.r != 7#3 && dataOk f.w f.d 16
  | .atomSp f => f.p.toNat ≤ 11 && f.r != 7#3 && f.e != 3#2 && (f.w == 0#1 || !(f.p == 8#4 || f.p == 9#4))
  | .atomPr f => f.p.toNat ≤ 11 && f.r != 7#3 && f.e != 3#2 && (f.w == 0#1 || !(f.p == 8#4 || f.p == 9#4))
  | .atomGl f => f.p.toNat ≤ 11 && f.r != 7#3 && f.e != 3#2 && (f.w == 0#1 || !(f.p == 8#4 || f.p == 9#4))
  | .casSp f => f.r != 7#3 && f.e != 3#2
  | .casPr f => f.r != 7#3 && f.e != 3#2
  | .casGl f => f.r != 7#3 && f.e != 3#2
  | .tdef f => 1 ≤ f.b.toNat && f.b.toNat ≤ 15 && f.s.toNat ≤ 3
  | .mmz f => f.d.toNat ≤ 3
  | .mmaR f => f.l.toNat ≤ 4
  | .mld f => f.d.toNat ≤ 3
  | .mldBl f => f.p.toNat ≤ 3 && f.k.toNat ≤ 15
  | .mst f => f.s.toNat ≤ 3 && f.r != 7#3
  | .cpyM f => 1 ≤ f.r.toNat && f.r.toNat ≤ 15
  | .cpyMma f => f.n.toNat ≤ 2
  | .strm f => 1 ≤ f.s.toNat && f.s.toNat ≤ 15
  | .chain f => f.f == 1#1 || f.t == 0#6
  | .ksend f => 1 ≤ f.k.toNat && f.k.toNat ≤ 15 && f.r.toNat ≤ 15
  | .kbinApp f => 1 ≤ f.n.toNat && f.n.toNat ≤ 32
  | .coll f => 1 ≤ f.r.toNat && f.r.toNat ≤ 15
  | .collRed f => 1 ≤ f.r.toNat && f.r.toNat ≤ 15
  | .engK f => f.n.toNat ≤ 3 && f.s.toNat ≤ 15
  | .engGo f => 1 ≤ f.d.toNat && f.d.toNat ≤ 15
  | .send f => f.n.toNat ≤ 256 && f.n.toNat % 4 == 0
  | .fence f => f.s != 0#3 && f.s != 7#3
  | .ldvS f => 1 ≤ f.b.toNat && f.b.toNat ≤ 4 && 1 ≤ f.d.toNat && f.d.toNat ≤ 4
  | .rdcr f => f.n.toNat ≤ 6
  | .wrcr f => 2 ≤ f.n.toNat && f.n.toNat ≤ 5
  | .gset f => f.s != 0#3
  | .sel f => fieldsOk i f.d f.a f.b
  | .add f => fieldsOk i f.d f.a f.b
  | .sub f => fieldsOk i f.d f.a f.b
  | .addsI32 f => fieldsOk i f.d f.a f.b
  | .addsN32 f => fieldsOk i f.d f.a f.b
  | .subsI32 f => fieldsOk i f.d f.a f.b
  | .subsN32 f => fieldsOk i f.d f.a f.b
  | .mul f => fieldsOk i f.d f.a f.b
  | .mulhI32 f => fieldsOk i f.d f.a f.b
  | .mulhN32 f => fieldsOk i f.d f.a f.b
  | .divI32 f => fieldsOk i f.d f.a f.b
  | .divN32 f => fieldsOk i f.d f.a f.b
  | .remI32 f => fieldsOk i f.d f.a f.b
  | .remN32 f => fieldsOk i f.d f.a f.b
  | .minI32 f => fieldsOk i f.d f.a f.b
  | .minN32 f => fieldsOk i f.d f.a f.b
  | .maxI32 f => fieldsOk i f.d f.a f.b
  | .maxN32 f => fieldsOk i f.d f.a f.b
  | .and f => fieldsOk i f.d f.a f.b
  | .or f => fieldsOk i f.d f.a f.b
  | .xor f => fieldsOk i f.d f.a f.b
  | .andn f => fieldsOk i f.d f.a f.b
  | .shl f => fieldsOk i f.d f.a f.b
  | .shr f => fieldsOk i f.d f.a f.b
  | .sra f => fieldsOk i f.d f.a f.b
  | .rol f => fieldsOk i f.d f.a f.b
  | .clz f => fieldsOk i f.d f.a 0#6
  | .ctz f => fieldsOk i f.d f.a 0#6
  | .popc f => fieldsOk i f.d f.a 0#6
  | .bfx f => fieldsOk i f.d f.a f.b
  | .bfi f => fieldsOk i f.d f.a f.b
  | .addc f => fieldsOk i f.d f.a f.b
  | .subc f => fieldsOk i f.d f.a f.b
  | .addi f => fieldsOk i f.d f.a 0#6 && f.a != 62#6
  | .andi f => fieldsOk i f.d f.a 0#6 && f.a != 62#6
  | .ori f => fieldsOk i f.d f.a 0#6 && f.a != 62#6
  | .xori f => fieldsOk i f.d f.a 0#6 && f.a != 62#6
  | .shli f => fieldsOk i f.d f.a 0#6 && f.a != 62#6
  | .shri f => fieldsOk i f.d f.a 0#6 && f.a != 62#6
  | .srai f => fieldsOk i f.d f.a 0#6 && f.a != 62#6
  | .li f => dstOk .scalar f.d
  | .cmpI32 f => f.c.toNat ≤ 5 && fieldsOk i 0#6 f.a f.b
  | .cmpN32 f => f.c.toNat ≤ 5 && fieldsOk i 0#6 f.a f.b
  | .cmpF32 f => f.c.toNat ≤ 6 && fieldsOk i 0#6 f.a f.b
  | .addF32 f => fieldsOk i f.d f.a f.b
  | .subF32 f => fieldsOk i f.d f.a f.b
  | .mulF32 f => fieldsOk i f.d f.a f.b
  | .fmaF32 f => fieldsOk i f.d f.a f.b
  | .fmsF32 f => fieldsOk i f.d f.a f.b
  | .fnmaF32 f => fieldsOk i f.d f.a f.b
  | .fnmsF32 f => fieldsOk i f.d f.a f.b
  | .minF32 f => fieldsOk i f.d f.a f.b
  | .maxF32 f => fieldsOk i f.d f.a f.b
  | .absF32 f => fieldsOk i f.d f.a 0#6
  | .negF32 f => fieldsOk i f.d f.a 0#6
  | .rcpF32 f => fieldsOk i f.d f.a 0#6
  | .sqrtF32 f => fieldsOk i f.d f.a 0#6
  | .rsqF32 f => fieldsOk i f.d f.a 0#6
  | .ex2F32 f => fieldsOk i f.d f.a 0#6
  | .lg2F32 f => fieldsOk i f.d f.a 0#6
  | .tanhF32 f => fieldsOk i f.d f.a 0#6
  | .cvt f => cvtOk f.t.toNat f.r f.s && fieldsOk i f.d f.a 0#6
  | .vaddF32 f => fieldsOk i f.d f.a f.b
  | .vsubF32 f => fieldsOk i f.d f.a f.b
  | .vmulF32 f => fieldsOk i f.d f.a f.b
  | .vfmaF32 f => fieldsOk i f.d f.a f.b
  | .vminF32 f => fieldsOk i f.d f.a f.b
  | .vmaxF32 f => fieldsOk i f.d f.a f.b
  | .vaddI32 f => fieldsOk i f.d f.a f.b
  | .vsubI32 f => fieldsOk i f.d f.a f.b
  | .vmulI32 f => fieldsOk i f.d f.a f.b
  | .vand f => fieldsOk i f.d f.a f.b
  | .vor f => fieldsOk i f.d f.a f.b
  | .vxor f => fieldsOk i f.d f.a f.b
  | .vshl f => fieldsOk i f.d f.a f.b
  | .vshr f => fieldsOk i f.d f.a f.b
  | .vsra f => fieldsOk i f.d f.a f.b
  | .vperm f => fieldsOk i f.d f.a f.b
  | .vbcast f => fieldsOk i f.d f.a 0#6
  | .vext f => fieldsOk i 0#6 f.a f.b
  | .vins f => fieldsOk i f.d f.a f.b
  | .vredAddF32 f => fieldsOk i 0#6 f.a 0#6
  | .vredMaxF32 f => fieldsOk i 0#6 f.a 0#6
  | .vredAddI32 f => fieldsOk i 0#6 f.a 0#6
  | .vredqF32 f => fieldsOk i 0#6 0#6 f.b && (if f.m == 1#1 then f.a == 0#6 else f.a == 48#6 || f.a == 49#6)
  | .vcvt f => cvtOk 0 f.r f.s && fieldsOk i f.d f.a 0#6
  | .waddF32 f => fieldsOk i f.d f.a f.b
  | .wsubF32 f => fieldsOk i f.d f.a f.b
  | .wmulF32 f => fieldsOk i f.d f.a f.b
  | .wfmaF32 f => fieldsOk i f.d f.a f.b
  | .wminF32 f => fieldsOk i f.d f.a f.b
  | .wmaxF32 f => fieldsOk i f.d f.a f.b
  | .wbcastF32 f => fieldsOk i f.d f.a 0#6
  | .wins f => fieldsOk i f.d f.a f.b
  | .wext f => fieldsOk i f.d f.a f.b
  | .wredAddF32 f => fieldsOk i f.d f.a 0#6
  | .wredMaxF32 f => fieldsOk i f.d f.a 0#6
  | _ => true

/-- How a lone A instruction uses word 1 (R74): formats AI, AM, AB, AX, AG, AJ and AL add it, format AS adds it to its
immediate, hints ignore it, and every other format needs zero. -/
def extUse (i : Instr) : ExtUse :=
  match i with
  | .hintA _ | .prefGl _ | .prefQl _ => .ignored
  | .jmp _ | .call _ | .beq _ | .bne _ | .blt _ | .bge _ | .bltu _ | .bgeu _ | .bxz _ | .bxnz _ | .bxlt _ | .bxge _
  | .bgd _ | .bngd _ | .loop _ | .aaddi _ | .aandi _ | .aori _ | .axori _ | .ashli _ | .ashri _ | .asrai _ | .ali _
  | .alh _ | .ldSp _ | .ldPr _ | .ldQl _ | .ldGl _ | .stSp _ | .stPr _ | .stQl _ | .stGl _ | .spawn _ | .forkBr _ =>
    .added
  | .join _ | .jdec _ | .send _ | .sendEos _ | .put _ | .putX _ | .nbarInit _ | .nbarArr _ | .nbarWt _ | .nbarTx _
  | .stv _ | .ldv _ | .ldvS _ | .vrcl _ | .sys _ | .trap _ | .brk _ | .rdcr _ | .wrcr _ => .folded
  | _ => .zero

/-- A lone A instruction may carry this word 1 (R74, R82, R215). A folded immediate has been added already, so what is
left of word 1 is zero. -/
def loneAOk (i : Instr) (ext : Word) : Bool :=
  match extUse i with
  | .ignored => true
  | .added =>
    match i with
    | .loop f => f.r == 0#4 || ext == 0#32
    | _ => true
  | .folded | .zero => ext == 0#32

/-- A lone X instruction may carry this word 1 (R74, R162). -/
def loneXOk (i : Instr) (ext : Word) : Bool :=
  isHintX i || usesExt i || ext == 0#32

/-- The instruction belongs to the A-class map. -/
def isA (i : Instr) : Bool :=
  match i with
  | .nopA | .hintA _ | .jmp _ | .call _ | .jr _ | .callr _ | .beq _ | .bne _ | .blt _ | .bge _ | .bltu _ | .bgeu _
  | .bxz _ | .bxnz _ | .bxlt _ | .bxge _ | .bgd _ | .bngd _ | .loop _ | .aadd _ | .asub _ | .aand _ | .aor _
  | .axor _ | .ashl _ | .ashr _ | .asra _ | .amul _ | .apeer _ | .aaddi _ | .aandi _ | .aori _ | .axori _
  | .ashli _ | .ashri _ | .asrai _ | .ali _ | .alh _ | .ldSp _ | .ldPr _ | .ldQl _ | .ldGl _ | .stSp _ | .stPr _
  | .stQl _ | .stGl _ | .atomSp _ | .atomPr _ | .atomGl _ | .casSp _ | .casPr _ | .casGl _ | .prefGl _ | .prefQl _
  | .tdef _ | .tinv _ | .tinvAll | .mmz _ | .mma _ | .mmaBl _ | .mmaR _ | .mld _ | .mldBl _ | .mst _ | .cpy _
  | .cpyG _ | .cpyS _ | .cpyT _ | .cpyM _ | .cpyMma _ | .strm _ | .drain _ | .chain _ | .ksend _ | .kbinAdd _
  | .kbinApp _ | .kbinOff | .coll _ | .collRed _ | .engK _ | .engGo _ | .spawn _ | .forkBr _ | .join _ | .jdec _
  | .suspend | .yield | .exit | .send _ | .sendEos _ | .put _ | .putX _ | .wfm | .nbarInit _ | .nbarArr _
  | .nbarWt _ | .nbarTx _ | .fence _ | .stv _ | .ldv _ | .ldvS _ | .vrcl _ | .sys _ | .trap _ | .brk _ | .rdcr _
  | .wrcr _ | .halt => true
  | _ => false

/-- The instruction belongs to the X-class map. -/
def isX (i : Instr) : Bool :=
  match i with
  | .nopX | .hintX _ | .vmode _ | .gset _ | .plog _ | .sel _ | .add _ | .sub _ | .addsI32 _ | .addsN32 _
  | .subsI32 _ | .subsN32 _ | .mul _ | .mulhI32 _ | .mulhN32 _ | .divI32 _ | .divN32 _ | .remI32 _ | .remN32 _
  | .minI32 _ | .minN32 _ | .maxI32 _ | .maxN32 _ | .and _ | .or _ | .xor _ | .andn _ | .shl _ | .shr _ | .sra _
  | .rol _ | .clz _ | .ctz _ | .popc _ | .bfx _ | .bfi _ | .addc _ | .subc _ | .addi _ | .andi _ | .ori _
  | .xori _ | .shli _ | .shri _ | .srai _ | .li _ | .cmpI32 _ | .cmpN32 _ | .cmpF32 _ | .addF32 _ | .subF32 _
  | .mulF32 _ | .fmaF32 _ | .fmsF32 _ | .fnmaF32 _ | .fnmsF32 _ | .minF32 _ | .maxF32 _ | .absF32 _ | .negF32 _
  | .rcpF32 _ | .sqrtF32 _ | .rsqF32 _ | .ex2F32 _ | .lg2F32 _ | .tanhF32 _ | .cvt _ | .vaddF32 _ | .vsubF32 _
  | .vmulF32 _ | .vfmaF32 _ | .vminF32 _ | .vmaxF32 _ | .vaddI32 _ | .vsubI32 _ | .vmulI32 _ | .vand _ | .vor _
  | .vxor _ | .vshl _ | .vshr _ | .vsra _ | .vperm _ | .vbcast _ | .vext _ | .vins _ | .vredAddF32 _
  | .vredMaxF32 _ | .vredAddI32 _ | .vredqF32 _ | .vcvt _ | .waddF32 _ | .wsubF32 _ | .wmulF32 _ | .wfmaF32 _
  | .wminF32 _ | .wmaxF32 _ | .wbcastF32 _ | .wins _ | .wext _ | .wredAddF32 _ | .wredMaxF32 _ => true
  | _ => false

/-- The checks of Table 5-10 on a whole bundle: classes, bodies, hold bits and word 1 (R71, R74, R77). -/
def bundleOk (b : Bundle) : Bool :=
  match b with
  | .paired ha hb a x =>
    isA a && isX x && staticOk a && staticOk x && !usesExt x && (!ha || haOk x) && (!hb || hbOk x)
  | .loneA a ext => isA a && staticOk a && loneAOk a ext
  | .loneX x ext => isX x && staticOk x && loneXOk x ext

end Sys2Proof.Machine
end

