-- ==== Sys2Proof/WellFormed.lean ====
section
/-! DEFINITION. Well-formed instructions and bundles: those that pass the static decode checks of R86 (Table 5-10). The
checks themselves stand in Machine/Checks.lean. -/

namespace Sys2Proof

/-- The instruction passes every check of Table 5-10 on its own fields. -/
def Instr.WellFormed (i : Instr) : Prop := Machine.staticOk i = true

/-- The bundle passes every check of Table 5-10 (R86). -/
def Bundle.WellFormed (b : Bundle) : Prop := Machine.bundleOk b = true

end Sys2Proof
end

