-- ==== Sys2Proof/Decode.lean ====
section
/-! DEFINITION. Decoding and encoding (R4, R71-R84). A body is looked up by its major opcode in the A-class or X-class
map, its fixed bits are compared, and the checks of Table 5-10 are made. Reserved encodings are rejected by name. -/

namespace Sys2Proof

/-- Bits `lo + len - 1 : lo` of a word. -/
abbrev field (w : Word) (lo len : Nat) : BitVec len := w.extractLsb' lo len

/-- The A-class map (Table 5-8) and the fixed bits of each format (Table 5-6); field values are not checked here. -/
def decodeABody (w : Word) : Option Instr :=
  match (field w 22 8).toNat with
  | 0x00 => if field w 0 22 == 0#22 then some (.nopA) else none
  | 0x01 => some (.jmp ⟨field w 0 22⟩)
  | 0x02 => some (.call ⟨field w 0 22⟩)
  | 0x03 => if field w 0 14 == 0#14 && field w 18 4 == 0#4 then some (.jr ⟨field w 14 4⟩) else none
  | 0x04 => if field w 0 14 == 0#14 then some (.callr ⟨field w 18 4, field w 14 4⟩) else none
  | 0x08 => if field w 11 3 == 0#3 then some (.beq ⟨field w 18 4, field w 14 4, field w 0 11⟩) else if field w 11 3 == 1#3 then some (.bne ⟨field w 18 4, field w 14 4, field w 0 11⟩) else if field w 11 3 == 2#3 then some (.blt ⟨field w 18 4, field w 14 4, field w 0 11⟩) else if field w 11 3 == 3#3 then some (.bge ⟨field w 18 4, field w 14 4, field w 0 11⟩) else if field w 11 3 == 4#3 then some (.bltu ⟨field w 18 4, field w 14 4, field w 0 11⟩) else if field w 11 3 == 5#3 then some (.bgeu ⟨field w 18 4, field w 14 4, field w 0 11⟩) else none
  | 0x09 => if field w 19 3 == 0#3 then some (.bxz ⟨field w 0 19⟩) else if field w 19 3 == 1#3 then some (.bxnz ⟨field w 0 19⟩) else if field w 19 3 == 2#3 then some (.bxlt ⟨field w 0 19⟩) else if field w 19 3 == 3#3 then some (.bxge ⟨field w 0 19⟩) else none
  | 0x0a => if field w 18 1 == 1#1 then some (.bgd ⟨field w 19 3, field w 0 18⟩) else if field w 18 1 == 0#1 then some (.bngd ⟨field w 19 3, field w 0 18⟩) else none
  | 0x0b => some (.loop ⟨field w 21 1, field w 17 4, field w 9 8, field w 0 9⟩)
  | 0x10 => if field w 0 10 == 0#10 then some (.aadd ⟨field w 18 4, field w 14 4, field w 10 4⟩) else none
  | 0x11 => if field w 0 10 == 0#10 then some (.asub ⟨field w 18 4, field w 14 4, field w 10 4⟩) else none
  | 0x12 => if field w 0 10 == 0#10 then some (.aand ⟨field w 18 4, field w 14 4, field w 10 4⟩) else none
  | 0x13 => if field w 0 10 == 0#10 then some (.aor ⟨field w 18 4, field w 14 4, field w 10 4⟩) else none
  | 0x14 => if field w 0 10 == 0#10 then some (.axor ⟨field w 18 4, field w 14 4, field w 10 4⟩) else none
  | 0x15 => if field w 0 10 == 0#10 then some (.ashl ⟨field w 18 4, field w 14 4, field w 10 4⟩) else none
  | 0x16 => if field w 0 10 == 0#10 then some (.ashr ⟨field w 18 4, field w 14 4, field w 10 4⟩) else none
  | 0x17 => if field w 0 10 == 0#10 then some (.asra ⟨field w 18 4, field w 14 4, field w 10 4⟩) else none
  | 0x18 => if field w 0 10 == 0#10 then some (.amul ⟨field w 18 4, field w 14 4, field w 10 4⟩) else none
  | 0x19 => if field w 0 10 == 0#10 then some (.apeer ⟨field w 18 4, field w 14 4, field w 10 4⟩) else none
  | 0x20 => some (.aaddi ⟨field w 18 4, field w 14 4, field w 0 14⟩)
  | 0x21 => some (.aandi ⟨field w 18 4, field w 14 4, field w 0 14⟩)
  | 0x22 => some (.aori ⟨field w 18 4, field w 14 4, field w 0 14⟩)
  | 0x23 => some (.axori ⟨field w 18 4, field w 14 4, field w 0 14⟩)
  | 0x24 => some (.ashli ⟨field w 18 4, field w 14 4, field w 0 14⟩)
  | 0x25 => some (.ashri ⟨field w 18 4, field w 14 4, field w 0 14⟩)
  | 0x26 => some (.asrai ⟨field w 18 4, field w 14 4, field w 0 14⟩)
  | 0x27 => if field w 14 4 == 0#4 then some (.ali ⟨field w 18 4, field w 0 14⟩) else none
  | 0x28 => some (.alh ⟨field w 18 4, field w 14 4, field w 0 14⟩)
  | 0x30 | 0x31 | 0x32 | 0x33 | 0x34 | 0x35 | 0x36 | 0x37 => if field w 19 3 == 0#3 then some (.ldSp ⟨field w 22 3, field w 15 4, field w 10 5, field w 7 3, field w 0 7⟩) else none
  | 0x38 | 0x39 | 0x3a | 0x3b | 0x3c | 0x3d | 0x3e | 0x3f => if field w 19 3 == 0#3 then some (.ldPr ⟨field w 22 3, field w 15 4, field w 10 5, field w 7 3, field w 0 7⟩) else none
  | 0x40 | 0x41 | 0x42 | 0x43 | 0x44 | 0x45 | 0x46 | 0x47 => if field w 19 3 == 0#3 then some (.ldQl ⟨field w 22 3, field w 15 4, field w 10 5, field w 7 3, field w 0 7⟩) else none
  | 0x48 | 0x49 | 0x4a | 0x4b | 0x4c | 0x4d | 0x4e | 0x4f => if field w 19 3 == 0#3 then some (.ldGl ⟨field w 22 3, field w 15 4, field w 10 5, field w 7 3, field w 0 7⟩) else none
  | 0x50 | 0x51 | 0x52 | 0x53 | 0x54 | 0x55 | 0x56 | 0x57 => some (.stSp ⟨field w 22 3, field w 19 3, field w 15 4, field w 10 5, field w 7 3, field w 0 7⟩)
  | 0x58 | 0x59 | 0x5a | 0x5b | 0x5c | 0x5d | 0x5e | 0x5f => some (.stPr ⟨field w 22 3, field w 19 3, field w 15 4, field w 10 5, field w 7 3, field w 0 7⟩)
  | 0x60 | 0x61 | 0x62 | 0x63 | 0x64 | 0x65 | 0x66 | 0x67 => some (.stQl ⟨field w 22 3, field w 19 3, field w 15 4, field w 10 5, field w 7 3, field w 0 7⟩)
  | 0x68 | 0x69 | 0x6a | 0x6b | 0x6c | 0x6d | 0x6e | 0x6f => some (.stGl ⟨field w 22 3, field w 19 3, field w 15 4, field w 10 5, field w 7 3, field w 0 7⟩)
  | 0x70 => if field w 0 1 == 0#1 then some (.atomSp ⟨field w 19 3, field w 15 4, field w 11 4, field w 7 4, field w 4 3, field w 3 1, field w 1 2⟩) else none
  | 0x71 => if field w 0 1 == 0#1 then some (.atomPr ⟨field w 19 3, field w 15 4, field w 11 4, field w 7 4, field w 4 3, field w 3 1, field w 1 2⟩) else none
  | 0x72 => if field w 0 1 == 0#1 then some (.atomGl ⟨field w 19 3, field w 15 4, field w 11 4, field w 7 4, field w 4 3, field w 3 1, field w 1 2⟩) else none
  | 0x74 => if field w 0 1 == 0#1 then some (.casSp ⟨field w 19 3, field w 15 4, field w 11 4, field w 7 4, field w 4 3, field w 3 1, field w 1 2⟩) else none
  | 0x75 => if field w 0 1 == 0#1 then some (.casPr ⟨field w 19 3, field w 15 4, field w 11 4, field w 7 4, field w 4 3, field w 3 1, field w 1 2⟩) else none
  | 0x76 => if field w 0 1 == 0#1 then some (.casGl ⟨field w 19 3, field w 15 4, field w 11 4, field w 7 4, field w 4 3, field w 3 1, field w 1 2⟩) else none
  | 0xf0 => if field w 7 8 == 32#8 && field w 19 3 == 0#3 then some (.prefGl ⟨field w 15 4, field w 0 7⟩) else some (.hintA ⟨field w 22 4, field w 0 22⟩)
  | 0xf1 => if field w 7 8 == 32#8 && field w 19 3 == 0#3 then some (.prefQl ⟨field w 15 4, field w 0 7⟩) else some (.hintA ⟨field w 22 4, field w 0 22⟩)
  | 0x80 => if field w 0 1 == 0#1 && field w 19 3 == 0#3 then some (.tdef ⟨field w 13 6, field w 7 6, field w 1 6⟩) else none
  | 0x81 => if field w 0 13 == 0#13 && field w 19 3 == 0#3 then some (.tinv ⟨field w 13 6⟩) else if field w 0 22 == 1#22 then some (.tinvAll) else none
  | 0x82 => if field w 0 7 == 0#7 && field w 13 6 == 0#6 then some (.mmz ⟨field w 19 3, field w 7 6⟩) else none
  | 0x83 => if field w 0 1 == 0#1 then some (.mma ⟨field w 19 3, field w 13 6, field w 7 6, field w 5 2, field w 1 4⟩) else if field w 0 5 == 1#5 && field w 7 6 == 0#6 then some (.mmaBl ⟨field w 19 3, field w 13 6, field w 5 2⟩) else none
  | 0x84 => if field w 0 5 == 1#5 then some (.mmaR ⟨field w 19 3, field w 13 6, field w 7 6, field w 5 2⟩) else none
  | 0x85 => if field w 0 7 == 0#7 then some (.mld ⟨field w 19 3, field w 13 6, field w 7 6⟩) else if field w 0 1 == 1#1 then some (.mldBl ⟨field w 19 3, field w 13 6, field w 7 6, field w 1 6⟩) else none
  | 0x86 => if field w 0 1 == 0#1 then some (.mst ⟨field w 19 3, field w 13 6, field w 7 6, field w 6 1, field w 4 2, field w 1 3⟩) else none
  | 0x88 => if field w 1 6 == 0#6 then some (.cpy ⟨field w 19 3, field w 13 6, field w 7 6, field w 0 1⟩) else none
  | 0x89 => some (.cpyG ⟨field w 19 3, field w 13 6, field w 7 6, field w 1 6, field w 0 1⟩)
  | 0x8a => some (.cpyS ⟨field w 19 3, field w 13 6, field w 7 6, field w 1 6, field w 0 1⟩)
  | 0x8b => if field w 1 6 == 0#6 then some (.cpyT ⟨field w 19 3, field w 13 6, field w 7 6, field w 0 1⟩) else none
  | 0x8c => some (.cpyM ⟨field w 19 3, field w 13 6, field w 7 6, field w 1 6, field w 0 1⟩)
  | 0x8d => some (.cpyMma ⟨field w 19 3, field w 13 6, field w 7 6, field w 1 6, field w 0 1⟩)
  | 0x8e => if field w 1 6 == 0#6 then some (.strm ⟨field w 19 3, field w 13 6, field w 7 6, field w 0 1⟩) else none
  | 0x90 => if field w 2 20 == 0#20 then some (.drain ⟨field w 0 2⟩) else none
  | 0x91 => some (.chain ⟨field w 19 3, field w 13 6, field w 7 6, field w 1 6, field w 0 1⟩)
  | 0x92 => some (.ksend ⟨field w 19 3, field w 13 6, field w 7 6, field w 1 6, field w 0 1⟩)
  | 0x93 => if field w 0 13 == 0#13 && field w 19 3 == 0#3 then some (.kbinAdd ⟨field w 13 6⟩) else if field w 0 1 == 0#1 && field w 7 6 == 1#6 && field w 19 3 == 0#3 then some (.kbinApp ⟨field w 13 6, field w 1 6⟩) else if field w 0 22 == 256#22 then some (.kbinOff) else none
  | 0x94 => if field w 0 1 == 0#1 then some (.coll ⟨field w 19 3, field w 13 6, field w 7 6, field w 1 6⟩) else if field w 0 1 == 1#1 then some (.collRed ⟨field w 19 3, field w 13 6, field w 7 6, field w 1 6⟩) else none
  | 0x95 => if field w 1 6 == 0#6 && field w 19 3 == 0#3 then some (.engK ⟨field w 13 6, field w 7 6, field w 0 1⟩) else none
  | 0x96 => if field w 1 12 == 0#12 then some (.engGo ⟨field w 19 3, field w 13 6, field w 0 1⟩) else none
  | 0xa0 => some (.spawn ⟨field w 19 3, field w 15 4, field w 11 4, field w 0 11⟩)
  | 0xa1 => if field w 19 3 == 0#3 then some (.forkBr ⟨field w 15 4, field w 11 4, field w 0 11⟩) else none
  | 0xa2 => if field w 2 13 == 0#13 && field w 19 3 == 0#3 then some (.join ⟨field w 15 4, field w 0 2⟩) else none
  | 0xa3 => if field w 2 13 == 0#13 then some (.jdec ⟨field w 19 3, field w 15 4, field w 0 2⟩) else none
  | 0xa4 => if field w 0 22 == 0#22 then some (.suspend) else none
  | 0xa5 => if field w 0 22 == 0#22 then some (.yield) else none
  | 0xa6 => if field w 0 22 == 0#22 then some (.exit) else none
  | 0xa8 => if field w 9 2 == 0#2 then some (.send ⟨field w 19 3, field w 15 4, field w 11 4, field w 0 9⟩) else if field w 0 11 == 512#11 then some (.sendEos ⟨field w 19 3, field w 15 4, field w 11 4⟩) else none
  | 0xa9 => if field w 3 8 == 0#8 then some (.put ⟨field w 19 3, field w 15 4, field w 11 4, field w 0 3⟩) else if field w 3 12 == 1#12 then some (.putX ⟨field w 19 3, field w 15 4, field w 0 3⟩) else none
  | 0xaa => if field w 0 22 == 0#22 then some (.wfm) else none
  | 0xac => if field w 5 10 == 0#10 && field w 19 3 == 0#3 then some (.nbarInit ⟨field w 15 4, field w 0 5⟩) else none
  | 0xad => if field w 5 6 == 0#6 then some (.nbarArr ⟨field w 19 3, field w 15 4, field w 11 4, field w 0 5⟩) else none
  | 0xae => if field w 5 6 == 0#6 && field w 19 3 == 0#3 then some (.nbarWt ⟨field w 15 4, field w 11 4, field w 0 5⟩) else none
  | 0xaf => if field w 5 6 == 0#6 then some (.nbarTx ⟨field w 19 3, field w 15 4, field w 11 4, field w 0 5⟩) else none
  | 0xb0 => if field w 3 19 == 0#19 then some (.fence ⟨field w 0 3⟩) else none
  | 0xb1 => if field w 0 11 == 0#11 then some (.stv ⟨field w 19 3, field w 15 4, field w 11 4⟩) else none
  | 0xb2 => if field w 0 11 == 0#11 && field w 19 3 == 0#3 then some (.ldv ⟨field w 15 4, field w 11 4⟩) else if field w 0 11 == 1#11 && field w 19 3 == 0#3 then some (.ldvS ⟨field w 15 4, field w 11 4⟩) else none
  | 0xb3 => if field w 0 15 == 0#15 then some (.vrcl ⟨field w 19 3, field w 15 4⟩) else none
  | 0xb8 => if field w 10 1 == 0#1 && field w 19 3 == 0#3 then some (.sys ⟨field w 15 4, field w 11 4, field w 0 10⟩) else none
  | 0xb9 => if field w 10 5 == 0#5 && field w 19 3 == 0#3 then some (.trap ⟨field w 15 4, field w 0 10⟩) else none
  | 0xba => if field w 10 12 == 0#12 then some (.brk ⟨field w 0 10⟩) else none
  | 0xbb => if field w 3 12 == 0#12 && field w 19 3 == 0#3 then some (.rdcr ⟨field w 15 4, field w 0 3⟩) else none
  | 0xbc => if field w 3 8 == 0#8 && field w 15 7 == 0#7 then some (.wrcr ⟨field w 11 4, field w 0 3⟩) else none
  | 0xbd => if field w 0 22 == 0#22 then some (.halt) else none
  | 0xf2 | 0xf3 | 0xf4 | 0xf5 | 0xf6 | 0xf7 | 0xf8 | 0xf9 | 0xfa | 0xfb | 0xfc | 0xfd | 0xfe | 0xff => some (.hintA ⟨field w 22 4, field w 0 22⟩)
  | _ => none

/-- The X-class map (Table 5-9) and the fixed bits of each format (Table 5-3); field values are not checked here. -/
def decodeXBody (w : Word) : Option Instr :=
  match (field w 22 8).toNat with
  | 0x00 => if field w 0 22 == 0#22 then some (.nopX) else none
  | 0x01 => if field w 1 18 == 0#18 then some (.vmode ⟨field w 19 3, field w 0 1⟩) else none
  | 0x02 => if field w 0 12 == 0#12 then some (.gset ⟨field w 19 3, field w 16 3, field w 13 3, field w 12 1⟩) else none
  | 0x03 => if field w 0 6 == 0#6 then some (.plog ⟨field w 19 3, field w 16 3, field w 13 3, field w 10 3, field w 6 4⟩) else none
  | 0x04 => if field w 0 1 == 0#1 then some (.sel ⟨field w 19 3, field w 13 6, field w 7 6, field w 1 6⟩) else none
  | 0x08 => if field w 0 1 == 0#1 then some (.add ⟨field w 19 3, field w 13 6, field w 7 6, field w 1 6⟩) else none
  | 0x09 => if field w 0 1 == 0#1 then some (.sub ⟨field w 19 3, field w 13 6, field w 7 6, field w 1 6⟩) else none
  | 0x0a => if field w 0 1 == 0#1 then some (.addsI32 ⟨field w 19 3, field w 13 6, field w 7 6, field w 1 6⟩) else none
  | 0x0b => if field w 0 1 == 0#1 then some (.addsN32 ⟨field w 19 3, field w 13 6, field w 7 6, field w 1 6⟩) else none
  | 0x0c => if field w 0 1 == 0#1 then some (.subsI32 ⟨field w 19 3, field w 13 6, field w 7 6, field w 1 6⟩) else none
  | 0x0d => if field w 0 1 == 0#1 then some (.subsN32 ⟨field w 19 3, field w 13 6, field w 7 6, field w 1 6⟩) else none
  | 0x0e => if field w 0 1 == 0#1 then some (.mul ⟨field w 19 3, field w 13 6, field w 7 6, field w 1 6⟩) else none
  | 0x0f => if field w 0 1 == 0#1 then some (.mulhI32 ⟨field w 19 3, field w 13 6, field w 7 6, field w 1 6⟩) else none
  | 0x10 => if field w 0 1 == 0#1 then some (.mulhN32 ⟨field w 19 3, field w 13 6, field w 7 6, field w 1 6⟩) else none
  | 0x11 => if field w 0 1 == 0#1 then some (.divI32 ⟨field w 19 3, field w 13 6, field w 7 6, field w 1 6⟩) else none
  | 0x12 => if field w 0 1 == 0#1 then some (.divN32 ⟨field w 19 3, field w 13 6, field w 7 6, field w 1 6⟩) else none
  | 0x13 => if field w 0 1 == 0#1 then some (.remI32 ⟨field w 19 3, field w 13 6, field w 7 6, field w 1 6⟩) else none
  | 0x14 => if field w 0 1 == 0#1 then some (.remN32 ⟨field w 19 3, field w 13 6, field w 7 6, field w 1 6⟩) else none
  | 0x15 => if field w 0 1 == 0#1 then some (.minI32 ⟨field w 19 3, field w 13 6, field w 7 6, field w 1 6⟩) else none
  | 0x16 => if field w 0 1 == 0#1 then some (.minN32 ⟨field w 19 3, field w 13 6, field w 7 6, field w 1 6⟩) else none
  | 0x17 => if field w 0 1 == 0#1 then some (.maxI32 ⟨field w 19 3, field w 13 6, field w 7 6, field w 1 6⟩) else none
  | 0x18 => if field w 0 1 == 0#1 then some (.maxN32 ⟨field w 19 3, field w 13 6, field w 7 6, field w 1 6⟩) else none
  | 0x19 => if field w 0 1 == 0#1 then some (.and ⟨field w 19 3, field w 13 6, field w 7 6, field w 1 6⟩) else none
  | 0x1a => if field w 0 1 == 0#1 then some (.or ⟨field w 19 3, field w 13 6, field w 7 6, field w 1 6⟩) else none
  | 0x1b => if field w 0 1 == 0#1 then some (.xor ⟨field w 19 3, field w 13 6, field w 7 6, field w 1 6⟩) else none
  | 0x1c => if field w 0 1 == 0#1 then some (.andn ⟨field w 19 3, field w 13 6, field w 7 6, field w 1 6⟩) else none
  | 0x1d => if field w 0 1 == 0#1 then some (.shl ⟨field w 19 3, field w 13 6, field w 7 6, field w 1 6⟩) else none
  | 0x1e => if field w 0 1 == 0#1 then some (.shr ⟨field w 19 3, field w 13 6, field w 7 6, field w 1 6⟩) else none
  | 0x1f => if field w 0 1 == 0#1 then some (.sra ⟨field w 19 3, field w 13 6, field w 7 6, field w 1 6⟩) else none
  | 0x20 => if field w 0 1 == 0#1 then some (.rol ⟨field w 19 3, field w 13 6, field w 7 6, field w 1 6⟩) else none
  | 0x21 => if field w 0 7 == 0#7 then some (.clz ⟨field w 19 3, field w 13 6, field w 7 6⟩) else none
  | 0x22 => if field w 0 7 == 0#7 then some (.ctz ⟨field w 19 3, field w 13 6, field w 7 6⟩) else none
  | 0x23 => if field w 0 7 == 0#7 then some (.popc ⟨field w 19 3, field w 13 6, field w 7 6⟩) else none
  | 0x24 => if field w 0 1 == 0#1 then some (.bfx ⟨field w 19 3, field w 13 6, field w 7 6, field w 1 6⟩) else none
  | 0x25 => if field w 0 1 == 0#1 then some (.bfi ⟨field w 19 3, field w 13 6, field w 7 6, field w 1 6⟩) else none
  | 0x26 => some (.addc ⟨field w 19 3, field w 13 6, field w 7 6, field w 1 6, field w 0 1⟩)
  | 0x27 => some (.subc ⟨field w 19 3, field w 13 6, field w 7 6, field w 1 6, field w 0 1⟩)
  | 0x28 => some (.addi ⟨field w 19 3, field w 13 6, field w 7 6, field w 0 7⟩)
  | 0x29 => some (.andi ⟨field w 19 3, field w 13 6, field w 7 6, field w 0 7⟩)
  | 0x2a => some (.ori ⟨field w 19 3, field w 13 6, field w 7 6, field w 0 7⟩)
  | 0x2b => some (.xori ⟨field w 19 3, field w 13 6, field w 7 6, field w 0 7⟩)
  | 0x2c => some (.shli ⟨field w 19 3, field w 13 6, field w 7 6, field w 0 7⟩)
  | 0x2d => some (.shri ⟨field w 19 3, field w 13 6, field w 7 6, field w 0 7⟩)
  | 0x2e => some (.srai ⟨field w 19 3, field w 13 6, field w 7 6, field w 0 7⟩)
  | 0x2f => if field w 7 6 == 0#6 then some (.li ⟨field w 19 3, field w 13 6, field w 0 7⟩) else none
  | 0x30 => if field w 0 1 == 0#1 then some (.cmpI32 ⟨field w 19 3, field w 16 3, field w 13 3, field w 7 6, field w 1 6⟩) else none
  | 0x31 => if field w 0 1 == 0#1 then some (.cmpN32 ⟨field w 19 3, field w 16 3, field w 13 3, field w 7 6, field w 1 6⟩) else none
  | 0x32 => if field w 0 1 == 0#1 then some (.cmpF32 ⟨field w 19 3, field w 16 3, field w 13 3, field w 7 6, field w 1 6⟩) else none
  | 0x38 => if field w 0 1 == 0#1 then some (.addF32 ⟨field w 19 3, field w 13 6, field w 7 6, field w 1 6⟩) else none
  | 0x39 => if field w 0 1 == 0#1 then some (.subF32 ⟨field w 19 3, field w 13 6, field w 7 6, field w 1 6⟩) else none
  | 0x3a => if field w 0 1 == 0#1 then some (.mulF32 ⟨field w 19 3, field w 13 6, field w 7 6, field w 1 6⟩) else none
  | 0x3b => if field w 0 1 == 0#1 then some (.fmaF32 ⟨field w 19 3, field w 13 6, field w 7 6, field w 1 6⟩) else none
  | 0x3c => if field w 0 1 == 0#1 then some (.fmsF32 ⟨field w 19 3, field w 13 6, field w 7 6, field w 1 6⟩) else none
  | 0x3d => if field w 0 1 == 0#1 then some (.fnmaF32 ⟨field w 19 3, field w 13 6, field w 7 6, field w 1 6⟩) else none
  | 0x3e => if field w 0 1 == 0#1 then some (.fnmsF32 ⟨field w 19 3, field w 13 6, field w 7 6, field w 1 6⟩) else none
  | 0x3f => if field w 0 1 == 0#1 then some (.minF32 ⟨field w 19 3, field w 13 6, field w 7 6, field w 1 6⟩) else none
  | 0x40 => if field w 0 1 == 0#1 then some (.maxF32 ⟨field w 19 3, field w 13 6, field w 7 6, field w 1 6⟩) else none
  | 0x41 => if field w 0 7 == 0#7 then some (.absF32 ⟨field w 19 3, field w 13 6, field w 7 6⟩) else none
  | 0x42 => if field w 0 7 == 0#7 then some (.negF32 ⟨field w 19 3, field w 13 6, field w 7 6⟩) else none
  | 0x43 => if field w 0 7 == 0#7 then some (.rcpF32 ⟨field w 19 3, field w 13 6, field w 7 6⟩) else none
  | 0x44 => if field w 0 7 == 0#7 then some (.sqrtF32 ⟨field w 19 3, field w 13 6, field w 7 6⟩) else none
  | 0x45 => if field w 0 7 == 0#7 then some (.rsqF32 ⟨field w 19 3, field w 13 6, field w 7 6⟩) else none
  | 0x46 => if field w 0 7 == 0#7 then some (.ex2F32 ⟨field w 19 3, field w 13 6, field w 7 6⟩) else none
  | 0x47 => if field w 0 7 == 0#7 then some (.lg2F32 ⟨field w 19 3, field w 13 6, field w 7 6⟩) else none
  | 0x48 => if field w 0 7 == 0#7 then some (.tanhF32 ⟨field w 19 3, field w 13 6, field w 7 6⟩) else none
  | 0x50 | 0x51 | 0x52 | 0x53 | 0x54 | 0x55 | 0x56 | 0x57 | 0x58 | 0x59 | 0x5a | 0x5b | 0x5c | 0x5d | 0x5e => some (.cvt ⟨field w 22 4, field w 19 3, field w 13 6, field w 7 6, field w 4 3, field w 0 4⟩)
  | 0x60 => if field w 0 1 == 0#1 then some (.vaddF32 ⟨field w 19 3, field w 13 6, field w 7 6, field w 1 6⟩) else none
  | 0x61 => if field w 0 1 == 0#1 then some (.vsubF32 ⟨field w 19 3, field w 13 6, field w 7 6, field w 1 6⟩) else none
  | 0x62 => if field w 0 1 == 0#1 then some (.vmulF32 ⟨field w 19 3, field w 13 6, field w 7 6, field w 1 6⟩) else none
  | 0x63 => if field w 0 1 == 0#1 then some (.vfmaF32 ⟨field w 19 3, field w 13 6, field w 7 6, field w 1 6⟩) else none
  | 0x64 => if field w 0 1 == 0#1 then some (.vminF32 ⟨field w 19 3, field w 13 6, field w 7 6, field w 1 6⟩) else none
  | 0x65 => if field w 0 1 == 0#1 then some (.vmaxF32 ⟨field w 19 3, field w 13 6, field w 7 6, field w 1 6⟩) else none
  | 0x66 => if field w 0 1 == 0#1 then some (.vaddI32 ⟨field w 19 3, field w 13 6, field w 7 6, field w 1 6⟩) else none
  | 0x67 => if field w 0 1 == 0#1 then some (.vsubI32 ⟨field w 19 3, field w 13 6, field w 7 6, field w 1 6⟩) else none
  | 0x68 => if field w 0 1 == 0#1 then some (.vmulI32 ⟨field w 19 3, field w 13 6, field w 7 6, field w 1 6⟩) else none
  | 0x69 => if field w 0 1 == 0#1 then some (.vand ⟨field w 19 3, field w 13 6, field w 7 6, field w 1 6⟩) else none
  | 0x6a => if field w 0 1 == 0#1 then some (.vor ⟨field w 19 3, field w 13 6, field w 7 6, field w 1 6⟩) else none
  | 0x6b => if field w 0 1 == 0#1 then some (.vxor ⟨field w 19 3, field w 13 6, field w 7 6, field w 1 6⟩) else none
  | 0x6c => if field w 0 1 == 0#1 then some (.vshl ⟨field w 19 3, field w 13 6, field w 7 6, field w 1 6⟩) else none
  | 0x6d => if field w 0 1 == 0#1 then some (.vshr ⟨field w 19 3, field w 13 6, field w 7 6, field w 1 6⟩) else none
  | 0x6e => if field w 0 1 == 0#1 then some (.vsra ⟨field w 19 3, field w 13 6, field w 7 6, field w 1 6⟩) else none
  | 0x6f => if field w 0 1 == 0#1 then some (.vperm ⟨field w 19 3, field w 13 6, field w 7 6, field w 1 6⟩) else none
  | 0x70 => if field w 0 7 == 0#7 then some (.vbcast ⟨field w 19 3, field w 13 6, field w 7 6⟩) else none
  | 0x71 => if field w 0 1 == 0#1 && field w 13 6 == 63#6 then some (.vext ⟨field w 19 3, field w 7 6, field w 1 6⟩) else none
  | 0x72 => if field w 0 1 == 0#1 then some (.vins ⟨field w 19 3, field w 13 6, field w 7 6, field w 1 6⟩) else none
  | 0x73 => if field w 0 7 == 0#7 && field w 13 6 == 63#6 then some (.vredAddF32 ⟨field w 19 3, field w 7 6⟩) else none
  | 0x74 => if field w 0 7 == 0#7 && field w 13 6 == 63#6 then some (.vredMaxF32 ⟨field w 19 3, field w 7 6⟩) else none
  | 0x75 => if field w 0 7 == 0#7 && field w 13 6 == 63#6 then some (.vredAddI32 ⟨field w 19 3, field w 7 6⟩) else none
  | 0x76 => if field w 13 6 == 63#6 then some (.vredqF32 ⟨field w 19 3, field w 7 6, field w 1 6, field w 0 1⟩) else none
  | 0x77 => some (.vcvt ⟨field w 19 3, field w 13 6, field w 7 6, field w 4 3, field w 0 4⟩)
  | 0x90 => if field w 0 1 == 0#1 then some (.waddF32 ⟨field w 19 3, field w 13 6, field w 7 6, field w 1 6⟩) else none
  | 0x91 => if field w 0 1 == 0#1 then some (.wsubF32 ⟨field w 19 3, field w 13 6, field w 7 6, field w 1 6⟩) else none
  | 0x92 => if field w 0 1 == 0#1 then some (.wmulF32 ⟨field w 19 3, field w 13 6, field w 7 6, field w 1 6⟩) else none
  | 0x93 => if field w 0 1 == 0#1 then some (.wfmaF32 ⟨field w 19 3, field w 13 6, field w 7 6, field w 1 6⟩) else none
  | 0x94 => if field w 0 1 == 0#1 then some (.wminF32 ⟨field w 19 3, field w 13 6, field w 7 6, field w 1 6⟩) else none
  | 0x95 => if field w 0 1 == 0#1 then some (.wmaxF32 ⟨field w 19 3, field w 13 6, field w 7 6, field w 1 6⟩) else none
  | 0x96 => if field w 0 7 == 0#7 then some (.wbcastF32 ⟨field w 19 3, field w 13 6, field w 7 6⟩) else none
  | 0x97 => if field w 0 1 == 0#1 then some (.wins ⟨field w 19 3, field w 13 6, field w 7 6, field w 1 6⟩) else none
  | 0x98 => if field w 0 1 == 0#1 then some (.wext ⟨field w 19 3, field w 13 6, field w 7 6, field w 1 6⟩) else none
  | 0x99 => if field w 0 7 == 0#7 then some (.wredAddF32 ⟨field w 19 3, field w 13 6, field w 7 6⟩) else none
  | 0x9a => if field w 0 7 == 0#7 then some (.wredMaxF32 ⟨field w 19 3, field w 13 6, field w 7 6⟩) else none
  | 0xf0 | 0xf1 | 0xf2 | 0xf3 | 0xf4 | 0xf5 | 0xf6 | 0xf7 | 0xf8 | 0xf9 | 0xfa | 0xfb | 0xfc | 0xfd | 0xfe | 0xff => some (.hintX ⟨field w 22 4, field w 0 22⟩)
  | _ => none

/-- Why two words are no bundle (R86); each name is a group of rows of Table 5-10. -/
inductive Reject where
  /-- Fewer than eight bytes. -/
  | truncated
  /-- K = 1 in a paired bundle (R71). -/
  | pairedK
  /-- A reserved A-class opcode or a fixed bit that is wrong (R80, R83). -/
  | reservedA
  /-- A reserved X-class opcode or a fixed bit that is wrong (R75, R84). -/
  | reservedX
  /-- A bit of an immediate sum that the instruction does not use (R215). -/
  | immediate
  /-- A field value, an operand code, a hold bit or word 1 that is not legal (R74, R76-R82). -/
  | check
  deriving DecidableEq, Repr

/-- The opcodes of format AS whose immediate is folded at decode: all but `spawn` and `fork.br` (R215). -/
def foldedOpcode (op : Nat) : Bool :=
  op == 0xa2 || op == 0xa3 || op == 0xa8 || op == 0xa9 || (0xac ≤ op && op ≤ 0xaf) || (0xb1 ≤ op && op ≤ 0xb3) ||
    (0xb8 ≤ op && op ≤ 0xbc)

/-- The immediate sum of format AS: IMM11 and EXT, both sign-extended, modulo 2^64 (R215). -/
def immSum (w0 ext : Word) : DWord := (field w0 0 11).signExtend 64 + ext.signExtend 64

/-- `ok` when the bundle passes Table 5-10, the named refusal otherwise. -/
def checked (b : Bundle) : Except Reject Bundle :=
  if Machine.bundleOk b then .ok b else .error .check

/-- A lone A bundle (R74, R215). -/
def decodeLoneA (w0 w1 : Word) : Except Reject Bundle :=
  if foldedOpcode (field w0 22 8).toNat then
    let s := immSum w0 w1
    if s.extractLsb' 11 53 == 0#53 then
      match decodeABody (field w0 11 21 ++ s.extractLsb' 0 11) with
      | some i => checked (.loneA i 0#32)
      | none => .error .reservedA
    else .error .immediate
  else
    match decodeABody w0 with
    | some i => checked (.loneA i w1)
    | none => .error .reservedA

/-- A bundle from its two words, word 0 at the lower address (R4, R47, R71). -/
def decodeWords (w0 w1 : Word) : Except Reject Bundle :=
  if field w0 31 1 == 0#1 then
    if field w0 30 1 == 1#1 then .error .pairedK
    else
      match decodeABody w0, decodeXBody w1 with
      | some a, some x => checked (.paired (field w1 31 1 == 1#1) (field w1 30 1 == 1#1) a x)
      | none, _ => .error .reservedA
      | some _, none => .error .reservedX
  else if field w0 30 1 == 1#1 then
    match decodeXBody w0 with
    | some x => checked (.loneX x w1)
    | none => .error .reservedX
  else decodeLoneA w0 w1

/-- Four little-endian bytes as a word (R4). -/
def wordOfBytes (b0 b1 b2 b3 : Byte) : Word := b3 ++ b2 ++ b1 ++ b0

/-- The bundle at the front of a list of bytes, and the bytes that follow it. -/
def decode (bytes : List Byte) : Except Reject (Bundle × List Byte) :=
  match bytes with
  | b0 :: b1 :: b2 :: b3 :: b4 :: b5 :: b6 :: b7 :: rest =>
    match decodeWords (wordOfBytes b0 b1 b2 b3) (wordOfBytes b4 b5 b6 b7) with
    | .ok b => .ok (b, rest)
    | .error e => .error e
  | _ => .error .truncated

/-- The 30-bit body of an instruction under two zero bits (Tables 5-3, 5-6, 9-1 to 15-1); a step of the table has no
body and gives zero. -/
def encode (i : Instr) : Word :=
  match i with
  | .nopA => 0#2 ++ 0x00#8 ++ 0#22
  | .hintA f => 0#2 ++ 15#4 ++ f.o ++ f.x
  | .jmp f => 0#2 ++ 0x01#8 ++ f.o
  | .call f => 0#2 ++ 0x02#8 ++ f.o
  | .jr f => 0#2 ++ 0x03#8 ++ 0#4 ++ f.a ++ 0#14
  | .callr f => 0#2 ++ 0x04#8 ++ f.d ++ f.a ++ 0#14
  | .beq f => 0#2 ++ 0x08#8 ++ f.a ++ f.b ++ 0#3 ++ f.o
  | .bne f => 0#2 ++ 0x08#8 ++ f.a ++ f.b ++ 1#3 ++ f.o
  | .blt f => 0#2 ++ 0x08#8 ++ f.a ++ f.b ++ 2#3 ++ f.o
  | .bge f => 0#2 ++ 0x08#8 ++ f.a ++ f.b ++ 3#3 ++ f.o
  | .bltu f => 0#2 ++ 0x08#8 ++ f.a ++ f.b ++ 4#3 ++ f.o
  | .bgeu f => 0#2 ++ 0x08#8 ++ f.a ++ f.b ++ 5#3 ++ f.o
  | .bxz f => 0#2 ++ 0x09#8 ++ 0#3 ++ f.o
  | .bxnz f => 0#2 ++ 0x09#8 ++ 1#3 ++ f.o
  | .bxlt f => 0#2 ++ 0x09#8 ++ 2#3 ++ f.o
  | .bxge f => 0#2 ++ 0x09#8 ++ 3#3 ++ f.o
  | .bgd f => 0#2 ++ 0x0a#8 ++ f.s ++ 1#1 ++ f.o
  | .bngd f => 0#2 ++ 0x0a#8 ++ f.s ++ 0#1 ++ f.o
  | .loop f => 0#2 ++ 0x0b#8 ++ f.c ++ f.r ++ f.n ++ f.e
  | .aadd f => 0#2 ++ 0x10#8 ++ f.d ++ f.a ++ f.b ++ 0#10
  | .asub f => 0#2 ++ 0x11#8 ++ f.d ++ f.a ++ f.b ++ 0#10
  | .aand f => 0#2 ++ 0x12#8 ++ f.d ++ f.a ++ f.b ++ 0#10
  | .aor f => 0#2 ++ 0x13#8 ++ f.d ++ f.a ++ f.b ++ 0#10
  | .axor f => 0#2 ++ 0x14#8 ++ f.d ++ f.a ++ f.b ++ 0#10
  | .ashl f => 0#2 ++ 0x15#8 ++ f.d ++ f.a ++ f.b ++ 0#10
  | .ashr f => 0#2 ++ 0x16#8 ++ f.d ++ f.a ++ f.b ++ 0#10
  | .asra f => 0#2 ++ 0x17#8 ++ f.d ++ f.a ++ f.b ++ 0#10
  | .amul f => 0#2 ++ 0x18#8 ++ f.d ++ f.a ++ f.b ++ 0#10
  | .apeer f => 0#2 ++ 0x19#8 ++ f.d ++ f.a ++ f.b ++ 0#10
  | .aaddi f => 0#2 ++ 0x20#8 ++ f.d ++ f.a ++ f.i
  | .aandi f => 0#2 ++ 0x21#8 ++ f.d ++ f.a ++ f.i
  | .aori f => 0#2 ++ 0x22#8 ++ f.d ++ f.a ++ f.i
  | .axori f => 0#2 ++ 0x23#8 ++ f.d ++ f.a ++ f.i
  | .ashli f => 0#2 ++ 0x24#8 ++ f.d ++ f.a ++ f.i
  | .ashri f => 0#2 ++ 0x25#8 ++ f.d ++ f.a ++ f.i
  | .asrai f => 0#2 ++ 0x26#8 ++ f.d ++ f.a ++ f.i
  | .ali f => 0#2 ++ 0x27#8 ++ f.d ++ 0#4 ++ f.i
  | .alh f => 0#2 ++ 0x28#8 ++ f.d ++ f.a ++ f.i
  | .ldSp f => 0#2 ++ 6#5 ++ f.w ++ 0#3 ++ f.b ++ f.d ++ f.r ++ f.o
  | .ldPr f => 0#2 ++ 7#5 ++ f.w ++ 0#3 ++ f.b ++ f.d ++ f.r ++ f.o
  | .ldQl f => 0#2 ++ 8#5 ++ f.w ++ 0#3 ++ f.b ++ f.d ++ f.r ++ f.o
  | .ldGl f => 0#2 ++ 9#5 ++ f.w ++ 0#3 ++ f.b ++ f.d ++ f.r ++ f.o
  | .stSp f => 0#2 ++ 10#5 ++ f.w ++ f.g ++ f.b ++ f.d ++ f.r ++ f.o
  | .stPr f => 0#2 ++ 11#5 ++ f.w ++ f.g ++ f.b ++ f.d ++ f.r ++ f.o
  | .stQl f => 0#2 ++ 12#5 ++ f.w ++ f.g ++ f.b ++ f.d ++ f.r ++ f.o
  | .stGl f => 0#2 ++ 13#5 ++ f.w ++ f.g ++ f.b ++ f.d ++ f.r ++ f.o
  | .atomSp f => 0#2 ++ 0x70#8 ++ f.g ++ f.b ++ f.s ++ f.p ++ f.r ++ f.w ++ f.e ++ 0#1
  | .atomPr f => 0#2 ++ 0x71#8 ++ f.g ++ f.b ++ f.s ++ f.p ++ f.r ++ f.w ++ f.e ++ 0#1
  | .atomGl f => 0#2 ++ 0x72#8 ++ f.g ++ f.b ++ f.s ++ f.p ++ f.r ++ f.w ++ f.e ++ 0#1
  | .casSp f => 0#2 ++ 0x74#8 ++ f.g ++ f.b ++ f.s ++ f.c ++ f.r ++ f.w ++ f.e ++ 0#1
  | .casPr f => 0#2 ++ 0x75#8 ++ f.g ++ f.b ++ f.s ++ f.c ++ f.r ++ f.w ++ f.e ++ 0#1
  | .casGl f => 0#2 ++ 0x76#8 ++ f.g ++ f.b ++ f.s ++ f.c ++ f.r ++ f.w ++ f.e ++ 0#1
  | .prefGl f => 0#2 ++ 0xf0#8 ++ 0#3 ++ f.b ++ 0x20#8 ++ f.o
  | .prefQl f => 0#2 ++ 0xf1#8 ++ 0#3 ++ f.b ++ 0x20#8 ++ f.o
  | .tdef f => 0#2 ++ 0x80#8 ++ 0#3 ++ f.n ++ f.b ++ f.s ++ 0#1
  | .tinv f => 0#2 ++ 0x81#8 ++ 0#3 ++ f.n ++ 0#13
  | .tinvAll => 0#2 ++ 0x81#8 ++ 1#22
  | .mmz f => 0#2 ++ 0x82#8 ++ f.g ++ 0#6 ++ f.d ++ 0#7
  | .mma f => 0#2 ++ 0x83#8 ++ f.g ++ f.a ++ f.b ++ f.d ++ f.k ++ 0#1
  | .mmaBl f => 0#2 ++ 0x83#8 ++ f.g ++ f.a ++ 0#6 ++ f.d ++ 1#5
  | .mmaR f => 0#2 ++ 0x84#8 ++ f.g ++ f.a ++ f.l ++ f.d ++ 1#5
  | .mld f => 0#2 ++ 0x85#8 ++ f.g ++ f.s ++ f.d ++ 0#7
  | .mldBl f => 0#2 ++ 0x85#8 ++ f.g ++ f.b ++ f.p ++ f.k ++ 1#1
  | .mst f => 0#2 ++ 0x86#8 ++ f.g ++ f.d ++ f.s ++ f.c ++ f.t ++ f.r ++ 0#1
  | .cpy f => 0#2 ++ 0x88#8 ++ f.g ++ f.d ++ f.s ++ 0#6 ++ f.c
  | .cpyG f => 0#2 ++ 0x89#8 ++ f.g ++ f.d ++ f.s ++ f.i ++ f.c
  | .cpyS f => 0#2 ++ 0x8a#8 ++ f.g ++ f.d ++ f.s ++ f.i ++ f.c
  | .cpyT f => 0#2 ++ 0x8b#8 ++ f.g ++ f.d ++ f.s ++ 0#6 ++ f.c
  | .cpyM f => 0#2 ++ 0x8c#8 ++ f.g ++ f.d ++ f.s ++ f.r ++ f.c
  | .cpyMma f => 0#2 ++ 0x8d#8 ++ f.g ++ f.d ++ f.s ++ f.n ++ f.c
  | .strm f => 0#2 ++ 0x8e#8 ++ f.g ++ f.d ++ f.s ++ 0#6 ++ f.c
  | .drain f => 0#2 ++ 0x90#8 ++ 0#20 ++ f.p
  | .chain f => 0#2 ++ 0x91#8 ++ f.g ++ f.d ++ f.s ++ f.t ++ f.f
  | .ksend f => 0#2 ++ 0x92#8 ++ f.g ++ f.s ++ f.k ++ f.r ++ f.h
  | .kbinAdd f => 0#2 ++ 0x93#8 ++ 0#3 ++ f.b ++ 0#13
  | .kbinApp f => 0#2 ++ 0x93#8 ++ 0#3 ++ f.b ++ 1#6 ++ f.n ++ 0#1
  | .kbinOff => 0#2 ++ 0x93#8 ++ 256#22
  | .coll f => 0#2 ++ 0x94#8 ++ f.g ++ f.d ++ f.s ++ f.r ++ 0#1
  | .collRed f => 0#2 ++ 0x94#8 ++ f.g ++ f.d ++ f.s ++ f.r ++ 1#1
  | .engK f => 0#2 ++ 0x95#8 ++ 0#3 ++ f.n ++ f.s ++ 0#6 ++ f.h
  | .engGo f => 0#2 ++ 0x96#8 ++ f.g ++ f.d ++ 0#12 ++ f.r
  | .spawn f => 0#2 ++ 0xa0#8 ++ f.g ++ f.f ++ f.j ++ f.o
  | .forkBr f => 0#2 ++ 0xa1#8 ++ 0#3 ++ f.f ++ f.j ++ f.o
  | .join f => 0#2 ++ 0xa2#8 ++ 0#3 ++ f.c ++ 0#13 ++ f.s
  | .jdec f => 0#2 ++ 0xa3#8 ++ f.g ++ f.c ++ 0#13 ++ f.s
  | .suspend => 0#2 ++ 0xa4#8 ++ 0#22
  | .yield => 0#2 ++ 0xa5#8 ++ 0#22
  | .exit => 0#2 ++ 0xa6#8 ++ 0#22
  | .send f => 0#2 ++ 0xa8#8 ++ f.g ++ f.d ++ f.p ++ 0#2 ++ f.n
  | .sendEos f => 0#2 ++ 0xa8#8 ++ f.g ++ f.d ++ f.s ++ 512#11
  | .put f => 0#2 ++ 0xa9#8 ++ f.g ++ f.t ++ f.s ++ 0x00#8 ++ f.n
  | .putX f => 0#2 ++ 0xa9#8 ++ f.g ++ f.t ++ 1#12 ++ f.n
  | .wfm => 0#2 ++ 0xaa#8 ++ 0#22
  | .nbarInit f => 0#2 ++ 0xac#8 ++ 0#3 ++ f.n ++ 0#10 ++ f.b
  | .nbarArr f => 0#2 ++ 0xad#8 ++ f.g ++ f.t ++ f.p ++ 0#6 ++ f.b
  | .nbarWt f => 0#2 ++ 0xae#8 ++ 0#3 ++ f.t ++ f.p ++ 0#6 ++ f.b
  | .nbarTx f => 0#2 ++ 0xaf#8 ++ f.g ++ f.t ++ f.n ++ 0#6 ++ f.b
  | .fence f => 0#2 ++ 0xb0#8 ++ 0#19 ++ f.s
  | .stv f => 0#2 ++ 0xb1#8 ++ f.g ++ f.b ++ f.s ++ 0#11
  | .ldv f => 0#2 ++ 0xb2#8 ++ 0#3 ++ f.b ++ f.d ++ 0#11
  | .ldvS f => 0#2 ++ 0xb2#8 ++ 0#3 ++ f.b ++ f.d ++ 1#11
  | .vrcl f => 0#2 ++ 0xb3#8 ++ f.g ++ f.b ++ 0#15
  | .sys f => 0#2 ++ 0xb8#8 ++ 0#3 ++ f.a ++ f.b ++ 0#1 ++ f.n
  | .trap f => 0#2 ++ 0xb9#8 ++ 0#3 ++ f.a ++ 0#5 ++ f.n
  | .brk f => 0#2 ++ 0xba#8 ++ 0#12 ++ f.n
  | .rdcr f => 0#2 ++ 0xbb#8 ++ 0#3 ++ f.d ++ 0#12 ++ f.n
  | .wrcr f => 0#2 ++ 0xbc#8 ++ 0#7 ++ f.s ++ 0x00#8 ++ f.n
  | .halt => 0#2 ++ 0xbd#8 ++ 0#22
  | .nopX => 0#2 ++ 0x00#8 ++ 0#22
  | .hintX f => 0#2 ++ 15#4 ++ f.o ++ f.x
  | .vmode f => 0#2 ++ 0x01#8 ++ f.p ++ 0#18 ++ f.m
  | .gset f => 0#2 ++ 0x02#8 ++ f.p ++ f.s ++ f.q ++ f.n ++ 0#12
  | .plog f => 0#2 ++ 0x03#8 ++ f.p ++ f.d ++ f.a ++ f.b ++ f.t ++ 0#6
  | .sel f => 0#2 ++ 0x04#8 ++ f.s ++ f.d ++ f.a ++ f.b ++ 0#1
  | .add f => 0#2 ++ 0x08#8 ++ f.p ++ f.d ++ f.a ++ f.b ++ 0#1
  | .sub f => 0#2 ++ 0x09#8 ++ f.p ++ f.d ++ f.a ++ f.b ++ 0#1
  | .addsI32 f => 0#2 ++ 0x0a#8 ++ f.p ++ f.d ++ f.a ++ f.b ++ 0#1
  | .addsN32 f => 0#2 ++ 0x0b#8 ++ f.p ++ f.d ++ f.a ++ f.b ++ 0#1
  | .subsI32 f => 0#2 ++ 0x0c#8 ++ f.p ++ f.d ++ f.a ++ f.b ++ 0#1
  | .subsN32 f => 0#2 ++ 0x0d#8 ++ f.p ++ f.d ++ f.a ++ f.b ++ 0#1
  | .mul f => 0#2 ++ 0x0e#8 ++ f.p ++ f.d ++ f.a ++ f.b ++ 0#1
  | .mulhI32 f => 0#2 ++ 0x0f#8 ++ f.p ++ f.d ++ f.a ++ f.b ++ 0#1
  | .mulhN32 f => 0#2 ++ 0x10#8 ++ f.p ++ f.d ++ f.a ++ f.b ++ 0#1
  | .divI32 f => 0#2 ++ 0x11#8 ++ f.p ++ f.d ++ f.a ++ f.b ++ 0#1
  | .divN32 f => 0#2 ++ 0x12#8 ++ f.p ++ f.d ++ f.a ++ f.b ++ 0#1
  | .remI32 f => 0#2 ++ 0x13#8 ++ f.p ++ f.d ++ f.a ++ f.b ++ 0#1
  | .remN32 f => 0#2 ++ 0x14#8 ++ f.p ++ f.d ++ f.a ++ f.b ++ 0#1
  | .minI32 f => 0#2 ++ 0x15#8 ++ f.p ++ f.d ++ f.a ++ f.b ++ 0#1
  | .minN32 f => 0#2 ++ 0x16#8 ++ f.p ++ f.d ++ f.a ++ f.b ++ 0#1
  | .maxI32 f => 0#2 ++ 0x17#8 ++ f.p ++ f.d ++ f.a ++ f.b ++ 0#1
  | .maxN32 f => 0#2 ++ 0x18#8 ++ f.p ++ f.d ++ f.a ++ f.b ++ 0#1
  | .and f => 0#2 ++ 0x19#8 ++ f.p ++ f.d ++ f.a ++ f.b ++ 0#1
  | .or f => 0#2 ++ 0x1a#8 ++ f.p ++ f.d ++ f.a ++ f.b ++ 0#1
  | .xor f => 0#2 ++ 0x1b#8 ++ f.p ++ f.d ++ f.a ++ f.b ++ 0#1
  | .andn f => 0#2 ++ 0x1c#8 ++ f.p ++ f.d ++ f.a ++ f.b ++ 0#1
  | .shl f => 0#2 ++ 0x1d#8 ++ f.p ++ f.d ++ f.a ++ f.b ++ 0#1
  | .shr f => 0#2 ++ 0x1e#8 ++ f.p ++ f.d ++ f.a ++ f.b ++ 0#1
  | .sra f => 0#2 ++ 0x1f#8 ++ f.p ++ f.d ++ f.a ++ f.b ++ 0#1
  | .rol f => 0#2 ++ 0x20#8 ++ f.p ++ f.d ++ f.a ++ f.b ++ 0#1
  | .clz f => 0#2 ++ 0x21#8 ++ f.p ++ f.d ++ f.a ++ 0#7
  | .ctz f => 0#2 ++ 0x22#8 ++ f.p ++ f.d ++ f.a ++ 0#7
  | .popc f => 0#2 ++ 0x23#8 ++ f.p ++ f.d ++ f.a ++ 0#7
  | .bfx f => 0#2 ++ 0x24#8 ++ f.p ++ f.d ++ f.a ++ f.b ++ 0#1
  | .bfi f => 0#2 ++ 0x25#8 ++ f.p ++ f.d ++ f.a ++ f.b ++ 0#1
  | .addc f => 0#2 ++ 0x26#8 ++ f.p ++ f.d ++ f.a ++ f.b ++ f.m
  | .subc f => 0#2 ++ 0x27#8 ++ f.p ++ f.d ++ f.a ++ f.b ++ f.m
  | .addi f => 0#2 ++ 0x28#8 ++ f.p ++ f.d ++ f.a ++ f.i
  | .andi f => 0#2 ++ 0x29#8 ++ f.p ++ f.d ++ f.a ++ f.i
  | .ori f => 0#2 ++ 0x2a#8 ++ f.p ++ f.d ++ f.a ++ f.i
  | .xori f => 0#2 ++ 0x2b#8 ++ f.p ++ f.d ++ f.a ++ f.i
  | .shli f => 0#2 ++ 0x2c#8 ++ f.p ++ f.d ++ f.a ++ f.i
  | .shri f => 0#2 ++ 0x2d#8 ++ f.p ++ f.d ++ f.a ++ f.i
  | .srai f => 0#2 ++ 0x2e#8 ++ f.p ++ f.d ++ f.a ++ f.i
  | .li f => 0#2 ++ 0x2f#8 ++ f.p ++ f.d ++ 0#6 ++ f.i
  | .cmpI32 f => 0#2 ++ 0x30#8 ++ f.p ++ f.d ++ f.c ++ f.a ++ f.b ++ 0#1
  | .cmpN32 f => 0#2 ++ 0x31#8 ++ f.p ++ f.d ++ f.c ++ f.a ++ f.b ++ 0#1
  | .cmpF32 f => 0#2 ++ 0x32#8 ++ f.p ++ f.d ++ f.c ++ f.a ++ f.b ++ 0#1
  | .addF32 f => 0#2 ++ 0x38#8 ++ f.p ++ f.d ++ f.a ++ f.b ++ 0#1
  | .subF32 f => 0#2 ++ 0x39#8 ++ f.p ++ f.d ++ f.a ++ f.b ++ 0#1
  | .mulF32 f => 0#2 ++ 0x3a#8 ++ f.p ++ f.d ++ f.a ++ f.b ++ 0#1
  | .fmaF32 f => 0#2 ++ 0x3b#8 ++ f.p ++ f.d ++ f.a ++ f.b ++ 0#1
  | .fmsF32 f => 0#2 ++ 0x3c#8 ++ f.p ++ f.d ++ f.a ++ f.b ++ 0#1
  | .fnmaF32 f => 0#2 ++ 0x3d#8 ++ f.p ++ f.d ++ f.a ++ f.b ++ 0#1
  | .fnmsF32 f => 0#2 ++ 0x3e#8 ++ f.p ++ f.d ++ f.a ++ f.b ++ 0#1
  | .minF32 f => 0#2 ++ 0x3f#8 ++ f.p ++ f.d ++ f.a ++ f.b ++ 0#1
  | .maxF32 f => 0#2 ++ 0x40#8 ++ f.p ++ f.d ++ f.a ++ f.b ++ 0#1
  | .absF32 f => 0#2 ++ 0x41#8 ++ f.p ++ f.d ++ f.a ++ 0#7
  | .negF32 f => 0#2 ++ 0x42#8 ++ f.p ++ f.d ++ f.a ++ 0#7
  | .rcpF32 f => 0#2 ++ 0x43#8 ++ f.p ++ f.d ++ f.a ++ 0#7
  | .sqrtF32 f => 0#2 ++ 0x44#8 ++ f.p ++ f.d ++ f.a ++ 0#7
  | .rsqF32 f => 0#2 ++ 0x45#8 ++ f.p ++ f.d ++ f.a ++ 0#7
  | .ex2F32 f => 0#2 ++ 0x46#8 ++ f.p ++ f.d ++ f.a ++ 0#7
  | .lg2F32 f => 0#2 ++ 0x47#8 ++ f.p ++ f.d ++ f.a ++ 0#7
  | .tanhF32 f => 0#2 ++ 0x48#8 ++ f.p ++ f.d ++ f.a ++ 0#7
  | .cvt f => 0#2 ++ 5#4 ++ f.t ++ f.p ++ f.d ++ f.a ++ f.r ++ f.s
  | .vaddF32 f => 0#2 ++ 0x60#8 ++ f.p ++ f.d ++ f.a ++ f.b ++ 0#1
  | .vsubF32 f => 0#2 ++ 0x61#8 ++ f.p ++ f.d ++ f.a ++ f.b ++ 0#1
  | .vmulF32 f => 0#2 ++ 0x62#8 ++ f.p ++ f.d ++ f.a ++ f.b ++ 0#1
  | .vfmaF32 f => 0#2 ++ 0x63#8 ++ f.p ++ f.d ++ f.a ++ f.b ++ 0#1
  | .vminF32 f => 0#2 ++ 0x64#8 ++ f.p ++ f.d ++ f.a ++ f.b ++ 0#1
  | .vmaxF32 f => 0#2 ++ 0x65#8 ++ f.p ++ f.d ++ f.a ++ f.b ++ 0#1
  | .vaddI32 f => 0#2 ++ 0x66#8 ++ f.p ++ f.d ++ f.a ++ f.b ++ 0#1
  | .vsubI32 f => 0#2 ++ 0x67#8 ++ f.p ++ f.d ++ f.a ++ f.b ++ 0#1
  | .vmulI32 f => 0#2 ++ 0x68#8 ++ f.p ++ f.d ++ f.a ++ f.b ++ 0#1
  | .vand f => 0#2 ++ 0x69#8 ++ f.p ++ f.d ++ f.a ++ f.b ++ 0#1
  | .vor f => 0#2 ++ 0x6a#8 ++ f.p ++ f.d ++ f.a ++ f.b ++ 0#1
  | .vxor f => 0#2 ++ 0x6b#8 ++ f.p ++ f.d ++ f.a ++ f.b ++ 0#1
  | .vshl f => 0#2 ++ 0x6c#8 ++ f.p ++ f.d ++ f.a ++ f.b ++ 0#1
  | .vshr f => 0#2 ++ 0x6d#8 ++ f.p ++ f.d ++ f.a ++ f.b ++ 0#1
  | .vsra f => 0#2 ++ 0x6e#8 ++ f.p ++ f.d ++ f.a ++ f.b ++ 0#1
  | .vperm f => 0#2 ++ 0x6f#8 ++ f.p ++ f.d ++ f.a ++ f.b ++ 0#1
  | .vbcast f => 0#2 ++ 0x70#8 ++ f.p ++ f.d ++ f.a ++ 0#7
  | .vext f => 0#2 ++ 0x71#8 ++ f.p ++ 63#6 ++ f.a ++ f.b ++ 0#1
  | .vins f => 0#2 ++ 0x72#8 ++ f.p ++ f.d ++ f.a ++ f.b ++ 0#1
  | .vredAddF32 f => 0#2 ++ 0x73#8 ++ f.p ++ 63#6 ++ f.a ++ 0#7
  | .vredMaxF32 f => 0#2 ++ 0x74#8 ++ f.p ++ 63#6 ++ f.a ++ 0#7
  | .vredAddI32 f => 0#2 ++ 0x75#8 ++ f.p ++ 63#6 ++ f.a ++ 0#7
  | .vredqF32 f => 0#2 ++ 0x76#8 ++ f.p ++ 63#6 ++ f.a ++ f.b ++ f.m
  | .vcvt f => 0#2 ++ 0x77#8 ++ f.p ++ f.d ++ f.a ++ f.r ++ f.s
  | .waddF32 f => 0#2 ++ 0x90#8 ++ f.p ++ f.d ++ f.a ++ f.b ++ 0#1
  | .wsubF32 f => 0#2 ++ 0x91#8 ++ f.p ++ f.d ++ f.a ++ f.b ++ 0#1
  | .wmulF32 f => 0#2 ++ 0x92#8 ++ f.p ++ f.d ++ f.a ++ f.b ++ 0#1
  | .wfmaF32 f => 0#2 ++ 0x93#8 ++ f.p ++ f.d ++ f.a ++ f.b ++ 0#1
  | .wminF32 f => 0#2 ++ 0x94#8 ++ f.p ++ f.d ++ f.a ++ f.b ++ 0#1
  | .wmaxF32 f => 0#2 ++ 0x95#8 ++ f.p ++ f.d ++ f.a ++ f.b ++ 0#1
  | .wbcastF32 f => 0#2 ++ 0x96#8 ++ f.p ++ f.d ++ f.a ++ 0#7
  | .wins f => 0#2 ++ 0x97#8 ++ f.p ++ f.d ++ f.a ++ f.b ++ 0#1
  | .wext f => 0#2 ++ 0x98#8 ++ f.p ++ f.d ++ f.a ++ f.b ++ 0#1
  | .wredAddF32 f => 0#2 ++ 0x99#8 ++ f.p ++ f.d ++ f.a ++ 0#7
  | .wredMaxF32 f => 0#2 ++ 0x9a#8 ++ f.p ++ f.d ++ f.a ++ 0#7
  | _ => 0#32

/-- The two words of a bundle: L, K, HA, HB over the bodies (R71). -/
def encodeBundle (b : Bundle) : Word × Word :=
  match b with
  | .paired ha hb a x =>
    (encode a, BitVec.ofBool ha ++ BitVec.ofBool hb ++ (encode x).extractLsb' 0 30)
  | .loneA a ext => (2#2 ++ (encode a).extractLsb' 0 30, ext)
  | .loneX x ext => (3#2 ++ (encode x).extractLsb' 0 30, ext)

/-- The eight bytes of a bundle in memory order (R4). -/
def bytesOfWord (w : Word) : List Byte := [field w 0 8, field w 8 8, field w 16 8, field w 24 8]

/-- The eight bytes of a bundle in memory order (R4). -/
def encodeBytes (b : Bundle) : List Byte :=
  bytesOfWord (encodeBundle b).1 ++ bytesOfWord (encodeBundle b).2

/-- How a word of the opcode table is laid out as a bundle: as word 0 with word 1 zero when that is a bundle, and as
word 1 under an A `nop` otherwise (a table row of the X-class map may be read as either word, R71, R84; log 1). -/
def tableBundle (w : Word) : Except Reject Bundle :=
  match decodeWords w 0#32 with
  | .ok b => .ok b
  | .error _ => decodeWords 0#32 w

/-- The instruction that the decoder reads from a table row's word: the A instruction of the bundle that `tableBundle`
gives, or its X instruction where the word stands in word 1 or makes a lone X bundle. -/
def decodeTableWord (nbits w : Nat) : Option Instr :=
  if nbits == 32 then
    let v : Word := BitVec.ofNat 32 w
    match decodeWords v 0#32 with
    | .ok (.paired _ _ a _) => some a
    | .ok (.loneA a _) => some a
    | .ok (.loneX x _) => some x
    | .error _ =>
      match decodeWords 0#32 v with
      | .ok (.paired _ _ _ x) => some x
      | _ => none
  else none

end Sys2Proof
end

