-- ==== Sys2Proof/Machine/Num.lean ====
section
/-! DEFINITION. Numbers: exact values, the floating-point and integer types, the six rounding modes, conversions, the
FP32 operations and the special functions (R95-R105). Every operation is computed exactly and rounded once. -/

namespace Sys2Proof.Machine

/-- A value before rounding: plus or minus m x 2^e (m = 0 is a signed zero), an infinity, or a NaN. -/
inductive Num where
  | fin (neg : Bool) (m : Nat) (e : Int)
  | inf (neg : Bool)
  | nan
  deriving DecidableEq, Repr

/-- A rounding mode; RS carries its 32-bit random number (R99, R101). -/
inductive RMode where
  | rne | rz | ru | rd | rna
  | rs (u : Nat)
  deriving DecidableEq, Repr

/-- A floating-point type: fraction bits, exponent of the last place of a subnormal, magnitude code of the largest
finite value, magnitude code of the canonical NaN, infinities (Tables 7-1, 7-2). -/
structure Fmt where
  frac : Nat
  emin : Int
  top : Nat
  nan : Option Nat
  inf : Bool
  bits : Nat
  deriving DecidableEq, Repr

def fF32 : Fmt := ⟨23, -149, 0x7f7fffff, some 0x7fc00000, true, 32⟩
def fFr19 : Fmt := ⟨10, -136, 0x3fbff, some 0x3fe00, true, 19⟩
def fBf16 : Fmt := ⟨7, -133, 0x7f7f, some 0x7fc0, true, 16⟩
def fF16 : Fmt := ⟨10, -24, 0x7bff, some 0x7e00, true, 16⟩
def fE5M2 : Fmt := ⟨2, -16, 0x7b, some 0x7e, true, 8⟩
def fE4M3 : Fmt := ⟨3, -9, 0x7e, some 0x7f, false, 8⟩
def fE3M2 : Fmt := ⟨2, -4, 0x1f, none, false, 6⟩
def fE2M3 : Fmt := ⟨3, -3, 0x1f, none, false, 6⟩
def fE2M1 : Fmt := ⟨1, -1, 7, none, false, 4⟩

/-- The number of bits of `m`. -/
def bitLen (m : Nat) : Nat := if m == 0 then 0 else Nat.log2 m + 1

/-- m x 2^e as an integer, for e at least 0. -/
def scaleUp (m : Nat) (e : Int) : Nat := m * 2 ^ e.toNat

/-- Whether the magnitude n + rem / 2^k rounds up, for a value of sign `neg` (R99, R101). -/
def roundsUp (mode : RMode) (neg : Bool) (n rem k : Nat) : Bool :=
  match mode with
  | .rne => 2 ^ k < 2 * rem || (2 * rem == 2 ^ k && n % 2 == 1)
  | .rna => 2 ^ k ≤ 2 * rem && rem != 0
  | .rz => false
  | .ru => !neg && rem != 0
  | .rd => neg && rem != 0
  | .rs u => 2 ^ 32 ≤ rem * 2 ^ 32 / 2 ^ k + u

/-- The magnitude m x 2^e on the grid of 2^q, rounded: the number of grid steps. -/
def roundGrid (mode : RMode) (neg : Bool) (m : Nat) (e q : Int) : Nat :=
  if q ≤ e then scaleUp m (e - q)
  else
    let k := (q - e).toNat
    let n := m / 2 ^ k
    if roundsUp mode neg n (m % 2 ^ k) k then n + 1 else n

/-- The overflow of Table 7-3 gives an infinity where the type has one. -/
def overflowInf (mode : RMode) (neg : Bool) : Bool :=
  match mode with
  | .rne | .rna => true
  | .rz => false
  | .ru => !neg
  | .rd => neg
  | .rs _ => true

/-- The sign bit above a magnitude code. -/
def withSign (f : Fmt) (neg : Bool) (mag : Nat) : Nat := mag + if neg then 2 ^ (f.bits - 1) else 0

/-- Rounds a value into a floating-point type (R96, R99, R100, R103). -/
def encodeF (f : Fmt) (mode : RMode) (x : Num) : Nat :=
  match x with
  | .nan => f.nan.getD 0
  | .inf neg => withSign f neg (if f.inf then f.top + 1 else f.top)
  | .fin neg m e =>
    if m == 0 then withSign f neg 0
    else
      let top : Int := (bitLen m : Int) - 1 + e
      let q : Int := max (top - f.frac) f.emin
      let code := roundGrid mode neg m e q + (q - f.emin).toNat * 2 ^ f.frac
      if f.top < code then withSign f neg (if f.inf && overflowInf mode neg then f.top + 1 else f.top)
      else withSign f neg code

/-- The value of a code of a floating-point type (R96). -/
def decodeF (f : Fmt) (code : Nat) : Num :=
  let neg := code / 2 ^ (f.bits - 1) % 2 == 1
  let mag := code % 2 ^ (f.bits - 1)
  if f.top < mag then (if f.inf && mag == f.top + 1 then .inf neg else .nan)
  else
    let ex := mag / 2 ^ f.frac
    if ex == 0 then .fin neg mag f.emin
    else .fin neg (2 ^ f.frac + mag % 2 ^ f.frac) (f.emin + ex - 1)

/-- The value of an f32 register. -/
def f32 (w : Word) : Num := decodeF fF32 w.toNat

/-- Rounds to an f32 register. -/
def toF32 (mode : RMode) (x : Num) : Word := BitVec.ofNat 32 (encodeF fF32 mode x)

/-! ## Exact arithmetic -/

def Num.neg : Num → Num
  | .fin s m e => .fin (!s) m e
  | .inf s => .inf (!s)
  | .nan => .nan

def Num.isNeg : Num → Bool
  | .fin s _ _ => s
  | .inf s => s
  | .nan => false

def Num.isNan : Num → Bool
  | .nan => true
  | _ => false

/-- A signed integer times 2^e as a value; zero takes the sign given. -/
def ofInt (z : Int) (e : Int) (zeroNeg : Bool) : Num :=
  if z == 0 then .fin zeroNeg 0 e else .fin (z < 0) z.natAbs e

/-- The signed significand over a lower exponent. -/
def atExp (neg : Bool) (m : Nat) (e low : Int) : Int :=
  let v : Int := (scaleUp m (e - low) : Nat)
  if neg then -v else v

/-- The exact sum; a sum of zeros or an exact cancellation takes the IEEE sign of the mode (R97). -/
def Num.add (mode : RMode) (x y : Num) : Num :=
  match x, y with
  | .nan, _ => .nan
  | _, .nan => .nan
  | .inf s, .inf t => if s == t then .inf s else .nan
  | .inf s, _ => .inf s
  | _, .inf t => .inf t
  | .fin s m e, .fin t n d =>
    let low := min e d
    let z := atExp s m e low + atExp t n d low
    ofInt z low (if m == 0 && n == 0 && s == t then s else mode == .rd)

/-- The exact product (R97). -/
def Num.mul (x y : Num) : Num :=
  match x, y with
  | .nan, _ => .nan
  | _, .nan => .nan
  | .inf s, .inf t => .inf (s != t)
  | .inf s, .fin t n _ => if n == 0 then .nan else .inf (s != t)
  | .fin s m _, .inf t => if m == 0 then .nan else .inf (s != t)
  | .fin s m e, .fin t n d => .fin (s != t) (m * n) (e + d)

/-- Less-than on values that are not NaN; the two zeros are equal. -/
def Num.lt (x y : Num) : Bool :=
  match x, y with
  | .nan, _ => false
  | _, .nan => false
  | .inf s, .inf t => s && !t
  | .inf s, .fin .. => s
  | .fin .., .inf t => !t
  | .fin s m e, .fin t n d => let low := min e d; atExp s m e low < atExp t n d low

/-- Equality of values that are not NaN; the two zeros are equal. -/
def Num.eqv (x y : Num) : Bool := !x.isNan && !y.isNan && !x.lt y && !y.lt x

/-- `min.f32` and `max.f32`: a lone NaN loses, and -0 lies below +0 (R97). -/
def f32MinMax (wantMax : Bool) (a b : Word) : Word :=
  let x := f32 a
  let y := f32 b
  if x.isNan && y.isNan then 0x7fc00000#32
  else if x.isNan then b
  else if y.isNan then a
  else
    let aBelow := x.lt y || (x.eqv y && x.isNeg)
    if aBelow == wantMax then b else a

def f32Add (mode : RMode) (a b : Word) : Word := toF32 mode ((f32 a).add mode (f32 b))
def f32Sub (mode : RMode) (a b : Word) : Word := toF32 mode ((f32 a).add mode (f32 b).neg)
def f32Mul (mode : RMode) (a b : Word) : Word := toF32 mode ((f32 a).mul (f32 b))
/-- a x b + c with one rounding; the flags negate the product and the addend. -/
def f32Fma (mode : RMode) (negP negC : Bool) (a b c : Word) : Word :=
  let p := (f32 a).mul (f32 b)
  let z := f32 c
  toF32 mode ((if negP then p.neg else p).add mode (if negC then z.neg else z))

/-! ## Special functions (R105) -/

/-- One bit of an integer square root, from the top: `r` is the root so far. -/
def isqrtGo (n : Nat) : Nat → Nat → Nat
  | 0, r => r
  | k + 1, r => let r' := r + 2 ^ k; isqrtGo n k (if r' * r' ≤ n then r' else r)

/-- Integer square root. -/
def isqrt (n : Nat) : Nat := isqrtGo n (bitLen n / 2 + 1) 0

/-- A positive value q x 2^e from below, with a bit below it set when it is not exact. -/
def sticky (neg : Bool) (q : Nat) (exact : Bool) (e : Int) : Num := .fin neg (2 * q + if exact then 0 else 1) (e - 1)

/-- 1 / (m x 2^e), to 80 bits and a sticky bit. -/
def recip (neg : Bool) (m : Nat) (e : Int) : Num :=
  let k := bitLen m + 80
  sticky neg (2 ^ k / m) (2 ^ k % m == 0) (-e - k)

/-- The square root of m x 2^e, to at least 80 bits and a sticky bit. -/
def rootOf (m : Nat) (e : Int) : Num :=
  let k : Nat := 160 + (e % 2).toNat
  let r := isqrt (m * 2 ^ k)
  sticky false r (r * r == m * 2 ^ k) ((e - k) / 2)

/-- 1 / sqrt(m x 2^e), to at least 80 bits and a sticky bit. -/
def invRoot (m : Nat) (e : Int) : Num :=
  let k : Nat := 2 * bitLen m + 160 + (e % 2).toNat
  let r := isqrt (2 ^ k / m)
  sticky false r (r * r * m == 2 ^ k) ((-e - k) / 2)

/-- Fraction bits of the fixed-point work for the transcendental functions (log 10). -/
def fixBits : Nat := 640

/-- Sum of z^(2k+1) / (2k+1), fixed point: the inverse hyperbolic tangent of z. -/
def atanhGo (z2 : Nat) : Nat → Nat → Nat → Nat → Nat
  | 0, _, _, acc => acc
  | fuel + 1, k, p, acc => atanhGo z2 fuel (k + 1) (p * z2 / 2 ^ fixBits) (acc + p / (2 * k + 1))

def atanhFix (z : Nat) : Nat := atanhGo (z * z / 2 ^ fixBits) 220 0 z 0

/-- ln 2 in fixed point: 2 atanh(1/3). -/
def ln2Fix : Nat := 2 * atanhFix (2 ^ fixBits / 3)

/-- Sum of r^k / k!, fixed point. -/
def expGo (r : Nat) : Nat → Nat → Nat → Nat → Nat
  | 0, _, _, acc => acc
  | fuel + 1, k, t, acc => expGo r fuel (k + 1) (t * r / 2 ^ fixBits / (k + 1)) (acc + t)

/-- e^r for fixed-point r in [0, 1). -/
def expFix (r : Nat) : Nat := expGo r 160 0 (2 ^ fixBits) 0

/-- 2^x for a finite x that is no integer and lies within the range of f32 (R105). -/
def exp2Of (neg : Bool) (m : Nat) (e : Int) : Num :=
  let x : Int := atExp neg m (e + fixBits) 0
  let n := x / (2 ^ fixBits : Nat)
  let f := (x % (2 ^ fixBits : Nat)).toNat
  sticky false (expFix (f * ln2Fix / 2 ^ fixBits)) false (n - fixBits)

/-- log2 of a positive m x 2^e that is no power of two (R105). -/
def log2Of (m : Nat) (e : Int) : Num :=
  let l := bitLen m
  let z := (m - 2 ^ (l - 1)) * 2 ^ fixBits / (m + 2 ^ (l - 1))
  let frac := 2 * atanhFix z * 2 ^ fixBits / ln2Fix
  let v : Int := ((l : Int) - 1 + e) * (2 ^ fixBits : Nat) + (frac : Nat)
  .fin (v < 0) (2 * v.natAbs + 1) (-(fixBits : Int) - 1)

/-- tanh of a positive m x 2^e (R105): close to x below 2^-40, close to 1 from 64 on. -/
def tanhOf (neg : Bool) (m : Nat) (e : Int) : Num :=
  let top : Int := (bitLen m : Int) + e
  if top ≤ -40 then .fin neg (m * 2 ^ 64 - 1) (e - 64)
  else if 7 ≤ top then .fin neg (2 ^ 64 - 1) (-64)
  else
    let y := scaleUp m (e + 1 + fixBits)
    let n := y / ln2Fix
    let ex := expFix (y % ln2Fix) * 2 ^ n
    let one := 2 ^ fixBits
    sticky neg ((ex - one) * one / (ex + one)) false (-(fixBits : Int))

/-- The magnitude is a power of two. -/
def isPow2 (m : Nat) : Bool := m == 2 ^ (bitLen m - 1)

def f32Nan : Word := 0x7fc00000#32

/-- `rcp.f32` (Table 7-5). -/
def f32Rcp (mode : RMode) (a : Word) : Word :=
  toF32 mode <| match f32 a with
    | .nan => .nan
    | .inf s => .fin s 0 0
    | .fin s m e => if m == 0 then .inf s else recip s m e

/-- `sqrt.f32` (Table 7-5). -/
def f32Sqrt (mode : RMode) (a : Word) : Word :=
  toF32 mode <| match f32 a with
    | .nan => .nan
    | .inf s => if s then .nan else .inf false
    | .fin s m e => if m == 0 then .fin s 0 0 else if s then .nan else rootOf m e

/-- `rsq.f32` (Table 7-5). -/
def f32Rsq (mode : RMode) (a : Word) : Word :=
  toF32 mode <| match f32 a with
    | .nan => .nan
    | .inf s => if s then .nan else .fin false 0 0
    | .fin s m e => if m == 0 then .inf s else if s then .nan else invRoot m e

/-- `ex2.f32` (Table 7-5): an integer gives a power of two, a magnitude of 2^11 or more over- or underflows. -/
def f32Ex2 (mode : RMode) (a : Word) : Word :=
  toF32 mode <| match f32 a with
    | .nan => .nan
    | .inf s => if s then .fin false 0 0 else .inf false
    | .fin s m e =>
      if m == 0 then .fin false 1 0
      else if 11 ≤ (bitLen m : Int) + e then .fin false 1 (if s then -2000 else 2000)
      else if 0 ≤ e then .fin false 1 (atExp s m e 0)
      else if m % 2 ^ (-e).toNat == 0 then .fin false 1 (atExp s (m / 2 ^ (-e).toNat) 0 0)
      else exp2Of s m e

/-- `lg2.f32` (Table 7-5): a power of two gives an integer, +1 gives +0. -/
def f32Lg2 (mode : RMode) (a : Word) : Word :=
  toF32 mode <| match f32 a with
    | .nan => .nan
    | .inf s => if s then .nan else .inf false
    | .fin s m e =>
      if m == 0 then .inf true
      else if s then .nan
      else if isPow2 m then ofInt ((bitLen m : Int) - 1 + e) 0 false
      else log2Of m e

/-- `tanh.f32` (Table 7-5). -/
def f32Tanh (mode : RMode) (a : Word) : Word :=
  toF32 mode <| match f32 a with
    | .nan => .nan
    | .inf s => .fin s 1 0
    | .fin s m e => if m == 0 then .fin s 0 0 else tanhOf s m e

/-! ## Types of registers and conversions (R95, R102-R104) -/

/-- The floating-point type of a type code (Table 7-1). -/
def floatOf (t : Nat) : Option Fmt :=
  match t with
  | 0 => some fF32 | 1 => some fFr19 | 2 => some fBf16 | 3 => some fF16 | 4 => some fE5M2 | 5 => some fE4M3
  | 6 => some fE3M2 | 7 => some fE2M3 | 8 => some fE2M1 | _ => none

/-- Bits and signedness of an integer type code (Table 7-1). -/
def intOf (t : Nat) : Nat × Bool :=
  match t with
  | 9 => (8, true) | 10 => (8, false) | 11 => (16, true) | 12 => (16, false) | 13 => (32, true) | _ => (32, false)

/-- An integer read from the low bits. -/
def readInt (bits : Nat) (signed : Bool) (w : Nat) : Int :=
  let v := w % 2 ^ bits
  if signed && 2 ^ (bits - 1) ≤ v then (v : Int) - (2 ^ bits : Nat) else v

/-- Saturates to an integer type. -/
def saturate (bits : Nat) (signed : Bool) (z : Int) : Int :=
  let lo : Int := if signed then -(2 ^ (bits - 1) : Nat) else 0
  let hi : Int := if signed then (2 ^ (bits - 1) : Nat) - 1 else (2 ^ bits : Nat) - 1
  max lo (min hi z)

/-- The value that a register delivers as a source of a type (R95): an integer is exact with exponent 0. -/
def readTyped (t : Nat) (w : Word) : Num :=
  match floatOf t with
  | some f => decodeF f (if t == 1 then w.toNat / 2 ^ 13 else w.toNat % 2 ^ f.bits)
  | none => let (b, s) := intOf t; ofInt (readInt b s w.toNat) 0 false

/-- A value rounded to an integer and saturated (R104). -/
def toInt (bits : Nat) (signed : Bool) (mode : RMode) (x : Num) : Int :=
  match x with
  | .nan => 0
  | .inf s => saturate bits signed (if s then -(2 ^ 64 : Nat) else (2 ^ 64 : Nat))
  | .fin s m e => let n : Int := (roundGrid mode s m e 0 : Nat); saturate bits signed (if s then -n else n)

/-- A value rounded into a type and placed in a register (R95, R103, R104). -/
def writeTyped (t : Nat) (mode : RMode) (x : Num) : Word :=
  match floatOf t with
  | some f =>
    let c := encodeF f mode x
    BitVec.ofNat 32 (if t == 1 then c * 2 ^ 13 else c)
  | none => let (b, s) := intOf t; BitVec.ofInt 32 (toInt b s mode x)

/-- A conversion between two types (R103, R104). -/
def convert (src dst : Nat) (mode : RMode) (w : Word) : Word := writeTyped dst mode (readTyped src w)

/-! ## The stochastic-rounding generator (R101) -/

/-- The seed at task start or resume. -/
def lfsrSeed (gtid pc : DWord) : Word :=
  let s := gtid.setWidth 32 ^^^ (gtid >>> 32).setWidth 32 ^^^ (pc >>> 3).setWidth 32
  if s == 0#32 then 1#32 else s

/-- Galois steps. -/
def lfsrSteps : Nat → Word → Word
  | 0, l => l
  | n + 1, l => lfsrSteps n (if l.getLsbD 0 then (l >>> 1) ^^^ 0x80200003#32 else l >>> 1)

/-- The next random number, which is also the generator's next state. -/
def lfsrNext (l : Word) : Word :=
  let l' := lfsrSteps 32 l
  if l' == 0#32 then 1#32 else l'

end Sys2Proof.Machine
end

