-- ==== Sys2Proof/Config.lean ====
section
/-! DEFINITION. What the manual leaves to the device or leaves open, as constants without a body: nothing in Lean can
evaluate one or prove a value of it. -/

namespace Sys2Proof.Config

/-- The deviation of a perturbed product at f1 or f2, before reduction to the bound of R120, from the number of the draw
(free value, log 5). -/
opaque perturbation : Nat → Nat

/-- How many detections the shadow latches of an array make in a slab at f1 or f2 (free value, log 5). -/
opaque detections : Nat → Nat

/-- Whether the product of this draw is perturbed at all at f1 or f2 (free value, log 5). -/
opaque perturbed : Nat → Bool

/-- The gap to the next tagged sample, before reduction to its range (R339: a generator of its own; free value, log 6). -/
opaque sampleGap : Nat → Nat

/-- Which pending contribution a collective or a tree of sums combines next (R117, R316; free value, log 7). -/
opaque combineOrder : Nat → Nat

/-- Whether an XMSS-SHAKE_20_512 signature of an image verifies against the image key of the boot ROM (R319; log 8). -/
opaque imageSignatureOk : List Byte → List Byte → Bool

/-- The device key's XMSS signature of a report with a one-time-key index (R322; log 8). -/
opaque deviceSignature : Nat → List Byte → List Byte

/-- What host memory answers to an AtomicOp: whether the host completes it (R150; log 9). -/
opaque hostCompletes : Nat → Bool

/-- The first 8 bytes of the header of a message that the Kerb refuses: the manual gives the header no layout (free value,
log 14). -/
opaque messageHeader : Nat → DWord

/-- Bits 255:32 of an operand latch to which a scalar operand was delivered last, as a held short-vector operand reads them:
the manual states no value (free value, log 15). -/
opaque latchHigh : Nat → BitVec 224

/-- Bytes that an edge streamer holds of a stream with producers outside the tiles (free value, log 19). -/
opaque streamQueued : Nat → Word

/-- The bytes of a host port's PCIe configuration space that Table 23-1 does not fix, by port and offset: the manual leaves them to
PCIe (R306; free value, log 107). -/
opaque pcieConfig : Nat → Nat → Byte

/-- What a read of the Gwemon mailbox in BAR0 answers at an offset: the manual says nothing of its contents (R306; free value,
log 129). -/
opaque gwemonMailbox : Nat → Nat → Byte

/-- FID in the completion record of a launch that admission refuses: no fidelity was applied (free value, log 20). -/
opaque refusedFid : Nat → BitVec 2

end Sys2Proof.Config
end

