-- ==== Sys2Proof/Machine/State.lean ====
section
/-! DEFINITION. The state of the AF-64 as plain data: what the manual names, and a few fields of the model's own, which
are marked MODEL. Sparse tables are lists of pairs with rising keys; an unlisted key has the default that the accessor
in Machine/Map.lean or Machine/Ops.lean names. -/

namespace Sys2Proof.Machine

/-- Trap and status codes (Table 21-1). -/
inductive Code where
  | illegalEncoding | privilege | align | xlate | guardTouch | peerGone | kerbRefused | formatReserved
  | tensorUndefined | versionRange | engineFail | brk | step | watchdog | sysRequest | commandInvalid | spawnDepth
  | userTrap | halted | dataError | featureMissing | illegalCycle | replicaMismatch | regionTooSmall
  | fidelityClamped | cardInvalid | aborted
  deriving DecidableEq, Repr

/-- The four address spaces, and the code of a message in the replay queue (R22, Table 21-2). -/
inductive Space where
  | sp | pr | ql | gl | msg
  deriving DecidableEq, Repr

/-- What an a-register holds besides its value (R142, R143). -/
inductive RegStatus where
  | ready
  /-- The access with this number will fill it. -/
  | pending (acc : Nat)
  /-- Filled with a poisoned zero: the logged trap and the EA of its entry. -/
  | poisoned (code : Code) (ea : DWord)
  deriving DecidableEq, Repr

/-- An a-register. -/
structure AReg where
  val : DWord
  st : RegStatus
  deriving DecidableEq, Repr

/-- How far the quad unit has come with the chain command at the head of a tile's chain queue (R277, R279): elements done, the
first address fault met, whether it read uncorrectable data. -/
structure ChainRun where
  done : Nat
  fault : Option (Code × Space × DWord)
  bad : Bool
  deriving DecidableEq, Repr

/-- A hardware loop: value, start, end bundle, count, active (R65, R129). -/
structure Loop where
  val : Word
  start : DWord
  last : DWord
  count : Word
  active : Bool
  deriving DecidableEq, Repr

/-- An entry of the X instruction queue (R49): the X instruction, its EXT, its hold bits, its bundle. -/
structure XEntry where
  x : Instr
  ext : Word
  ha : Bool
  hb : Bool
  pc : DWord
  deriving DecidableEq, Repr

/-- What a reserved entry of lq0 or lq1 holds (R53). -/
inductive LqFill where
  | waiting (acc : Nat)
  | data (v : Vec)
  | poisoned (code : Code) (ea : DWord)
  deriving DecidableEq, Repr

/-- An entry of lq0 or lq1: its index 0-7 (Table 21-2 SLOT) and its fill. -/
structure LqEntry where
  idx : Nat
  fill : LqFill
  deriving DecidableEq, Repr

/-- A guard slot (R55): the number of its newest generation, and the newest generations, newest first; `none` is
unresolved. -/
structure GuardSlot where
  newest : Nat
  hist : List (Option Bool)
  deriving DecidableEq, Repr

/-- The guard of a command or access (R55). -/
inductive Guard where
  /-- No guard, or a generation that resolved true. -/
  | free
  /-- Bound to an unresolved generation of a slot. -/
  | bound (slot gen : Nat)
  /-- Bound to a generation that resolved false. -/
  | discarded
  deriving DecidableEq, Repr

/-- A tensor descriptor (Table 13-3). -/
structure Desc where
  cols : Nat
  rows : Nat
  block : Nat
  format : Nat
  space : Space
  base : Nat
  stride : Nat
  scale : Nat
  deriving DecidableEq, Repr

/-- An entry of the tensor-identifier table (R64, R184). -/
inductive TEntry where
  | invalid
  | pending (acc : Nat)
  | valid (d : Desc)
  | poisoned (code : Code) (ea : DWord)
  deriving DecidableEq, Repr

/-- The B operand latch or the ring buffer when full (R191, R192): the descriptor, k0, depth, and the bytes latched. -/
structure Slab where
  desc : Desc
  k0 : Nat
  depth : Nat
  bytes : Mem
  deriving DecidableEq, Repr

/-- A command captured at issue (R180): its number, the number that it had at issue, which a follow-on keeps when it is pushed, the
issuing task, its bundle, its guard, the A instruction, the descriptors and the register values it captured, in field order. -/
structure Cmd where
  id : Nat
  issued : Nat
  act : Nat
  gtid : DWord
  pc : DWord
  guard : Guard
  body : Instr
  descs : List Desc
  regs : List DWord
  deriving DecidableEq, Repr

/-- A copy or subscription of the stream engine (R197, R203): the command, the barrier it charges, the bytes still
charged, the stream bytes received, the producers whose end token is in, the captured follow-on, and whether only that is left to do. -/
structure Copy where
  cmd : Cmd
  charge : Option Nat
  left : Nat
  got : Nat
  ended : List Nat
  /-- Of a subscription: the items of the streamer that it has had a part of, and how much of each the tile had had before. -/
  took : List (Nat × Nat)
  follow : Option Cmd
  /-- The copy has completed and only its follow-on is still to be pushed (R202, R291). -/
  landed : Bool
  deriving DecidableEq, Repr

/-- A long-vector command in the tile's queue to the quad unit (R177, R178): the X instruction, the scalar values it
captured, and the default rounding mode as it started. -/
structure LongCmd where
  x : Instr
  a : Word
  b : Word
  rm : BitVec 3
  deriving DecidableEq, Repr

/-- What an access does (R141, R144, R148, R149, R221, R229, R232, R233). -/
inductive AccOp where
  | load
  | store
  | touch
  | atom (op : BitVec 4)
  /-- The register number of the compare value is kept for the replay entry. -/
  | cas (cmp : BitVec 4)
  | stv
  | vrcl
  | ldv (v : Byte)
  | jdec
  | arrive (bar : Nat)
  | barTx (bar : Nat) (n : BitVec 56)
  /-- The read of a `tdef`. -/
  | tdef
  /-- A store of a spill slab (R219). -/
  | spill
  deriving DecidableEq, Repr

/-- An entry of the replay queue (Table 21-2), with the GTID of the task it is logged for (MODEL). -/
structure ReplayEntry where
  gtid : DWord
  ea : DWord
  action : BitVec 4
  info : Byte
  slot : Nat
  dest : BitVec 5
  width : BitVec 3
  space : Space
  op : BitVec 8
  kind : Byte
  code : Code
  pc : DWord
  data : Vec
  data2 : DWord
  /-- MODEL: ORD of the access, or the landing register of a `put`, which a replay keeps. -/
  ord : BitVec 3
  /-- MODEL: what the access does, which a replay does again; `none` for what is not an access or is not done again. -/
  what : Option AccOp
  deriving DecidableEq, Repr

/-- Why the access side holds later accesses (R136, R230, R233). -/
inductive Hold where
  /-- An acquire waits for this access. -/
  | access (id : Nat)
  /-- A fence at a scope waits for every access and message numbered below. -/
  | fence (scope : BitVec 3) (below : Nat)
  deriving DecidableEq, Repr

/-- How far a single step has come (R295). -/
inductive Stepping where
  | no
  /-- The task may issue one bundle. -/
  | armed
  /-- That bundle has issued; STEP is raised once its X instructions have completed. -/
  | issued
  deriving DecidableEq, Repr

/-- An operand latch (R59): the value last delivered, and whether all 256 bits of it were delivered; a scalar operand
delivers bits 31:0. -/
structure OperandLatch where
  v : Vec
  wide : Bool
  deriving DecidableEq, Repr

/-- The state of the task that runs on a tile (R57, R64, R70). -/
structure Task where
  /-- MODEL: a number for each start or resume of a task, by which late results find their task. -/
  act : Nat
  gtid : DWord
  pc : DWord
  xpushed : Bool
  depth : Nat
  a : Vector AReg 16
  lc : Vector Loop 2
  k : Vector Word 4
  g : Vector Word 48
  p : Vector Bool 8
  v : Vector Vec 16
  acc : Word
  latchA : OperandLatch
  latchB : OperandLatch
  /-- MODEL: values that the X instruction at the head has already taken while it waits for more (R60, R158). -/
  taken : List Vec
  xinstr : List XEntry
  /-- The execute side has taken the head of xinstr, which waits there and is an entry of the queue no longer (R49). -/
  xbusy : Bool
  lq0 : List LqEntry
  lq1 : List LqEntry
  /-- The index that the next reserved entry of lq0 and lq1 takes. -/
  lqTail0 : Nat
  lqTail1 : Nat
  sq : List Vec
  xq : List DWord
  gd : Vector GuardSlot 8
  rm : BitVec 3
  long : Bool
  redq : Word
  lfsr : Word
  hold : Option Hold
  /-- The inbox slot that the task holds (R224). -/
  inboxSlot : Option Nat
  /-- Accumulators m0-m3, element (i, j) at key 32 i + j, unlisted elements +0. -/
  m : Vector (SMap Word) 4
  bl : Option Slab
  ring : Option Slab
  w : Vector (BitVec 4096) 8
  skipbp : Bool
  stepping : Stepping
  /-- This run of a task at depth 63 has filled reserved slot 63 (R219). -/
  filled63 : Bool
  deriving DecidableEq, Repr

/-- A trap that stops a task, as its record will carry it (Table 21-3), with the resume PC and XPUSHED (R69, R292). -/
structure TrapInfo where
  code : Code
  xside : Bool
  precise : Bool
  info : Byte
  pc : DWord
  apc : DWord
  arg0 : DWord
  arg1 : DWord
  arg2 : DWord
  rpc : DWord
  xpushed : Bool
  deriving DecidableEq, Repr

/-- A trap record (Table 21-3). -/
structure TrapRecord where
  tag : Nat
  tile : Nat
  note : Bool
  xside : Bool
  precise : Bool
  nlog : Nat
  info : Byte
  code : Code
  gtid : DWord
  pc : DWord
  apc : DWord
  arg0 : DWord
  arg1 : DWord
  arg2 : DWord
  frame : DWord
  deriving DecidableEq, Repr

/-- A continuation record (Table 1-9), word by word, so that reserved bits survive. -/
structure Rec where
  pcw : DWord
  gtid : DWord
  frame : DWord
  join : DWord
  arg0 : DWord
  arg1 : DWord
  w0 : Word
  w1 : Word
  w2 : Word
  w3 : Word
  deriving DecidableEq, Repr

/-- The wait cause of a resident record (R40). -/
inductive Wait where
  | none
  | msg
  | join (space : Space) (addr : DWord)
  | nbar (tile bar : Nat) (phase : Word)
  | version (tile off : Nat) (v : Byte)
  deriving DecidableEq, Repr

/-- A resident record: the record, its wait cause, whether it is ready, the order in which it became ready or
suspended, the inbox slot it has consumed (R40, R41, R224), and its place in the general spill where it stands there. -/
structure Resident where
  r : Rec
  cause : Wait
  ready : Bool
  order : Nat
  slot : Option Nat
  place : Option Nat
  deriving DecidableEq, Repr

/-- A named barrier (Table 15-5). -/
structure NBar where
  exp : BitVec 16
  arr : BitVec 16
  pend : BitVec 56
  phase : Word
  sdet : Word
  srep : Word
  lsdet : Word
  lsrep : Word
  deriving DecidableEq, Repr

/-- A message in an inbox slot (R224): source, bytes, arrival order, and whether a `wfm` has consumed it. -/
structure InboxMsg where
  src : Nat
  n : Nat
  order : Nat
  consumed : Bool
  deriving DecidableEq, Repr

/-- A line of the fetch buffer (R48): its address and its bytes. -/
structure FetchLine where
  base : Nat
  bytes : Mem
  deriving DecidableEq, Repr

/-- What a tile is doing (R38, R42, R69, R291, R295). -/
inductive Run where
  /-- No task runs. -/
  | idle
  | running
  /-- The running task has been stopped by this trap and its frame is not yet written. -/
  | stopping (t : TrapInfo)
  deriving DecidableEq, Repr

/-- A halt of a tile (R70, R235, R305). -/
inductive Halt where
  | none
  /-- Steps 1 and 2 of R70 are in progress; `done` once both sides have stopped. -/
  | preempt (done : Bool)
  /-- Held by `halt`; `one` while a STEP lets one bundle issue. -/
  | held (one : Bool)
  | migrate
  deriving DecidableEq, Repr

/-- A tagged sample in progress (R339): the marked bundle and its task, whether it is a lone bundle, whether it has no X
instruction, whether it has issued; the slip as it did, why it last waited (ACAUSE), and whether it made an access, which is
one numbered from `from_` on; the bank stall of its X instruction. -/
structure Mark where
  pc : DWord
  gtid : DWord
  lone : Bool
  noX : Bool
  out : Bool
  slip : Nat
  cause : Nat
  from_ : Nat
  access : Bool
  bank : Nat
  deriving DecidableEq, Repr

/-- What a tile latched for a snapshot (R337). -/
structure Latch where
  tick : DWord
  runState : BitVec 4
  pc : DWord
  gtid : DWord
  late : Bool
  deriving DecidableEq, Repr

/-- What stands at a tile's input on channel 3 (R62): a result for ef, or the completion notice of a command that left the
tile, by its number and the path it writes to. -/
inductive Back where
  | word (w : Word)
  | notice (id : Nat) (path : Space)
  deriving DecidableEq, Repr

/-- The wait of a `wext` or `wred` (R178). -/
inductive LongWait where
  | none
  | sent
  | back (w : Word)
  deriving DecidableEq, Repr

/-- A tile (R10, R40, R51, R180, R219, R224, R227, R231, R258). -/
structure Tile where
  run : Run
  halt : Halt
  task : Task
  sp : Mem
  ver : Mem
  guards : BitVec 3072
  /-- Ring channel: values of the predecessor in the network, each with its number on channel 5, and ri (R61). -/
  riNet : List (Nat × Word)
  ri : List Word
  /-- e0-e7 (R60); `none` is an absent value. -/
  e : Vector (Option Word) 8
  ef : List Word
  /-- What waits at the tile's input on channel 3, in order of arrival (R62). -/
  efWait : List Back
  tt : Vector TEntry 64
  nbar : Vector NBar 32
  det : Word
  rep : Word
  detSnap : Word
  repSnap : Word
  drop : Word
  /-- The bound bin table: descriptor and, in append mode, n (R207). -/
  bins : Option (Desc × Option Nat)
  /-- The `kbin` that bound it, as captured at issue: an update sees the stores made before it (R180, R250). -/
  binder : Option Cmd
  vshare : BitVec 4
  inbox : Vector (Option InboxMsg) 8
  deque : List Rec
  /-- The general spill: its deque records, oldest first, and the slots of the slab that they take (R219). -/
  spill : List Rec
  slots : List Nat
  reserved : SMap Rec
  resident : List Resident
  /-- Resident records beyond the eighth, with their causes, in the general spill while it has room (R40; log 91). -/
  overflow : List Resident
  /-- A record of `suspend` that found no place (R222). -/
  unplaced : Option Rec
  lines : List FetchLine
  /-- The fetch of a line that failed for a run of a task: the run, the line and the fault, until the bundle needs it (R48). -/
  badFetch : Option (Nat × Nat × Code)
  matq : List Cmd
  copies : List Copy
  longq : List LongCmd
  chainq : List Cmd
  chainRun : ChainRun
  /-- The last unit that the quad vector unit bound for the tile was one of a chain (R277). -/
  lastChain : Bool
  /-- A slab on the Ringway toward this tile (R192). -/
  ringNet : Option Slab
  /-- A slab that the `mma.r` at the head of the matrix queue has read and not yet forwarded, and its target (R192). -/
  forwarding : Option (Slab × Nat)
  /-- The value that a `wext` or `wred` at the head waits for, once the quad unit has returned it (R178). -/
  longWait : LongWait
  replay : List ReplayEntry
  records : List TrapRecord
  /-- A stolen record in flight to this tile: its victim, its number on channel 5, the record (R276). -/
  landing : Option (Nat × Nat × Rec)
  /-- A suspension point has closed the tile to puts and ring values until a task runs here again (R63). -/
  closed : Bool
  /-- The inbox message that stands at the tile's input while all 8 slots are full: channel 5 waits behind it (R224). -/
  stuck : Option Nat
  /-- Acquires and fences that suspended tasks of the tile left in progress (R136, R230). -/
  kept : List (DWord × Hold)
  backoff : Bool
  /-- Records of a BATCH chunk that the tile still has to run: next and end index (R272). -/
  chunk : Option (Nat × Nat)
  counters : Vector Word 16
  snap : Vector Word 16
  /-- The events counted in clk whose condition held at the last look: they count until the next look (R333). -/
  waits : List Nat
  /-- Issued bundles still to pass before the next mark (R339). -/
  gap : Nat
  mark : Option Mark
  /-- The clk and the address of the last bundle issued (R338). -/
  lastIssue : Option (Nat × DWord)
  latch : Option Latch
  deriving DecidableEq, Repr

/-- Where a result goes (R141, R148): nowhere, an a-register, or an entry of lq0 or lq1 by its index. -/
inductive Dest where
  | none
  | a (n : BitVec 4)
  | lq (q : BitVec 1) (idx : Nat)
  | tensor (n : BitVec 6)
  deriving DecidableEq, Repr

/-- What an access met at its home. -/
inductive AccResult where
  | value (v : Vec)
  | zero (code : Option Code)
  | fault (code : Code)
  deriving DecidableEq, Repr

/-- An access in flight (R136, R139). Numbers rise in issue order. -/
structure Access where
  id : Nat
  tile : Nat
  act : Nat
  gtid : DWord
  op : AccOp
  space : Space
  ea : DWord
  n : Nat
  data : Vec
  data2 : DWord
  ord : BitVec 3
  dest : Dest
  guard : Guard
  pc : DWord
  /-- `none` until the home has performed or refused it. -/
  res : Option AccResult
  /-- A replay entry's access, which its task waits for before it issues anything (R292). -/
  again : Bool
  /-- What an arrival carries: the increases of DET and REP, and, to the summed barrier, the deltas of the 16 counters (R229,
  R335). -/
  sums : List Word
  deriving DecidableEq, Repr

/-- What a message carries (R18). -/
inductive Body where
  /-- An inbox message (R223). -/
  | inbox (bytes : List Byte)
  /-- A `send` to an edge streamer (R226). -/
  | streamer (bytes : List Byte) (word : Word) (reg : DWord)
  /-- An end-of-stream token (R226). Both keep the instruction's word and the first register it captured (R296). -/
  | eos (stream : Word) (word : Word) (reg : DWord)
  | put (reg : Nat) (v : Word)
  /-- A `ksend` (R208). -/
  | ksend (cmd : Cmd)
  /-- An `eng.go` message: k0-k3 and whether it asks for a reply (R212). -/
  | engGo (k0 k1 k2 k3 : Word) (reply : Bool)
  /-- A `coll` (R210). -/
  | coll (cmd : Cmd)
  /-- A wake for a join counter at this address (R221). -/
  | wake (space : Space) (addr : DWord)
  deriving DecidableEq, Repr

/-- The classes of traffic of Table 1-10, in the order of their channels (R18). -/
inductive Traffic where
  /-- gl accesses, and what engines and the Crossing ask of global memory. -/
  | globalRequest
  | globalResponse
  | engineCommand
  /-- Engine replies, results for ef, completion notices. -/
  | engineResult
  /-- Streams, end-of-stream tokens, `cpy.m` data, collective traffic between engines. -/
  | stream
  | tileToTile
  /-- Trap and NOTIFY records, resolution messages, `sys` requests. -/
  | system
  /-- The sampling pulse, pre-emption requests, tokens, boost claims. -/
  | management
  deriving DecidableEq, Repr

/-- A message in flight (R8, R18, R30): its number, channel, source tile (65,536 and above are not tiles), destination,
the sender's task, launch, region tag, and guard. -/
structure Msg where
  id : Nat
  chan : Nat
  src : Nat
  dst : BitVec 20
  act : Nat
  gtid : DWord
  launch : Nat
  tag : Nat
  pc : DWord
  guard : Guard
  body : Body
  deriving DecidableEq, Repr

/-- A resolution that its tile has yet to act on (R292, R298): RESUME or STEP with SKIPBP, END_TASK, END_LAUNCH. -/
inductive FrameAnswer where
  | go (single skipbp : Bool)
  | endTask
  | endLaunch
  deriving DecidableEq, Repr

/-- A frame (R291): the stopped task, its trap, its held accesses and messages, its held commands and those behind
them, its replay entries, the CRC-32C that the tile keeps of it, whether a resolution's edits have left that alone, and the
resolution that its tile will act on. -/
structure Frame where
  tile : Nat
  trap : TrapInfo
  task : Task
  replay : List ReplayEntry
  held : List Access
  heldMsgs : List Msg
  matq : List Cmd
  copies : List Copy
  chainq : List Cmd
  /-- cr.vshare, which a trap saves and a resume restores (R238). -/
  vshare : BitVec 4
  crc : Word
  crcOk : Bool
  answer : Option FrameAnswer
  deriving DecidableEq, Repr

/-- Where a cohort stands (R28, R70, R235, R280). -/
inductive CohortStatus where
  | resident
  /-- Stopped by `halt`. -/
  | halted
  /-- A pre-emption halt is in progress; `held` says the cohort was already held by `halt`. -/
  | halting (held : Bool)
  /-- Halted for pre-emption with no save area left: waits in place. -/
  | stranded (held : Bool)
  /-- Saved to the area at this address. -/
  | saved (area : DWord) (held : Bool)
  deriving DecidableEq, Repr

/-- A cohort that has been dispatched and has not retired (R26-R32), keyed by launch, index and run. -/
structure Cohort where
  launch : Nat
  index : Nat
  /-- Run B of replica mode (R282). -/
  runB : Bool
  cluster : Nat
  /-- Logical quad numbers within the cluster, in team order. -/
  quads : List Nat
  /-- Tasks per team (R26). -/
  size : Nat
  status : CohortStatus
  /-- The Crossing's serial counter (R32). -/
  serial : Nat
  /-- Tasks started and not exited (R43). -/
  live : Nat
  /-- Requests the Crossing has merged since cohort start (R213). -/
  merged : Nat
  /-- Virtual state requested for its tiles (R326). -/
  vstate : Nat
  /-- A restore has been asked for, by the request descriptor at this address (R280, R289). -/
  restoreAsked : Option DWord
  /-- Resolutions for its halted tiles that wait until it is restored (R298). -/
  waiting : List (Nat × FrameAnswer)
  deriving DecidableEq, Repr

/-- A ticket that a cluster has drawn and parked (R269): cluster, cohort index, run B. -/
structure Parked where
  cluster : Nat
  index : Nat
  runB : Bool
  deriving DecidableEq, Repr

/-- A die's tickets of a launch, one run of it (R269): next and end index. -/
structure Tickets where
  next : Nat
  last : Nat
  deriving DecidableEq, Repr

/-- A breakpoint of a launch (R294). -/
structure Breakpoint where
  on : Bool
  addr : DWord
  gtid : DWord
  mask : DWord
  deriving DecidableEq, Repr

/-- A launch that has been examined and has not completed (R262-R283), keyed by its number: the card, where it came
from, what admission decided, and the launch context of R281. -/
structure Launch where
  card : BitVec 1024
  page : Nat
  slot : Nat
  /-- Its place in its stream. -/
  seq : Nat
  tag : Nat
  fid : Nat
  info : Byte
  /-- The first error, which the completion record will report: `none` while nothing has failed (R44, R265, R296). -/
  failed : Option Code
  /-- The launch ends in error: cohorts not yet started never start, and resident ones are ended (R44). -/
  ended : Bool
  reason : Byte
  start : Nat
  det : Word
  rep : Word
  retired : Nat
  faults : Nat
  /-- Retirement scoreboard of runs A and B (R271). -/
  boardA : List Nat
  boardB : List Nat
  /-- Ticket counters by 2 x die index + run (R269). -/
  tickets : SMap Tickets
  parked : List Parked
  /-- Replica mode: tickets that a die has stolen, as cohort index, run B, die (R270, R282). -/
  moved : List (Nat × Bool × Nat)
  /-- BATCH: next record of runs A and B, and the quads that take part (R272). -/
  batchNext : Nat
  batchNextB : Nat
  batchQuads : List Nat
  /-- PLACED: quads reserved, panel-wide (R273). -/
  placed : List Nat
  sigA : BitVec 128
  sigB : BitVec 128
  /-- Steps of 2 ms waited (R268). -/
  aged : Nat
  /-- The watchdog has begun to count (R283). -/
  dispatched : Bool
  /-- Clk that the watchdog has counted (R281, R283). -/
  watched : Nat
  brks : Vector Breakpoint 16
  deriving DecidableEq, Repr

/-- A stream: one submission slot (R260, R261): queued cards, oldest first, the number of cards examined, the places of
the launches not yet complete, and the launches completed. -/
structure Stream where
  queue : List (BitVec 1024)
  seq : Nat
  open_ : List Nat
  done : Nat
  deriving DecidableEq, Repr

/-- A submission page (R260): the region tag and tenant it is tied to, system or tenant, suspended. -/
structure Page where
  tag : Nat
  system : Bool
  suspended : Bool
  deriving DecidableEq, Repr

/-- A region table entry (R303). -/
structure Region where
  x0 : Nat
  y0 : Nat
  width : Nat
  height : Nat
  tenant : Nat
  grants : BitVec 256
  deriving DecidableEq, Repr

/-- What the hypervisor sets for a tenant (R119, R300, R301): the bases of its range entries and page table root. -/
structure Tenant where
  ranges : Nat
  root : Nat
  ceiling : Nat
  deadline : Nat
  vmap : List Nat
  deriving DecidableEq, Repr

/-- A translation a gateway holds (R299): tenant, VA range, PA of its first byte, permissions, type, and the mapping
size code of R214. -/
structure TlbEntry where
  tenant : Nat
  lo : Nat
  hi : Nat
  pa : Nat
  r : Bool
  w : Bool
  x : Bool
  ty : BitVec 2
  size : Nat
  deriving DecidableEq, Repr

/-- A thermal or current sensor (R328): its last reading, for how many samples it has read the same, for how many it has
differed from its neighbours, and whether it is quarantined. -/
structure Sensor where
  last : Int
  same : Nat
  differ : Nat
  bad : Bool
  deriving DecidableEq, Repr

/-- A physical quad (R11, R328, R329): its sensors, whether it is held at P6 until boot, and the limit that holds it. -/
structure PQuad where
  t0 : Sensor
  t1 : Sensor
  amp : Sensor
  fallback : Bool
  limit : Option Int
  deriving DecidableEq, Repr

/-- A logical quad: local memory, resident team, applied fidelity, remap entry, arbiter deficits, operating point, a
change of point in progress, and points Gwemon has lowered it by (R20, R23, R27, R122, R277, R324, R326). -/
structure Quad where
  ql : Mem
  team : Option (Nat × Nat)
  fid : Nat
  valid : Bool
  mig : Bool
  mcount : Nat
  pquad : Nat
  deficit : Vector Nat 4
  point : Nat
  changing : Option Nat
  lowered : Nat
  /-- The spare that the team is moving to (R305). -/
  target : Option Nat
  /-- The clk of the last droop record (R340). -/
  droopAt : Option Nat
  deriving DecidableEq, Repr

/-- A cluster: power tokens (R194, R278) and boost (R327); `ran` is the clk at which one of its arrays last ran an `mma`. -/
structure Cluster where
  tokens : Nat
  burst : Bool
  ran : Nat
  claim : Option Nat
  boostClaim : Option Nat
  grant : Bool
  permits : Nat
  falling : Bool
  deriving DecidableEq, Repr

/-- A ring of records (R330); `on` holds the ENABLE bits of a die ring. -/
structure Ring where
  base : DWord
  size : DWord
  widx : DWord
  ridx : DWord
  lost : Word
  seq : Word
  on : BitVec 2
  deriving DecidableEq, Repr

/-- A logical die: remap entry, free tokens, panel block, mailbox, TLB, round-robin pointer of each level, ring (R20,
R268, R278, R288, R289, R299, R330). -/
structure Die where
  site : Nat
  valid : Bool
  tokens : Nat
  fpbase : DWord
  fpsize : DWord
  /-- The place in the pool's ring that the next frame takes (R289). -/
  fpnext : Nat
  fp : List DWord
  fpovf : Bool
  resolve0 : DWord
  mailbox : List TrapRecord
  tlb : List TlbEntry
  rr : SMap Nat
  ring : Ring
  deriving DecidableEq, Repr

/-- A profiling session (R332). -/
structure Session where
  open_ : Bool
  sumbar : BitVec 5
  sper : BitVec 5
  slots : Vector (BitVec 16) 16
  absent : Vector Bool 16
  total : Vector DWord 16
  ring : Ring
  deriving DecidableEq, Repr

/-- The registers of a Plaza core: submission status, panel access status, SHADOW (R290, R310, R336), and the address and
bytes that a load-reserved of the core has reserved (R257). -/
structure Core_ where
  subValid : Bool
  subStatus : Byte
  accValid : Bool
  accOff : Word
  accCode : Byte
  shValid : Bool
  shTag : Byte
  shSlot : BitVec 4
  shHigh : Word
  resv : Option (Nat × Nat)
  deriving DecidableEq, Repr

/-- An MSI-X entry (R311). -/
structure Msix where
  owner : Nat
  masked : Bool
  pending : Bool
  deriving DecidableEq, Repr

/-- A host port (R255, R256, R306, R307, R308, R311). -/
structure Port where
  mem : Mem
  bar4base : Nat
  bar4size : Nat
  cxl : Bool
  /-- Edge-memory lines that a host agent may hold (R256). -/
  cached : List Nat
  /-- Lines whose back-invalidation awaits its response. -/
  asked : List Nat
  /-- Host stores sent and not yet completed by a flushing read: access numbers (R255). -/
  unflushed : List Nat
  msix : SMap Msix
  misroute : Nat
  deriving DecidableEq, Repr

/-- A span port (R314): lanes, 0 when lost; retraining. -/
structure Span where
  lanes : Nat
  retraining : Bool
  deriving DecidableEq, Repr

/-- A die-to-die link (R318): failed lanes, width, closed while it sheds. -/
structure Link where
  bad : BitVec 16
  lanes : Nat
  closed : Bool
  deriving DecidableEq, Repr

/-- A firmware slot (R319). -/
structure Slot where
  img : Image
  invalid : Bool
  deriving DecidableEq, Repr

/-- The management controller (R319-R324). -/
structure Mgmt where
  slotA : Option Slot
  slotB : Option Slot
  activeA : Bool
  /-- The slot that runs, if any: true is A. -/
  running : Option Bool
  confirmed : Bool
  /-- The inactive slot holds an update that has not yet been booted (R319; log 25). -/
  fresh : Bool
  minVersion : Nat
  keyIndex : Nat
  /-- Last boot step completed (Table 23-7). -/
  step : Nat
  recovery : Bool
  passing : Nat
  rails : Bool
  undervolt : Bool
  /-- Samples of module input power in the last 10 ms, newest first, in watts. -/
  power : List Nat
  /-- Events that Gwemon has logged: the physical quads that have fallen back to P6, newest first (R328). -/
  events : List Nat
  deriving DecidableEq, Repr

/-- What a lifetime count counts (Table 25-8). -/
inductive Life where
  | corrected (unit : Nat)
  | uncorrectable (unit : Nat)
  /-- Histograms, in samples of 10 µs: 100,000 to a second. -/
  | thermal (site bin : Nat)
  | vh (site bin : Nat)
  | det (site : Nat)
  | rep (site : Nat)
  | shed (link : Nat)
  | retrain (port : Nat)
  | loss (port : Nat)
  | migration (pq : Nat)
  | quarantine (pq : Nat)
  | droop (pq : Nat)
  | boots
  | reverts
  | attest
  deriving DecidableEq, Repr

/-- A request descriptor being served (R289): PREEMPT or RESTORE, cohorts still to save or restore, areas used, and the cohorts that
have halted, in the order in which they did. -/
structure Request where
  addr : DWord
  restore : Bool
  table : DWord
  count : Nat
  todo : List Nat
  order : List Nat
  used : Nat
  done : Nat
  tooFew : Bool
  deriving DecidableEq, Repr

/-- A context save area (R297): the cohort, its tiles, its quad memories, and what was in flight. -/
structure Area where
  key : Nat
  cohort : Cohort
  tiles : SMap Tile
  ql : SMap Mem
  accs : List Access
  msgs : List Msg
  /-- Sums of open barrier phases, by 32 x home tile + barrier (R335). -/
  sums : SMap (Vector Word 16)
  deriving DecidableEq, Repr

/-- Data or an end token that a streamer holds of a producer of a stream, and how many bytes of it each subscriber has
had: one more than its length once a token has been forwarded (R226). -/
structure StreamItem where
  stream : Nat
  prod : Nat
  bytes : List Byte
  eos : Bool
  given : SMap Nat
  deriving DecidableEq, Repr

/-- A piece of memory with a check of its own that an error meets (R342, R344): a 64-byte granule of edge memory (CRC-32C), an
aligned 8 bytes of a scratchpad or quad memory (SEC-DED), a version byte (parity), or a frame. -/
inductive Damage where
  /-- The check that stands beside the granule, where it may not be the one of its bytes. -/
  | edge (granule : Nat) (check : Word)
  | sp (tile word : Nat)
  | ql (quad word : Nat)
  | ver (tile word : Nat)
  | frame (addr : Nat)
  deriving DecidableEq, Repr

/-- Whose write a home of edge memory performs, as far as the home keeps it in order with others: a host port (R256), a record ring,
with the WIDX that stands before its record (R330), or another. -/
inductive Writer where
  | port (n : Nat)
  | ring (r : RingName) (at_ : DWord)
  | other
  deriving DecidableEq, Repr

/-- A write that a home of edge memory holds (R256). -/
structure HeldWrite where
  writer : Writer
  pa : Nat
  bytes : List Byte
  deriving DecidableEq, Repr

/-- The sampling pulse (R337): tick, and the clusters whose record is not yet written. -/
structure Pulse where
  tick : DWord
  todo : List Nat
  deriving DecidableEq, Repr

/-- An interrupt that has left the panel (R264, R311, R328): an MSI-X message of a port, or a Plaza interrupt of a die. -/
inductive Irq where
  | msix (port vec : Nat)
  | plaza (die num : Nat)
  | thermal (die : Nat)
  deriving DecidableEq, Repr

/-- How a request of the outside was answered. -/
inductive Answer where
  | done
  /-- Sent with the poison bit EP set (R344). -/
  | poisoned
  | retry
  /-- The request stands at its home until host agents have given up its line (R256). -/
  | held
  | unsupported
  | discarded
  | exhausted
  deriving DecidableEq, Repr

/-- MODEL: what the last access of the outside returned: its answer and its bytes. -/
structure Reply where
  answer : Answer
  bytes : List Byte
  deriving DecidableEq, Repr

/-- What a turn lets happen next. -/
inductive Act where
  /-- The access side of a tile issues its next bundle or carries out the A word of a bundle already pushed. -/
  | access (t : Nat)
  /-- The execute side of a tile runs the head of its X instruction queue. -/
  | execute (t : Nat)
  /-- A step of the table. -/
  | event (i : Instr)
  deriving DecidableEq, Repr

/-- MODEL: one entry of the agenda: clk that pass, and what happens then. -/
structure Turn where
  dt : Nat
  act : Act
  deriving DecidableEq, Repr

/-- MODEL: the bundle or X instruction that `exec` is carrying out: its tile, its address, its EXT, whether it is a lone
bundle, the guard slot that its own X word opened (0 for none), whether this turn pushed its X instruction, and the
hold bits and EXT of an X instruction; `went` says that the bundle has issued. -/
structure Cur where
  tile : Nat
  pc : DWord
  ext : Word
  opened : Nat
  pushed : Bool
  went : Bool
  ha : Bool
  hb : Bool
  deriving DecidableEq, Repr

/-- The machine. -/
structure State where
  /-- MODEL: what happens next, in order; empty lets the fixed policy of Machine/Issue.lean choose. -/
  agenda : List Turn
  /-- MODEL: what `exec` is carrying out. -/
  cur : Cur
  /-- cr.cycle of every tile (R237, R238); MODEL: all tiles agree exactly. -/
  clk : Nat
  /-- MODEL: how many free values have been drawn. -/
  freeIdx : Nat
  /-- MODEL: the next number of an access, command or message, and of a task run. -/
  nextId : Nat
  nextAct : Nat
  tiles : SMap Tile
  quads : SMap Quad
  clusters : SMap Cluster
  dies : SMap Die
  pquads : SMap PQuad
  cohorts : SMap Cohort
  launches : SMap Launch
  nextLaunch : Nat
  pages : SMap Page
  streams : SMap Stream
  regions : SMap Region
  tenants : SMap Tenant
  edge : Mem
  /-- Writes that a home controller of edge memory holds, oldest first, until host agents have given up the line and the writes before them are
  done (R256). -/
  homeQ : List HeldWrite
  damage : List Damage
  /-- Granules in which a read meets a single-bit error, which it corrects and counts (R344). -/
  soft : List Damage
  ports : SMap Port
  accs : List Access
  net : List Msg
  frames : SMap Frame
  areas : SMap Area
  requests : List Request
  collTable : Nat
  /-- The words of a collective group's entry as they stood when its round in flight began (R316). -/
  rounds : SMap (DWord × DWord)
  streamTable : Nat
  streamQ : List StreamItem
  cores : SMap Core_
  sessions : SMap Session
  /-- Sums of open barrier phases at the Crossings, by 32 x home tile + barrier (R335). -/
  sums : SMap (Vector Word 16)
  pulse : Pulse
  spans : SMap Span
  /-- Peer modules that have been lost since boot, by their identifiers (R314). -/
  lostModules : List Nat
  links : SMap Link
  mgmt : Mgmt
  life : List (Life × Nat)
  lifeSaved : List (Life × Nat)
  irqs : List Irq
  reply : Reply
  deriving DecidableEq, Repr

/-- A named fault that stops the machine. No meaning raises one: every trap of the manual is a next state (R284). -/
inductive Fault where
  /-- Kept for a machine that cannot go on; raised by no meaning. Safe. -/
  | stuck
  deriving DecidableEq, Repr

/-- A named refusal. -/
inductive Refusal where
  /-- The instruction has no meaning in the model yet; raised by an arm of `exec` only. Safe. -/
  | notModelled (mnemonic : String)
  deriving DecidableEq, Repr

/-- A register that holds zero and is ready. -/
def AReg.zero : AReg := ⟨0#64, .ready⟩

/-- A loop that is not active (R130). -/
def Loop.off : Loop := ⟨0#32, 0#64, 0#64, 0#32, false⟩

/-- A guard slot at task start: one resolved generation of value false (R55). -/
def GuardSlot.fresh : GuardSlot := ⟨0, [some false]⟩

/-- The registers of a task at its start but for those that Table 1-8 sets (R36, R38, R59, R63, R64, R66, R238). -/
def Task.zero : Task :=
  { act := 0, gtid := 0#64, pc := 0#64, xpushed := false, depth := 0, a := Vector.replicate 16 AReg.zero,
    lc := Vector.replicate 2 Loop.off, k := Vector.replicate 4 0#32, g := Vector.replicate 48 0#32,
    p := Vector.replicate 8 false, v := Vector.replicate 16 0#256, acc := 0#32, latchA := ⟨0#256, true⟩,
    latchB := ⟨0#256, true⟩, taken := [],
    xinstr := [], xbusy := false, lq0 := [], lq1 := [], lqTail0 := 0, lqTail1 := 0, sq := [], xq := [],
    gd := Vector.replicate 8 GuardSlot.fresh, rm := 0#3, long := false, redq := 0#32, lfsr := 1#32, hold := none,
    inboxSlot := none, m := Vector.replicate 4 [], bl := none, ring := none, w := Vector.replicate 8 0#4096,
    skipbp := false, stepping := .no, filled63 := false }

/-- A barrier as Table 15-5 resets it. -/
def NBar.zero : NBar := ⟨0#16, 0#16, 0#56, 0#32, 0#32, 0#32, 0#32, 0#32⟩

/-- A tile on which no cohort has run. -/
def Tile.idle : Tile :=
  { run := .idle, halt := .none, task := Task.zero, sp := [], ver := [], guards := 0#3072, riNet := [], ri := [],
    e := Vector.replicate 8 none, ef := [], efWait := [], tt := Vector.replicate 64 .invalid,
    nbar := Vector.replicate 32 NBar.zero, det := 0#32, rep := 0#32, detSnap := 0#32, repSnap := 0#32, drop := 0#32,
    bins := none, binder := none, vshare := 1#4, inbox := Vector.replicate 8 none, deque := [], spill := [], slots := [],
    reserved := [], resident := [], overflow := [], unplaced := none, lines := [], badFetch := none, matq := [], copies := [], longq := [], chainq := [], chainRun := ⟨0, none, false⟩, lastChain := false,
    ringNet := none, forwarding := none, longWait := .none, replay := [], records := [], landing := none, closed := false, stuck := none,
    kept := [], backoff := false, chunk := none,
    counters := Vector.replicate 16 0#32, snap := Vector.replicate 16 0#32, waits := [], gap := 0, mark := none, lastIssue := none,
    latch := none }

/-- A quad before boot writes its remap entry (Table 1-5). -/
def Quad.blank : Quad :=
  { ql := [], team := none, fid := 0, valid := false, mig := false, mcount := 0, pquad := 0,
    deficit := Vector.replicate 4 0, point := 6, changing := none, lowered := 0, target := none, droopAt := none }

/-- A cluster at boot (R327: 64 permits). -/
def Cluster.blank : Cluster := ⟨0, false, 0, none, none, false, 64, false⟩

/-- A ring with every source off. -/
def Ring.off : Ring := ⟨0#64, 0#64, 0#64, 0#64, 0#32, 0#32, 0#2⟩

/-- A die before boot (Table 1-4), with its 12 tokens free (R278). -/
def Die.blank : Die :=
  { site := 0, valid := false, tokens := 12, fpbase := 0#64, fpsize := 8#64, fpnext := 0, fp := [], fpovf := false,
    resolve0 := 0#64, mailbox := [], tlb := [], rr := [], ring := Ring.off }

/-- A sensor not yet sampled. -/
def Sensor.fresh : Sensor := ⟨0, 0, 0, false⟩

/-- A physical quad at boot. -/
def PQuad.fresh : PQuad := ⟨Sensor.fresh, Sensor.fresh, Sensor.fresh, false, none⟩

/-- A session page at reset (Table 25-4). -/
def Session.closed : Session :=
  { open_ := false, sumbar := 0#5, sper := 0#5, slots := Vector.replicate 16 0#16, absent := Vector.replicate 16 false,
    total := Vector.replicate 16 0#64, ring := Ring.off }

/-- The registers of a Plaza core at reset (Tables 21-10, 23-3, 25-5). -/
def Core_.zero : Core_ := ⟨false, 0#8, false, 0#32, 0#8, false, 0#8, 0#4, 0#32, none⟩

/-- A host port before system software sets it up. -/
def Port.blank : Port := ⟨[], 0, 0, false, [], [], [], [], 0⟩

/-- The management controller before power (R319, R320): no image loaded. -/
def Mgmt.cold : Mgmt :=
  { slotA := none, slotB := none, activeA := true, running := none, confirmed := false, fresh := false, minVersion := 0, keyIndex := 0,
    step := 0, recovery := false, passing := 0, rails := false, undervolt := false, power := [], events := [] }

/-- No bundle. -/
def Cur.none : Cur := ⟨0, 0#64, 0#32, 0, false, false, false, false⟩

/-- The module right after reset, before POWER_ON (R320): nothing booted, nothing running, every memory blank (log 2),
every register at the value of its table or of logs 3 and 4. -/
def State.reset : State :=
  { agenda := [], cur := Cur.none, clk := 0, freeIdx := 0, nextId := 0, nextAct := 1, tiles := [], quads := [],
    clusters := [], dies := [], pquads := [], cohorts := [], launches := [], nextLaunch := 0, pages := [], streams := [],
    regions := [], tenants := [], edge := [], homeQ := [], damage := [], soft := [], ports := [], accs := [], net := [], frames := [],
    areas := [], requests := [], collTable := 0, rounds := [], streamTable := 0, streamQ := [], cores := [], sessions := [],
    sums := [], pulse := ⟨0#64, []⟩, spans := [], lostModules := [], links := [], mgmt := Mgmt.cold, life := [], lifeSaved := [],
    irqs := [], reply := ⟨.done, []⟩ }

end Sys2Proof.Machine
end

