-- ==== Sys2Proof/Machine/Map.lean ====
section
/-! DEFINITION. Sparse tables with rising keys, byte memories in canonical form, and little-endian words (R4). -/

namespace Sys2Proof.Machine

/-- The value at a key, or the default. -/
def smGet (d : α) (k : Nat) : SMap α → α
  | [] => d
  | (k', v) :: r => if k' == k then v else smGet d k r

/-- The value at a key, if listed. -/
def smFind (k : Nat) : SMap α → Option α
  | [] => none
  | (k', v) :: r => if k' == k then some v else smFind k r

/-- Sets a key, keeping keys rising. -/
def smSet (k : Nat) (v : α) : SMap α → SMap α
  | [] => [(k, v)]
  | (k', v') :: r => if k < k' then (k, v) :: (k', v') :: r else if k == k' then (k, v) :: r else (k', v') :: smSet k v r

/-- Removes a key. -/
def smErase (k : Nat) : SMap α → SMap α
  | [] => []
  | (k', v') :: r => if k' == k then r else (k', v') :: smErase k r

/-- Keys strictly rise. -/
def smSorted : SMap α → Bool
  | [] => true
  | [_] => true
  | (k, _) :: (k', v) :: r => decide (k < k') && smSorted ((k', v) :: r)

/-- What an unlisted byte of a memory reads as (log 2). -/
def blank : Byte := 0#8

/-- The canonical form of a byte memory: rising addresses, and no entry equal to what an unlisted address reads as. -/
def memWf (m : Mem) : Bool := smSorted m && m.all fun c => c.2 != blank

/-- One byte of a memory. -/
def memGet (m : Mem) (a : Nat) : Byte := smGet blank a m

/-- A memory with one byte written, in canonical form. -/
def memSet (m : Mem) (a : Nat) (b : Byte) : Mem := if b == blank then smErase a m else smSet a b m

/-- `n` bytes from address `a`. -/
def memRead (m : Mem) (a : Nat) : Nat → List Byte
  | 0 => []
  | n + 1 => memGet m a :: memRead m (a + 1) n

/-- Writes bytes from address `a`. -/
def memWrite (m : Mem) (a : Nat) : List Byte → Mem
  | [] => m
  | b :: r => memWrite (memSet m a b) (a + 1) r

/-- The number that bytes spell, lowest first (R4). -/
def leNat : List Byte → Nat
  | [] => 0
  | b :: r => b.toNat + 256 * leNat r

/-- The lowest `n` bytes of a number, lowest first (R4). -/
def leBytes (v : Nat) : Nat → List Byte
  | 0 => []
  | n + 1 => BitVec.ofNat 8 v :: leBytes (v / 256) n

/-- A doubleword of a memory. -/
def memDWord (m : Mem) (a : Nat) : DWord := BitVec.ofNat 64 (leNat (memRead m a 8))

/-- A word table that lists no zero: an accumulator. -/
def wordSet (m : SMap Word) (k : Nat) (v : Word) : SMap Word := if v == 0#32 then smErase k m else smSet k v m

/-- The entries of a memory from `lo` up to `lo + n`, with their addresses. -/
def memSlice (m : Mem) (lo n : Nat) : Mem := m.filter fun c => lo ≤ c.1 && c.1 < lo + n

/-- A memory without the bytes from `lo` up to `lo + n`: they read as unlisted. -/
def memClear (m : Mem) (lo n : Nat) : Mem := m.filter fun c => !(lo ≤ c.1 && c.1 < lo + n)

/-- Puts an element before the first one that it does not exceed. -/
def insertBy (le : α → α → Bool) (x : α) : List α → List α
  | [] => [x]
  | y :: r => if le x y then x :: y :: r else y :: insertBy le x r

/-- A list in increasing order. -/
def sortBy (le : α → α → Bool) (l : List α) : List α := l.foldr (insertBy le) []

/-- Replaces the first element that satisfies a test. -/
def replaceFirst (p : α → Bool) (f : α → α) : List α → List α
  | [] => []
  | x :: r => if p x then f x :: r else x :: replaceFirst p f r

/-- Numbers from `lo`, `n` of them. -/
def upFrom (lo : Nat) : Nat → List Nat
  | 0 => []
  | n + 1 => lo :: upFrom (lo + 1) n

end Sys2Proof.Machine
end

