-- ==== Sys2Proof/Machine/Ops.lean ====
section
/-! DEFINITION. The shared operations: where things are on the panel (R7-R19), the registers of the acting task, the end
of a bundle with its hardware loops (R65, R123, R128), the waits of the access side (R133, R136, R142), guard slots
(R55), faults and the taking of a trap (R69, R135, R285-R287), accesses and messages. -/

namespace Sys2Proof.Machine

/-! ## Where things are (R7-R19) -/

/-- x and y of a tile identifier (R14). -/
def tileX (t : Nat) : Nat := t % 256
def tileY (t : Nat) : Nat := t / 256 % 256

/-- Panel-wide cluster number of a tile (Table 1-1). -/
def clusterOf (t : Nat) : Nat := tileY t / 16 * 16 + tileX t / 16

/-- Logical quad number of a tile within its cluster (Table 1-1). -/
def quadIn (t : Nat) : Nat := tileY t / 2 % 8 * 8 + tileX t / 2 % 8

/-- Panel-wide key of a tile's quad. -/
def quadOf (t : Nat) : Nat := clusterOf t * 64 + quadIn t

/-- Quad tile index (R14). -/
def qidx (t : Nat) : Nat := tileY t % 2 * 2 + tileX t % 2

/-- Logical die of a tile (Table 1-1). -/
def dieOf (t : Nat) : Nat := tileY t / 32 * 8 + tileX t / 32

/-- Logical die of a cluster. -/
def dieOfCluster (c : Nat) : Nat := c / 32 * 8 + c % 16 / 2

/-- The tile of a quad with a quad tile index. -/
def tileAt (q i : Nat) : Nat :=
  (q / 64 / 16 * 16 + q % 64 / 8 * 2 + i / 2 % 2) * 256 + (q / 64 % 16 * 16 + q % 64 % 8 * 2 + i % 2)

/-- The four clusters of a die, in increasing number within the die (Table 1-1). -/
def clustersOfDie (d : Nat) : List Nat :=
  let b := d / 8 * 32 + d % 8 * 2
  [b, b + 1, b + 16, b + 17]

/-! ## Reading and writing the tables of the state -/

def tileOf (s : State) (t : Nat) : Tile := smGet Tile.idle t s.tiles
def setTile (s : State) (t : Nat) (v : Tile) : State := { s with tiles := smSet t v s.tiles }
def quadAt (s : State) (q : Nat) : Quad := smGet Quad.blank q s.quads
def setQuad (s : State) (q : Nat) (v : Quad) : State := { s with quads := smSet q v s.quads }
def clusterAt (s : State) (c : Nat) : Cluster := smGet Cluster.blank c s.clusters
def setCluster (s : State) (c : Nat) (v : Cluster) : State := { s with clusters := smSet c v s.clusters }
def dieAt (s : State) (d : Nat) : Die := smGet Die.blank d s.dies
def setDie (s : State) (d : Nat) (v : Die) : State := { s with dies := smSet d v s.dies }
def coreAt (s : State) (c : Nat) : Core_ := smGet Core_.zero c s.cores
def setCore (s : State) (c : Nat) (v : Core_) : State := { s with cores := smSet c v s.cores }
def portAt (s : State) (p : Nat) : Port := smGet Port.blank p s.ports
def setPort (s : State) (p : Nat) (v : Port) : State := { s with ports := smSet p v s.ports }
def sessionAt (s : State) (g : Nat) : Session := smGet Session.closed g s.sessions
def setSession (s : State) (g : Nat) (v : Session) : State := { s with sessions := smSet g v s.sessions }
def pquadAt (s : State) (p : Nat) : PQuad := smGet PQuad.fresh p s.pquads
def setPQuad (s : State) (p : Nat) (v : PQuad) : State := { s with pquads := smSet p v s.pquads }
def setCohort (s : State) (k : Nat) (c : Cohort) : State := { s with cohorts := smSet k c s.cohorts }
def setLaunch (s : State) (k : Nat) (l : Launch) : State := { s with launches := smSet k l s.launches }

/-! ## Lifetime counts (R341) -/

/-- Where a lifetime count stops: 64 bits for DET and REP, 32 bits of seconds for the histograms, whose samples are 10 µs apart,
and 32 bits for the rest (Table 25-8). -/
def lifeTop (k : Life) : Nat :=
  match k with
  | .det _ | .rep _ => 2 ^ 64 - 1
  | .thermal _ _ | .vh _ _ => 100000 * 2 ^ 32 - 1
  | _ => 2 ^ 32 - 1

/-- More of a lifetime count, saturating. -/
def bumpLife (s : State) (k : Life) (n : Nat) : State :=
  let old := ((s.life.find? fun e => e.1 == k).map (·.2)).getD 0
  { s with life := (k, min (old + n) (lifeTop k)) :: s.life.filter (·.1 != k) }

/-- The physical site of a cluster's die. -/
def siteOf (s : State) (c : Nat) : Nat := (dieAt s (dieOfCluster c)).site

/-- The number of a physical quad of a cluster among those of all sites: remapping moves no wear (R341). -/
def wearOf (s : State) (p : Nat) : Nat :=
  (siteOf s (p / 72) * 4 + (clustersOfDie (dieOfCluster (p / 72))).idxOf (p / 72)) * 72 + p % 72

/-! ## The granule check (R342) -/

/-- One bit of CRC-32C, bit-reflected. -/
def crcBit (c : Word) : Word := if c.getLsbD 0 then (c >>> 1) ^^^ 0x82f63b78#32 else c >>> 1

/-- CRC-32C with the polynomial 0x1EDC6F41, bit-reflected, from 0xFFFFFFFF, with the final exclusive-or (R342). -/
def crc32c (bs : List Byte) : Word :=
  (bs.foldl (fun (c : Word) b => Nat.repeat crcBit 8 (c ^^^ b.setWidth 32)) 0xffffffff#32) ^^^ 0xffffffff#32

/-! ## Edge memory (R256, R257, R342-R344) -/

/-- The 64-byte lines that `n` bytes from `pa` meet. -/
def linesOf (pa n : Nat) : List Nat := upFrom (pa / 64) ((pa + n - 1) / 64 - pa / 64 + 1)

/-- Some host agent may hold the line of an address (R256). -/
def hostHolds (s : State) (pa : Nat) : Bool := s.ports.any fun p => p.2.cached.contains (pa / 64)

/-- The first line of a range that a host agent may hold (R256). -/
def heldLine (s : State) (pa n : Nat) : Option Nat := (linesOf pa n).find? fun l => hostHolds s (64 * l)

/-- Asks for the back-invalidation of a line (R256). -/
def askBack (s : State) (line : Nat) : State :=
  { s with
    ports := s.ports.map fun p =>
      if p.2.cached.contains line && !p.2.asked.contains line then (p.1, { p.2 with asked := line :: p.2.asked }) else p }

/-- A write that a home holds meets these bytes. -/
def queuedAt (s : State) (pa n : Nat) : Bool := s.homeQ.any fun w => (linesOf w.pa w.bytes.length).any (linesOf pa n).contains

/-- The line that keeps a write back at its home: one that a host agent may hold, or one that a held write meets (R256). -/
def homeLine (s : State) (pa n : Nat) : Option Nat :=
  (heldLine s pa n).orElse fun _ => if queuedAt s pa n then some (pa / 64) else none

/-- A write of the same port, or of the same ring, is still held: what comes behind it stays behind it (R256, R330). -/
def behind (s : State) (w : Writer) : Bool :=
  match w with
  | .port n => s.homeQ.any (·.writer == .port n)
  | .ring r _ => s.homeQ.any fun h => match h.writer with
    | .ring x _ => x == r
    | _ => false
  | .other => false

/-- A write's home holds it. -/
def homeHolds (s : State) (w : Writer) (pa n : Nat) : Bool := (homeLine s pa n).isSome || behind s w

/-- A store ends every reservation of a Plaza core that it meets (R257; log 93). -/
def dropResv (s : State) (pa n : Nat) : State :=
  { s with
    cores := s.cores.map fun c =>
      match c.2.resv with
      | some (a, k) => if a < pa + n && pa < a + k then (c.1, { c.2 with resv := none }) else c
      | none => c }

/-- The bytes meet a granule. -/
def metBy (pa n : Nat) (d : Damage) : Bool :=
  match d with
  | .edge g _ => pa / 64 ≤ g && g ≤ (pa + n - 1) / 64
  | _ => false

/-- The bytes fill a granule. -/
def filledBy (pa n : Nat) (d : Damage) : Bool :=
  match d with
  | .edge g _ => pa ≤ 64 * g && 64 * g + 64 ≤ pa + n
  | _ => false

/-- The check that stands beside a granule is not that of its bytes (R342); of the other pieces only the error itself is kept. -/
def fails (s : State) (d : Damage) : Bool :=
  match d with
  | .edge g c => c != crc32c (memRead s.edge (64 * g) 64)
  | _ => true

/-- A write of part of a granule whose old check fails (R343). -/
def badMerge (s : State) (pa n : Nat) : Bool := s.damage.any fun d => metBy pa n d && !filledBy pa n d && fails s d

/-- The unit that counts the errors of an address of edge memory: its HBM stack (Table 25-8). -/
def stackOf (pa : Nat) : Nat := 72 + pa / 4096 % 64

/-- The home of edge memory performs a write and makes the checks of its granules anew; it merges nothing into a granule whose old check
fails, and counts that (R342-R344). -/
def edgePut (s : State) (pa : Nat) (bs : List Byte) : State :=
  if badMerge s pa bs.length then bumpLife s (.uncorrectable (stackOf pa)) 1
  else
    { (dropResv s pa bs.length) with
      edge := memWrite s.edge pa bs
      damage := s.damage.filter fun d => !metBy pa bs.length d }

/-- Asks for the back-invalidation of all lines of a range (R256). -/
def askLines (s : State) (pa n : Nat) : State := ((linesOf pa n).filter fun l => hostHolds s (64 * l)).foldl askBack s

/-- A write reaches its home from an agent that goes on at once: it is performed, or held behind the back-invalidation of its
lines, behind the writes already held there, and behind those that its writer sent before it (R256, R330). -/
def edgeStoreFrom (s : State) (w : Writer) (pa : Nat) (bs : List Byte) : State :=
  if homeHolds s w pa bs.length then { (askLines s pa bs.length) with homeQ := s.homeQ ++ [⟨w, pa, bs⟩] }
  else edgePut s pa bs

/-- A write of an agent that its home keeps in order only with what meets the same lines. -/
def edgeStore (s : State) (pa : Nat) (bs : List Byte) : State := edgeStoreFrom s .other pa bs

/-- Performs the held writes that nothing keeps back any more, in their order (R256). -/
def drainHome : List HeldWrite → State → State
  | [], s => s
  | h :: r, s => drainHome r (edgeStoreFrom s h.writer h.pa h.bytes)

/-- The key of a cohort: its launch, its linear index, its run (R31, R282). -/
def cohortKey (launch index : Nat) (runB : Bool) : Nat := (launch * 2 ^ 32 + index) * 2 + if runB then 1 else 0

/-- The cohort whose team holds a tile's quad, with the team's place in it, where the tile is one that runs a task
(R27). -/
def cohortOf (s : State) (t : Nat) : Option (Nat × Cohort × Nat) :=
  match (quadAt s (quadOf t)).team with
  | some (key, j) =>
    match smFind key s.cohorts with
    | some c => if qidx t < c.size then some (key, c, j) else none
    | none => none
  | none => none

/-- Tile of a serial of a cohort's initial tasks (R32). -/
def tileOfSerial (c : Cohort) (n : Nat) : Nat :=
  tileAt (c.cluster * 64 + (c.quads[n / c.size]?).getD 0) (n % c.size)

/-- The number of initial tasks of a cohort: T x S (R32). -/
def cohortTasks (c : Cohort) : Nat := c.quads.length * c.size

/-- Every tile of a cohort, in serial order (R32, R61). -/
def cohortTiles (c : Cohort) : List Nat := (upFrom 0 (cohortTasks c)).map (tileOfSerial c)

/-- Both tiles belong to the same cohort (R24). -/
def sameCohort (s : State) (t u : Nat) : Bool :=
  match cohortOf s t, cohortOf s u with
  | some (k, _, _), some (k', _, _) => k == k'
  | _, _ => false

/-- The region tag of a cluster (R303): the tag of the rectangle it lies in, 0 outside every region. -/
def tagOfCluster (s : State) (c : Nat) : Nat :=
  match s.regions.find? fun e =>
      let r := e.2
      r.x0 ≤ c % 16 && c % 16 < r.x0 + r.width && r.y0 ≤ c / 16 && c / 16 < r.y0 + r.height with
  | some e => e.1
  | none => 0

def tagOf (s : State) (t : Nat) : Nat := tagOfCluster s (clusterOf t)

/-- The launch of the cohort on a tile; 0 where none. -/
def launchOf (s : State) (t : Nat) : Nat :=
  match cohortOf s t with
  | some (_, c, _) => c.launch
  | none => 0

/-! ## Trap codes (Table 21-1) -/

/-- The number of a code. -/
def codeNum : Code → Nat
  | .illegalEncoding => 0x01 | .privilege => 0x02 | .align => 0x03 | .xlate => 0x04 | .guardTouch => 0x05
  | .peerGone => 0x06 | .kerbRefused => 0x07 | .formatReserved => 0x08 | .tensorUndefined => 0x09
  | .versionRange => 0x0a | .engineFail => 0x0b | .brk => 0x0c | .step => 0x0d | .watchdog => 0x0e
  | .sysRequest => 0x0f | .commandInvalid => 0x10 | .spawnDepth => 0x11 | .userTrap => 0x12 | .halted => 0x13
  | .dataError => 0x14 | .featureMissing => 0x20 | .illegalCycle => 0x21 | .replicaMismatch => 0x22
  | .regionTooSmall => 0x23 | .fidelityClamped => 0x24 | .cardInvalid => 0x25 | .aborted => 0x26

/-! ## The acting tile and its task -/

def curTile (s : State) : Tile := tileOf s s.cur.tile
def curTask (s : State) : Task := (curTile s).task
def setCurTile (s : State) (v : Tile) : State := setTile s s.cur.tile v
def setCurTask (s : State) (v : Task) : State := setCurTile s { curTile s with task := v }

/-- Value of an a-register; a0 reads zero (R57). -/
def rdA (s : State) (n : BitVec 4) : DWord := if n == 0#4 then 0#64 else (curTask s).a[n.toFin].val

/-- Puts a register's whole content; a0 stays zero (R57). -/
def Task.putA (t : Task) (n : BitVec 4) (r : AReg) : Task :=
  if n == 0#4 then t else { t with a := t.a.set n.toFin r }

/-- Writes an a-register, which clears its poison (R57, R143). -/
def wrA (s : State) (n : BitVec 4) (v : DWord) : State := setCurTask s ((curTask s).putA n ⟨v, .ready⟩)

/-! ## Event counters (R333, R334) -/

/-- Adds with saturation at 0xFFFF_FFFF. -/
def satAdd (a : Word) (n : Nat) : Word := if a.toNat + n < 2 ^ 32 then a + BitVec.ofNat 32 n else 0xffffffff#32

/-- Counts `n` of a portable event on a tile, in every counter whose slot names it, while the session of its region is
open (R333). -/
def countEvent (s : State) (t ev n : Nat) : State :=
  let se := sessionAt s (tagOf s t)
  if se.open_ then
    let tl := tileOf s t
    setTile s t { tl with counters := Vector.zipWith (fun (c : Word) (e : BitVec 16) =>
      if e.toNat == ev && ev != 0 then satAdd c n else c) tl.counters se.slots }
  else s

/-- An event counted in clk whose condition holds for a tile now: it counts in every clk until that is looked at again (R333). -/
def markWait (s : State) (t ev : Nat) : State :=
  let tl := tileOf s t
  if tl.waits.contains ev then s else setTile s t { tl with waits := ev :: tl.waits }

/-- The condition of these events is looked at again. -/
def clearWaits (s : State) (t : Nat) (evs : List Nat) : State :=
  let tl := tileOf s t
  if tl.waits.any evs.contains then setTile s t { tl with waits := tl.waits.filter fun e => !evs.contains e } else s

/-- Both sides of a tile may work for its task: nothing is counted on an idle or a halted tile (R333). -/
def runsTask (tl : Tile) : Bool :=
  tl.run != .idle && (tl.halt == .none || tl.halt == .held true || tl.halt == .preempt false)

/-- `n` clk pass for the events that a tile waits in (R333). -/
def countWaits (n : Nat) (s : State) (t : Nat) : State :=
  if runsTask (tileOf s t) then (tileOf s t).waits.foldl (fun s ev => countEvent s t ev n) s else s

/-! ## Guard slots (R55) -/

/-- The newest generation of a slot opened before the acting bundle, with its number: an own `gset` is passed over
(R55 item 2). -/
def newestGen (s : State) (slot : BitVec 3) : Nat × Option Bool :=
  let g := (curTask s).gd[slot.toFin]
  if slot.toNat == s.cur.opened then (g.newest - 1, (g.hist[1]?).getD (some false))
  else (g.newest, (g.hist[0]?).getD (some false))

/-- The guard of a command that names a slot (R55 items 2 to 5). -/
def bindGuard (s : State) (slot : BitVec 3) : Guard :=
  if slot == 0#3 then .free
  else
    match newestGen s slot with
    | (_, some true) => .free
    | (_, some false) => .discarded
    | (n, none) => .bound slot.toNat n

/-- Unresolved generations of a slot. -/
def unresolved (g : GuardSlot) : Nat := (g.hist.filter (·.isNone)).length

/-- Opens a generation (R55 item 1). -/
def GuardSlot.openGen (g : GuardSlot) : GuardSlot := ⟨g.newest + 1, (none :: g.hist).take 10⟩

/-- Takes back the newest generation. -/
def GuardSlot.closeGen (g : GuardSlot) : GuardSlot := ⟨g.newest - 1, g.hist.drop 1⟩

/-- Resolves the oldest unresolved generation (R55 item 3). -/
def GuardSlot.resolveGen (g : GuardSlot) (v : Bool) : GuardSlot :=
  ⟨g.newest, (replaceFirst (·.isNone) (fun _ => some v) g.hist.reverse).reverse⟩

/-- The guard after a generation has resolved (R55 item 6). -/
def Guard.resolve (g : Guard) (slot gen : Nat) (v : Bool) : Guard :=
  match g with
  | .bound n m => if n == slot && m == gen then (if v then .free else .discarded) else g
  | _ => g

def Guard.isBound : Guard → Bool
  | .bound _ _ => true
  | _ => false

/-- Commands of a tile's task that a guard holds (R55 item 9). -/
def heldCount (s : State) (t : Nat) : Nat :=
  let tl := tileOf s t
  (tl.matq.filter (·.guard.isBound)).length + (tl.copies.filter (·.cmd.guard.isBound)).length +
    (tl.chainq.filter (·.guard.isBound)).length + (s.accs.filter fun a => a.tile == t && a.guard.isBound).length +
    (s.net.filter fun m => m.src == t && m.guard.isBound).length

/-! ## The X instruction queue and the end of a bundle (R49, R65) -/

/-- The slip: entries of the X instruction queue, without one that the execute side has taken and that waits (R49). -/
def Task.slip (k : Task) : Nat := k.xinstr.length - if k.xbusy then 1 else 0

/-- The marked bundle of a tagged sample waits for this cause; the last one before it issues stays (R339; log 111). -/
def noteCause (s : State) (t cause : Nat) : State :=
  let tl := tileOf s t
  match tl.mark with
  | some m => if m.out then s else setTile s t { tl with mark := some { m with cause := cause } }
  | none => s

/-- The marked bundle of a tagged sample has issued: its slip, and whether it has made an access (R339). -/
def Mark.issue (s : State) (t : Nat) (m : Mark) : Mark :=
  if m.out then m
  else
    { m with
      out := true
      slip := (tileOf s t).task.slip
      access := s.accs.any fun a => a.tile == t && a.gtid == m.gtid && a.pc == m.pc && m.from_ ≤ a.id }

/-- Takes back what this turn pushed: the bundle has not issued. -/
def unpush (s : State) : State :=
  if s.cur.pushed then
    let t := curTask s
    let gd := if s.cur.opened == 0 then t.gd
      else t.gd.set (s.cur.opened % 8) (t.gd[s.cur.opened % 8]'(Nat.mod_lt _ (by decide))).closeGen (Nat.mod_lt _ (by decide))
    setCurTask s { t with xinstr := t.xinstr.dropLast, gd := gd }
  else s

/-- The bundle waits before issue: nothing of it has happened (R133). -/
def holdBundle (s : State) (cause : Nat := 7) : State := noteCause (unpush s) s.cur.tile cause

/-- The bundle waits with its X instruction pushed and its A word not yet done (R49, R69). -/
def waitBundle (s : State) (cause : Nat := 7) : State :=
  noteCause (if s.cur.pushed then setCurTask s { curTask s with xpushed := true } else s) s.cur.tile cause

/-- The bundle waits on xq or a guard slot: a waiting clk is counted (R56, R334). -/
def waitBranch (s : State) (cause : Nat := 4) : State := waitBundle (markWait s s.cur.tile 4) cause

/-- The acting bundle has pushed an X instruction, now or earlier. -/
def hasPushed (s : State) : Bool := s.cur.pushed || (curTask s).xpushed

/-- Loop state and next PC after the bundle at `pc` falls through (R65, R130). -/
def loopNext (lc : Vector Loop 2) (pc : DWord) : Vector Loop 2 × DWord :=
  let l0 := lc[0]
  let l1 := lc[1]
  let outer (l0' : Loop) : Vector Loop 2 × DWord :=
    let v := l1.val - 1#32
    if v != 0#32 then (#v[l0', { l1 with val := v }], l1.start)
    else (#v[{ l0' with active := false }, { l1 with val := v, active := false }], pc + 8#64)
  if l0.active && pc == l0.last then
    let v := l0.val - 1#32
    if v != 0#32 then (#v[{ l0 with val := v }, l1], l0.start)
    else
      let l0' := { l0 with val := l0.count, active := l1.active }
      if l1.active && pc == l1.last then outer l0' else (#v[l0', l1], pc + 8#64)
  else if l1.active && pc == l1.last then outer l0
  else (lc, pc + 8#64)

/-- The address of the line that holds a bundle (R48). -/
def lineOf (pc : DWord) : Nat := pc.toNat / 256 * 256

/-- The fetch buffer after a bundle has issued from it: the lines stand in the order of their last use, and the bundle's
comes first (R48; log 80). -/
def touchLine (lines : List FetchLine) (pc : DWord) : List FetchLine :=
  match lines.find? fun l => l.base == lineOf pc with
  | some l => l :: lines.filter fun m => m.base != lineOf pc
  | none => lines

/-- What every issued bundle leaves: the stepped bundle has issued, SKIPBP is used up, one more bundle is counted, whatever its words
are (R294, R295, R334; log 104), one more bundle passes before the next tagged sample (R339), its line is the newest used (R48). -/
def issued (s0 : State) (lc : Vector Loop 2) (pc : DWord) : State :=
  let s := { s0 with cur := { s0.cur with went := true } }
  let tl := curTile s
  let t := tl.task
  let st := if t.stepping == .armed then Stepping.issued else t.stepping
  countEvent (setCurTile s { tl with
    task := { t with lc := lc, pc := pc, xpushed := false, skipbp := false, stepping := st }
    lines := touchLine tl.lines s.cur.pc
    lastIssue := some (s.clk, s.cur.pc)
    gap := tl.gap - 1
    mark := tl.mark.map (Mark.issue s s.cur.tile) }) s.cur.tile 1 1

/-- The A word is done and control falls through (R65). -/
def finish (s : State) : State :=
  let n := loopNext (curTask s).lc s.cur.pc
  issued s n.1 n.2

/-- The A word is done and control moves: the loops are left alone (R123, R128). -/
def branchTo (s : State) (target : DWord) : State := issued s (curTask s).lc target

/-! ## Traps (R69, R285, R287) -/

/-- The trap stops the acting tile's task; its frame is written by FRAME_WRITE once its queues have settled. -/
def takeTrap (s : State) (t : Nat) (i : TrapInfo) : State := setTile s t { tileOf s t with run := .stopping i }

/-- A precise access-side trap at the acting bundle, with its INFO: nothing of the bundle takes effect (R69, R284). -/
def preciseTrapInfo (s : State) (code : Code) (info : Byte) (arg0 arg1 : DWord) : State :=
  takeTrap (unpush s) s.cur.tile
    { code, xside := false, precise := true, info, pc := s.cur.pc, apc := s.cur.pc, arg0, arg1, arg2 := 0#64,
      rpc := s.cur.pc, xpushed := (curTask s).xpushed }

/-- A precise access-side trap whose INFO is 0. -/
def preciseTrap (s : State) (code : Code) (arg0 arg1 : DWord) : State := preciseTrapInfo s code 0#8 arg0 arg1

/-- A trap of the acting bundle that its X instruction runs before (R69, R135, R234). -/
def lateTrap (s : State) (code : Code) (precise : Bool) (info : Byte) (arg0 arg1 arg2 rpc : DWord) (xpushed : Bool) :
    State :=
  takeTrap s s.cur.tile
    { code, xside := false, precise, info, pc := s.cur.pc, apc := s.cur.pc, arg0, arg1, arg2, rpc, xpushed }

/-- The entries of the replay queue that a report point of this task raises (R286). -/
def reportable (s : State) (t : Nat) : List ReplayEntry :=
  let tl := tileOf s t
  tl.replay.filter fun e => e.gtid == tl.task.gtid && e.kind != 10#8 && !(e.kind == 6#8 && e.dest != 0#5 && e.code != .guardTouch)

/-- A report point: raises the oldest logged fault, if any (R135, R285). -/
def reportTrap (s : State) : Option State :=
  match reportable s s.cur.tile with
  | [] => none
  | e :: _ => some (lateTrap s e.code false e.info e.ea 0#64 0#64 s.cur.pc (hasPushed s))

/-- An execute-side trap at the X instruction being run (R53, R69, R285): it replaces an access-side trap that has not
yet taken effect, whose bundle issues again on resume. -/
def xTrap (s : State) (code : Code) (arg0 : DWord) : State :=
  let t := curTask s
  let (apc, xp) := match (curTile s).run with
    | .stopping i => (i.apc, i.xpushed)
    | _ => (t.pc, t.xpushed)
  takeTrap s s.cur.tile
    { code, xside := true, precise := code == .illegalEncoding, info := 0#8, pc := s.cur.pc, apc := apc, arg0,
      arg1 := 0#64, arg2 := 0#64, rpc := apc, xpushed := xp }

/-! ## Waits of the access side (R133, R136, R142, R143) -/

/-- The status of an a-register; a0 is always ready. -/
def statusA (s : State) (n : BitVec 4) : RegStatus := if n == 0#4 then .ready else (curTask s).a[n.toFin].st

def RegStatus.isPending : RegStatus → Bool
  | .pending _ => true
  | _ => false

/-- The first poisoned register of a list. -/
def firstPoison (s : State) : List (BitVec 4) → Option (Code × DWord)
  | [] => none
  | n :: r =>
    match statusA s n with
    | .poisoned c ea => some (c, ea)
    | _ => firstPoison s r

/-- What keeps a bundle that reads and writes these registers from issuing: a pending register holds it back, a poisoned
source traps precisely (R142, R143; DEDUCED, log 124: its record is a precise one whatever Table 21-1 calls the code). -/
def regGate (s : State) (reads writes : List (BitVec 4)) : Option State :=
  if (reads ++ writes).any fun n => (statusA s n).isPending then some (holdBundle s 6)
  else
    match firstPoison s reads with
    | some (c, ea) => some (preciseTrap s c ea 0#64)
    | none => none

/-! ## Accesses and messages -/

/-- The channel of a class of traffic (Table 1-10). -/
def Traffic.channel : Traffic → Nat
  | .globalRequest => 0
  | .globalResponse => 1
  | .engineCommand => 2
  | .engineResult => 3
  | .stream => 4
  | .tileToTile => 5
  | .system => 6
  | .management => 7

/-- The class of a message (R18, Table 1-10). -/
def Body.traffic : Body → Traffic
  | .inbox _ | .put .. | .ksend _ => .tileToTile
  | .streamer .. | .eos .. => .stream
  | .engGo .. | .coll _ => .engineCommand
  | .wake space _ => if space == .gl then .globalResponse else .tileToTile

/-- Sends an access of the acting task on its way and numbers it. -/
def addAccess (s : State) (a : Access) : State :=
  { s with accs := s.accs ++ [{ a with id := s.nextId }], nextId := s.nextId + 1 }

/-- A message of the acting task, on the channel of its class (R18, R30). -/
def addMsg (s : State) (dst : BitVec 20) (guard : Guard) (body : Body) : State :=
  let t := s.cur.tile
  let m : Msg := ⟨s.nextId, body.traffic.channel, t, dst, (curTask s).act, (curTask s).gtid, launchOf s t, tagOf s t, s.cur.pc, guard, body⟩
  { s with net := s.net ++ [m], nextId := s.nextId + 1 }

/-- The next free value's number. -/
def drawFree (s : State) : Nat × State := (s.freeIdx, { s with freeIdx := s.freeIdx + 1 })

/-- Logs an entry in a tile's replay queue (R135, R286). -/
def logEntry (s : State) (t : Nat) (e : ReplayEntry) : State :=
  let tl := tileOf s t
  setTile s t { tl with replay := tl.replay ++ [e] }

/-- A tile holds a task with this identifier: running, stopping, as a record, or on its way there. -/
def holdsTask (tl : Tile) (gtid : DWord) : Bool :=
  (tl.task.gtid == gtid && tl.run != .idle) || tl.resident.any (·.r.gtid == gtid) || tl.overflow.any (·.r.gtid == gtid) ||
    tl.deque.any (·.gtid == gtid) || tl.spill.any (·.gtid == gtid) || tl.reserved.any (·.2.gtid == gtid) ||
    (match tl.unplaced with
     | some r => r.gtid == gtid
     | none => false) ||
    (match tl.landing with
     | some (_, _, r) => r.gtid == gtid
     | none => false)

/-- A task with this identifier is on a tile. -/
def taskHere (s : State) (t : Nat) (gtid : DWord) : Bool := holdsTask (tileOf s t) gtid

/-- The tile on which a task of tile `t` now stands: `t` itself, or the tile of its cohort to which a steal has taken it. -/
def taskTile (s : State) (t : Nat) (gtid : DWord) : Option Nat :=
  if taskHere s t gtid then some t
  else
    match cohortOf s t with
    | some (_, c, _) => (cohortTiles c).find? fun u => taskHere s u gtid
    | none => none

/-- Logs a fault for a task on the tile where the task stands, so that its next report point raises it; a task that has exited
logs nothing (R135; log 13). -/
def logFor (s : State) (t : Nat) (e : ReplayEntry) : State :=
  match taskTile s t e.gtid with
  | some u => logEntry s u e
  | none => s

/-- Clk in 1 µs at the nominal clock. -/
def clkPerUs : Nat := 1250

/-- No halt keeps the tile from running; a step of a halted cohort lets it run one bundle (R235, R295). -/
def haltAllows (tl : Tile) : Bool := tl.halt == .none || tl.halt == .held true

/-- The tile's record queue of 16, behind the record that waits in the network, is full: what would make a record waits
(R288). -/
def recordsFull (s : State) (t : Nat) : Bool := 17 ≤ (tileOf s t).records.length

/-- A record of a tile joins its record queue, which sends it on channel 6 (R288). -/
def queueRecord (s : State) (t : Nat) (r : TrapRecord) : State :=
  let tl := tileOf s t
  setTile (countEvent s t 0x10 1) t { tileOf (countEvent s t 0x10 1) t with records := tl.records ++ [r] }

/-- The first 8 bytes of a refused message's header: the manual gives the header no layout (log 14). -/
def refusedHeader (s : State) : DWord × State := (Config.messageHeader s.freeIdx, { s with freeIdx := s.freeIdx + 1 })

/-- A NOTIFY record for an event that stops no task, once the event has logged its entry (Table 21-3). -/
def noteRecord (s : State) (t : Nat) (code : Code) (gtid pc arg0 arg1 : DWord) : TrapRecord :=
  { tag := tagOf s t, tile := t, note := true, xside := false, precise := false, nlog := (tileOf s t).replay.length,
    info := 0#8, code, gtid, pc, apc := (tileOf s t).task.pc, arg0, arg1, arg2 := 0#64, frame := 0#64 }

/-- The HALTED record of a tile that stands at its next bundle (R235, R295). -/
def haltedRecord (s : State) (t : Nat) (info : Byte) (gtid pc : DWord) : TrapRecord :=
  { tag := tagOf s t, tile := t, note := false, xside := false, precise := true, nlog := (tileOf s t).replay.length, info,
    code := .halted, gtid, pc, apc := pc, arg0 := 0#64, arg1 := 0#64, arg2 := 0#64, frame := 0#64 }

/-- The NOTIFY record of a Kerb refusal, to the home Plaza of the sender (R17, R304). -/
def notifyKerb (s : State) (t : Nat) (gtid pc ea : DWord) : State :=
  let h := refusedHeader s
  queueRecord h.2 t (noteRecord h.2 t .kerbRefused gtid pc ea h.1)

end Sys2Proof.Machine
end

