-- ==== Sys2Proof/Machine/Format.lean ====
section
/-! DEFINITION. Matrix operand formats as stored (Table 7-6, R106, R107) and tensor descriptors (R182-R184). -/

namespace Sys2Proof.Machine

/-- Where a format's block scales come from (Table 7-6). -/
inductive ScaleKind where
  | none | e8m0 | a4 | e4m3 | f16 | f16z | f32row
  deriving DecidableEq, Repr

/-- Stored bits per element, block size (0: none or a whole row), scale kind, slab K, boundary c (Table 7-6). -/
structure Format where
  bits : Nat
  block : Nat
  scale : ScaleKind
  slabK : Nat
  c : Nat
  deriving DecidableEq, Repr

/-- Table 7-6; codes 0x1C to 0x1F are reserved (R106). -/
def formatOf (code : Nat) : Option Format :=
  match code with
  | 0x00 => some ⟨32, 0, .none, 16, 5⟩
  | 0x01 => some ⟨32, 0, .none, 8, 8⟩
  | 0x02 => some ⟨16, 0, .none, 16, 5⟩
  | 0x03 => some ⟨16, 0, .none, 16, 8⟩
  | 0x04 => some ⟨8, 0, .none, 32, 1⟩
  | 0x05 => some ⟨8, 0, .none, 32, 1⟩
  | 0x06 => some ⟨8, 0, .none, 32, 1⟩
  | 0x07 => some ⟨8, 0, .none, 32, 1⟩
  | 0x08 => some ⟨4, 0, .none, 64, 0⟩
  | 0x09 => some ⟨8, 0, .none, 32, 5⟩
  | 0x0a => some ⟨8, 0, .none, 32, 5⟩
  | 0x0b => some ⟨4, 0, .none, 64, 0⟩
  | 0x0c => some ⟨4, 0, .none, 64, 0⟩
  | 0x0d => some ⟨2, 0, .none, 64, 0⟩
  | 0x0e => some ⟨8, 32, .e8m0, 32, 1⟩
  | 0x0f => some ⟨8, 32, .e8m0, 32, 1⟩
  | 0x10 => some ⟨8, 32, .e8m0, 32, 1⟩
  | 0x11 => some ⟨8, 32, .e8m0, 32, 1⟩
  | 0x12 => some ⟨4, 32, .e8m0, 64, 0⟩
  | 0x13 => some ⟨8, 32, .e8m0, 32, 5⟩
  | 0x14 => some ⟨4, 32, .a4, 64, 0⟩
  | 0x15 => some ⟨4, 16, .a4, 64, 0⟩
  | 0x16 => some ⟨4, 16, .e4m3, 64, 0⟩
  | 0x17 => some ⟨4, 64, .f16, 64, 0⟩
  | 0x18 => some ⟨4, 64, .f16z, 64, 0⟩
  | 0x19 => some ⟨8, 0, .f32row, 32, 5⟩
  | 0x1a => some ⟨48, 0, .none, 16, 5⟩
  | 0x1b => some ⟨16, 0, .none, 16, 10⟩
  | _ => none

/-- The format of a code that a valid descriptor holds. -/
def fmt (code : Nat) : Format := (formatOf code).getD ⟨32, 0, .none, 16, 5⟩

/-- FP32 and F32X3, the formats of six passes (R112, R114). -/
def fp32Class (code : Nat) : Bool := code == 0x00 || code == 0x1a

/-- Formats that no engine writes (R113). -/
def inputOnly (code : Nat) : Bool := 0x16 ≤ code && code ≤ 0x19

/-- Rounds up to a multiple. -/
def roundUp (n m : Nat) : Nat := (n + m - 1) / m * m

/-- Bytes of `cols` packed elements (R107, R183). -/
def rowBytes (code cols : Nat) : Nat := (cols * (fmt code).bits + 7) / 8

/-- Blocks in a row (R183). -/
def rowBlocks (f : Format) (cols : Nat) : Nat := if f.block == 0 then 1 else (cols + f.block - 1) / f.block

/-- Bytes of one scale row, rounded up to a multiple of 4 (R183). -/
def scaleRow (code cols : Nat) : Nat :=
  let f := fmt code
  let nb := rowBlocks f cols
  match f.scale with
  | .none => 0
  | .e8m0 | .a4 | .e4m3 => roundUp nb 4
  | .f16 => roundUp (2 * nb) 4
  | .f16z => roundUp (2 * nb + (nb + 1) / 2) 4
  | .f32row => 4

/-- The offset of the first scale row from SCALE: F4S8 keeps its tensor scale there (R183). -/
def scaleHead (code : Nat) : Nat := if code == 0x16 then 4 else 0

def spaceOf (n : Nat) : Space :=
  match n % 4 with
  | 0 => .sp | 1 => .pr | 2 => .ql | _ => .gl

def spaceNum : Space → Nat
  | .sp => 0 | .pr => 1 | .ql => 2 | .gl => 3 | .msg => 4

/-- A descriptor as `tdef` reads it (R184, Table 13-3): the trap that a bad one logs, or the entry. -/
def parseDesc (v : Vec) : Except Code Desc :=
  let code := (v.extractLsb' 0 5).toNat
  let cols := (v.extractLsb' 48 16).toNat
  let rows := (v.extractLsb' 32 16).toNat
  let block := (v.extractLsb' 24 8).toNat
  let base := (v.extractLsb' 64 62).toNat
  let stride := (v.extractLsb' 128 32).toNat
  let scale := (v.extractLsb' 192 62).toNat
  match formatOf code with
  | none => .error .formatReserved
  | some f =>
    if v.extractLsb' 5 19 != 0#19 || v.extractLsb' 160 32 != 0#32 || rows == 0 || cols == 0 ||
        (block != 0 && block != f.block) || base % 4 != 0 || stride % 4 != 0 || (f.scale != .none && scale % 4 != 0) ||
        stride < rowBytes code cols then .error .commandInvalid
    else .ok ⟨cols, rows, block, code, spaceOf (v.extractLsb' 126 2).toNat, base, stride, scale⟩

end Sys2Proof.Machine
end

