-- ==== Sys2Proof/Machine/Shake.lean ====
section
/-! DEFINITION. SHAKE256 (FIPS 202), which R282 uses for store signatures and R322 for digests. -/

namespace Sys2Proof.Machine

/-- The round constants of Keccak-f[1600]. -/
def keccakRC : List DWord :=
  [0x0000000000000001#64, 0x0000000000008082#64, 0x800000000000808a#64, 0x8000000080008000#64, 0x000000000000808b#64,
   0x0000000080000001#64, 0x8000000080008081#64, 0x8000000000008009#64, 0x000000000000008a#64, 0x0000000000000088#64,
   0x0000000080008009#64, 0x000000008000000a#64, 0x000000008000808b#64, 0x800000000000008b#64, 0x8000000000008089#64,
   0x8000000000008003#64, 0x8000000000008002#64, 0x8000000000000080#64, 0x000000000000800a#64, 0x800000008000000a#64,
   0x8000000080008081#64, 0x8000000000008080#64, 0x0000000080000001#64, 0x8000000080008008#64]

/-- Rotation amounts of lane (x, y) at index x + 5y. -/
def keccakRot : List Nat :=
  [0, 1, 62, 28, 27, 36, 44, 6, 55, 20, 3, 10, 43, 25, 39, 41, 45, 15, 21, 8, 18, 2, 61, 56, 14]

def lane (st : List DWord) (i : Nat) : DWord := st.getD i 0#64

/-- One round: theta, rho and pi, chi, iota. -/
def keccakRound (st : List DWord) (rc : DWord) : List DWord :=
  let c := (List.range 5).map fun x =>
    lane st x ^^^ lane st (x + 5) ^^^ lane st (x + 10) ^^^ lane st (x + 15) ^^^ lane st (x + 20)
  let d := (List.range 5).map fun x => lane c ((x + 4) % 5) ^^^ (lane c ((x + 1) % 5)).rotateLeft 1
  let t := (List.range 25).map fun i => (lane st i ^^^ lane d (i % 5)).rotateLeft (keccakRot.getD i 0)
  -- b at (y, 2x + 3y) is t at (x, y); so b at (X, Y) comes from x = (X + 3Y) mod 5, y = X
  let b := (List.range 25).map fun i => lane t ((i % 5 + 3 * (i / 5)) % 5 + 5 * (i % 5))
  (List.range 25).map fun i =>
    let x := i % 5
    let y := i / 5
    let v := lane b i ^^^ ((~~~ lane b ((x + 1) % 5 + 5 * y)) &&& lane b ((x + 2) % 5 + 5 * y))
    if i == 0 then v ^^^ rc else v

def keccakF (st : List DWord) : List DWord := keccakRC.foldl keccakRound st

/-- The doubleword at index i of a block of bytes. -/
def blockLane (b : List Byte) (i : Nat) : DWord := BitVec.ofNat 64 (leNat ((b.drop (8 * i)).take 8))

/-- Absorbs padded blocks of 136 bytes. -/
def absorb : Nat → List Byte → List DWord → List DWord
  | 0, _, st => st
  | n + 1, bs, st =>
    absorb n (bs.drop 136) (keccakF ((List.range 25).map fun i => if i < 17 then lane st i ^^^ blockLane bs i else lane st i))

/-- The message with the SHAKE suffix and the padding to whole blocks. -/
def shakePad (m : List Byte) : List Byte :=
  let z := 135 - m.length % 136
  if z == 0 then m ++ [0x9f#8] else m ++ [0x1f#8] ++ List.replicate (z - 1) 0#8 ++ [0x80#8]

/-- The first `n` bytes (n at most 136) of SHAKE256 of a message. -/
def shake256 (m : List Byte) (n : Nat) : List Byte :=
  let p := shakePad m
  let st := absorb (p.length / 136) p (List.replicate 25 0#64)
  ((st.take 17).flatMap fun l => leBytes l.toNat 8).take n

end Sys2Proof.Machine
end

