-- ==== Sys2Proof/Machine/Translate.lean ====
section
/-! DEFINITION. Translation of gl addresses (R299-R302), the Kerb grant of an endpoint (R304), the launch card's fields
(R262), and the replica window (R282). -/

namespace Sys2Proof.Machine

/-! ## Fields of a launch card (Table 19-1) -/

/-- A doubleword of a card. -/
def cardWord (c : BitVec 1024) (off : Nat) : DWord := c.extractLsb' (8 * off) 64

/-- Bits of a card's doubleword. -/
def cardField (c : BitVec 1024) (off lo len : Nat) : Nat := ((cardWord c off).extractLsb' lo len).toNat

def cardKind (c : BitVec 1024) : Nat := cardField c 0 0 8
def cardNoDieSteal (c : BitVec 1024) : Bool := cardField c 0 8 1 == 1
def cardNoSteal (c : BitVec 1024) : Bool := cardField c 0 9 1 == 1
def cardPrio (c : BitVec 1024) : Nat := cardField c 0 24 6
def cardFid (c : BitVec 1024) : Nat := cardField c 0 30 2
def cardOrder (c : BitVec 1024) : Nat := cardField c 0 32 2
def cardReplica (c : BitVec 1024) : Bool := cardField c 0 34 1 == 1
def cardDeadline (c : BitVec 1024) : Nat := cardField c 0 40 24
def cardEntry (c : BitVec 1024) : DWord := cardWord c 0x18
def cardCode (c : BitVec 1024) : DWord := cardWord c 0x20
def cardRdesc (c : BitVec 1024) : DWord := cardWord c 0x38
def cardArgs (c : BitVec 1024) : DWord := cardWord c 0x40
def cardDeps (c : BitVec 1024) : DWord := cardWord c 0x48
def cardCompl (c : BitVec 1024) : DWord := cardWord c 0x50
def cardRoute (c : BitVec 1024) : DWord := cardWord c 0x58
def cardSpill (c : BitVec 1024) : DWord := cardWord c 0x60
def cardGpol (c : BitVec 1024) : Nat := cardField c 0x68 32 2
def cardScratch (c : BitVec 1024) : Nat := cardField c 0x68 0 32

/-! ## Physical addresses (R299) -/

/-- Edge memory ends here: 3 TiB. -/
def edgeTop : Nat := 3 * 2 ^ 40

/-- What a physical address reaches (R299). -/
inductive Phys where
  | edge (pa : Nat)
  | host (port addr : Nat)
  | nowhere
  deriving DecidableEq, Repr

def physOf (pa : Nat) : Phys :=
  if pa < edgeTop then .edge pa
  else if pa / 2 ^ 50 == 3 then .host (pa / 2 ^ 48 % 4) (pa % 2 ^ 48)
  else .nowhere

/-- The Boulevard endpoint that performs accesses to a physical address: the stack (PA >> 12) mod 64, two stacks to an
edge die, or the host port (R13, R16, R299; log 11). -/
def endpointOf : Phys → Nat
  | .edge pa => pa / 4096 % 64 / 2 * 8 + pa / 4096 % 2
  | .host p _ => 64 * p + 4
  | .nowhere => 0

/-- The Kerb lets a tag reach an endpoint (R304). -/
def granted (s : State) (tag ep : Nat) : Bool :=
  tag == 0 ||
    match smFind tag s.regions with
    | some r => r.grants.getLsbD ep
    | none => false

/-! ## Range table and page table (R300, R301) -/

/-- A form that BASE and LIMIT of a well-formed entry have. -/
def vaForm (x : DWord) : Bool := x.extractLsb' 0 12 == 0#12 && x.extractLsb' 57 7 == 0#7

/-- What the lookup of the range entries gives (R300): no entry, and the addresses around this one that none holds either; a
malformed entry; or a translation. -/
inductive Ranged where
  | none (lo hi : Nat)
  | malformed
  | hit (e : TlbEntry)
  deriving DecidableEq, Repr

/-- A translation cut down to the addresses from `lo` up to `hi`: those for which the lookup selects it. -/
def TlbEntry.narrow (e : TlbEntry) (lo hi : Nat) : TlbEntry :=
  { e with lo := max e.lo lo, hi := min e.hi hi, pa := (e.pa + (max e.lo lo - e.lo)) % 2 ^ 52 }

/-- The lookup among the `n` range entries from address `a`, lowest number first (R300). An entry passed over on the way holds
none of the addresses between `lo` and `hi`. -/
def rangeGo (m : Mem) (tenant : Nat) (va : DWord) : Nat → Nat → Nat → Nat → Ranged
  | 0, _, lo, hi => .none lo hi
  | n + 1, a, lo, hi =>
    let base := memDWord m a
    let limit := memDWord m (a + 8)
    let ctl := memDWord m (a + 24)
    if ctl.msb && base.ule va && va.ult limit then
      if ctl.extractLsb' 0 58 == 0#58 && vaForm base && vaForm limit then
        .hit (TlbEntry.narrow ⟨tenant, base.toNat, limit.toNat, (base + memDWord m (a + 16)).toNat % 2 ^ 52, ctl.getLsbD 62,
          ctl.getLsbD 61, ctl.getLsbD 60, ctl.extractLsb' 58 2, 0⟩ lo hi)
      else .malformed
    else if ctl.msb && base.ult limit then
      if limit.ule va then rangeGo m tenant va n (a + 32) (max lo limit.toNat) hi
      else rangeGo m tenant va n (a + 32) lo (min hi base.toNat)
    else rangeGo m tenant va n (a + 32) lo hi

/-- A page table entry's next table or page base. -/
def ptePa (e : DWord) : Nat := (e.extractLsb' 12 40).toNat * 4096
/-- No reserved bit is set, and V is. -/
def pteOk (e : DWord) : Bool := e.getLsbD 0 && e.extractLsb' 52 12 == 0#12 && e.extractLsb' 8 4 == 0#4

/-- The translation of a leaf that maps `2^sz` bytes. -/
def leafEntry (tenant va : Nat) (e : DWord) (pa sz code : Nat) : TlbEntry :=
  ⟨tenant, va / 2 ^ sz * 2 ^ sz, va / 2 ^ sz * 2 ^ sz + 2 ^ sz, pa, e.getLsbD 4, e.getLsbD 5, e.getLsbD 6, e.extractLsb' 2 2, code⟩

/-- Sixteen level-0 entries from this address form one 64 KiB page (R301). -/
def groupOk (m : Mem) (a : Nat) : Bool :=
  let e0 := memDWord m a
  ptePa e0 % 2 ^ 16 == 0 &&
    (upFrom 0 16).all fun i =>
      let e := memDWord m (a + 8 * i)
      pteOk e && e.getLsbD 7 && e.extractLsb' 2 5 == e0.extractLsb' 2 5 && ptePa e == ptePa e0 + 4096 * i

/-- The walk from a table of a level (R301); level 3 is the root. -/
def pageGo (m : Mem) (tenant va : Nat) : Nat → Nat → Option TlbEntry
  | 0, t =>
    let i := va / 2 ^ 12 % 512
    let e := memDWord m (t + 8 * i)
    if !pteOk e then none
    else
      let g := t + 8 * (i / 16 * 16)
      if groupOk m g then some (leafEntry tenant va e (ptePa (memDWord m g)) 16 2)
      else some (leafEntry tenant va e (ptePa e) 12 1)
  | l + 1, t =>
    let sz := 12 + 9 * (l + 1)
    let i := if l == 2 then va / 2 ^ 39 % 2 ^ 18 else va / 2 ^ sz % 512
    let e := memDWord m (t + 8 * i)
    if !pteOk e then none
    else if e.getLsbD 1 then
      if l == 2 || ptePa e % 2 ^ sz != 0 then none
      else some (leafEntry tenant va e (ptePa e) sz (if l == 0 then 3 else 4))
    else pageGo m tenant va l (ptePa e)

/-- The tenant that a region tag names (R299, R303). -/
def tenantOf (s : State) (tag : Nat) : Option (Nat × Tenant) :=
  match smFind tag s.regions with
  | some r => (smFind r.tenant s.tenants).map fun t => (r.tenant, t)
  | none => none

/-- The walk for a tag and a 57-bit address: range entries first, then the page table (R300, R301). What it gives holds for no
address that another range entry translates. -/
def walk (s : State) (tag : Nat) (va : DWord) : Option TlbEntry :=
  match tenantOf s tag with
  | none => none
  | some (n, t) =>
    match rangeGo s.edge n va 64 t.ranges 0 (2 ^ 57) with
    | .hit e => some e
    | .malformed => none
    | .none lo hi => (pageGo s.edge n va.toNat 3 t.root).map fun e => e.narrow lo hi

/-- The translation a die's TLB holds for a tag and an address (R299). -/
def tlbFind (s : State) (die tag : Nat) (va : DWord) : Option TlbEntry :=
  match tenantOf s tag with
  | none => none
  | some (n, _) => (dieAt s die).tlb.find? fun e => e.tenant == n && e.lo ≤ va.toNat && va.toNat < e.hi

/-- The physical address that an entry gives. -/
def entryPa (e : TlbEntry) (va : DWord) : Nat := (e.pa + (va.toNat - e.lo)) % 2 ^ 52

/-- Puts an entry into a die's TLB of 256 entries, the oldest leaving (R299). -/
def tlbPut (s : State) (die : Nat) (e : TlbEntry) : State :=
  let d := dieAt s die
  setDie s die { d with tlb := (e :: d.tlb.filter (· != e)).take 256 }

/-- Bits 63:57 of a gl address are zero (R22). -/
def glForm (va : DWord) : Bool := va.extractLsb' 57 7 == 0#7

/-- Reads bytes at a tag's virtual address through a walk, as admission and launch completion do (R265, R266): `none`
where untranslatable or not readable. -/
def readVirtual (s : State) (tag : Nat) (va : DWord) (n : Nat) : Option (List Byte) :=
  if !glForm va then none
  else
    match walk s tag va with
    | some e =>
      if e.r then
        match physOf (entryPa e va) with
        | .edge pa => some (memRead s.edge pa n)
        | .host p a => some (memRead (portAt s p).mem a n)
        | .nowhere => none
      else none
    | none => none

/-- The home performs a write at a physical address. -/
def writePhys (s : State) (p : Phys) (bs : List Byte) : State :=
  match p with
  | .edge pa => edgePut s pa bs
  | .host q a => let pt := portAt s q; setPort s q { pt with mem := memWrite pt.mem a bs }
  | .nowhere => s

/-- The line of a tag's virtual address range that keeps a write back at its home (R256). -/
def virtualHeld (s : State) (tag : Nat) (va : DWord) (n : Nat) : Option Nat :=
  match walk s tag va with
  | some e =>
    match physOf (entryPa e va) with
    | .edge pa => homeLine s pa n
    | _ => none
  | none => none

/-- Writes bytes at a tag's virtual address: `none` where untranslatable or not writable. A line that a host agent may hold
keeps the write at its home (R256). -/
def writeVirtual (s : State) (tag : Nat) (va : DWord) (bs : List Byte) : Option State :=
  if !glForm va then none
  else
    match walk s tag va with
    | some e =>
      if e.w then
        match physOf (entryPa e va) with
        | .nowhere => none
        | .edge pa => some (edgeStore s pa bs)
        | p => some (writePhys s p bs)
      else none
    | none => none

/-! ## Replica mode (R282) -/

/-- The replica window of a launch: base, length, shadow base. The descriptor is read at every access, and its doubleword at
+0x18, which R282 gives as zero, is not looked at (log 92). -/
def replicaWindow (s : State) (l : Launch) : Option (Nat × Nat × Nat) :=
  if cardReplica l.card then
    (readVirtual s l.tag (cardRdesc l.card) 32).map fun bs =>
      (leNat (bs.take 8), leNat ((bs.drop 8).take 8), leNat ((bs.drop 16).take 8))
  else none

/-- Where a replica launch's access at an address stands: offset in the window, and whether the cohort is run B. -/
structure Replica where
  launch : Nat
  runB : Bool
  /-- Offset in the window, `none` outside it. -/
  off : Option Nat
  shadow : Nat
  deriving DecidableEq, Repr

def replicaOf (s : State) (t : Nat) (va : DWord) : Option Replica :=
  match cohortOf s t with
  | none => none
  | some (_, c, _) =>
    match smFind c.launch s.launches with
    | none => none
    | some l =>
      (replicaWindow s l).map fun w =>
        let inside := w.1 ≤ va.toNat && va.toNat < w.1 + w.2.1
        ⟨c.launch, c.runB, if inside then some (va.toNat - w.1) else none, w.2.2⟩

/-- The address that an access is performed at: run B goes to the shadow inside the window. -/
def replicaVa (r : Option Replica) (va : DWord) : DWord :=
  match r with
  | some ⟨_, true, some off, shadow⟩ => BitVec.ofNat 64 (shadow + off)
  | _ => va

/-- A store of run B outside the window is discarded. -/
def replicaDrops (r : Option Replica) : Bool :=
  match r with
  | some ⟨_, true, none, _⟩ => true
  | _ => false

/-- The signature after one more store in the window: the sum of the SHAKE256 terms (R282). -/
def replicaSign (s : State) (r : Option Replica) (bs : List Byte) : State :=
  match r with
  | some ⟨ln, runB, some off, _⟩ =>
    match smFind ln s.launches with
    | some l =>
      let term := BitVec.ofNat 128 (leNat (shake256 (leBytes off 8 ++ leBytes bs.length 1 ++ bs) 16))
      setLaunch s ln (if runB then { l with sigB := l.sigB + term } else { l with sigA := l.sigA + term })
    | none => s
  | _ => s

end Sys2Proof.Machine
end

