-- ==== Sys2Proof/Machine/Order.lean ====
section
/-! DEFINITION. Where an access lands (R22-R25, R134, R299-R304), what may be performed when (R8, R18, R21, R55, R136, R137,
R224, R241-R255), and the waits of the access side at issue (R133, R135, R136, R142, R143). -/

namespace Sys2Proof.Machine

/-! ## Where an access lands -/

/-- The tile a pr address names (R22). -/
def prTile (ea : DWord) : Nat := (ea.extractLsb' 32 16).toNat
/-- The scratchpad offset of an sp or pr address. -/
def spOff (ea : DWord) : Nat := (ea.extractLsb' 0 18).toNat

/-- A pr access to the accessor's own tile counts as sp everywhere (R24, R136). -/
def effSpace (a : Access) : Space :=
  if a.space == .pr && prTile a.ea == a.tile && a.ea.extractLsb' 48 16 == 0#16 && a.ea.extractLsb' 18 14 == 0#14 then .sp
  else a.space

/-- Bytes of a scratchpad: 192 KiB (R22). -/
def spBytes : Nat := 0x30000

/-- A place that an access reaches. -/
inductive Place where
  | sp (tile off : Nat)
  | ql (quad off : Nat)
  | gl (phys : Phys) (ty : BitVec 2)
  deriving DecidableEq, Repr

/-- What stands in the way of performing an access now. -/
inductive Reach where
  | at (p : Place)
  | faults (c : Code)
  /-- The gateway has no translation yet: a walk must complete first (R299). -/
  | walking
  deriving DecidableEq, Repr

/-- The permission an access needs (R302). -/
def permOk (op : AccOp) (e : TlbEntry) : Bool :=
  match op with
  | .load | .touch | .ldv _ | .tdef => e.r
  | .store | .stv | .vrcl | .spill => e.w
  | _ => e.r && e.w

/-- The address a gl access is translated at: run B of a replica launch goes to the shadow (R282). -/
def glVa (s : State) (a : Access) : DWord := replicaVa (replicaOf s a.tile a.ea) a.ea

/-- The AtomicOps that a host carries out: add, swap and cas, and a `jdec` as an add (R150; codes of Table 5-7). -/
def hostOpOk (op : AccOp) : Bool :=
  match op with
  | .atom p => p == 0#4 || p == 7#4
  | _ => true

/-- An access that is an AtomicOp when it reaches a host. -/
def isAtomic (op : AccOp) : Bool :=
  match op with
  | .atom _ | .cas _ | .jdec => true
  | _ => false

/-- Where an access lands, or the fault it meets, or the walk it waits for (R22-R25, R134, R299-R304; log 11: a gl access
is a message to the gateway of the tile's own die, which the Kerb passes whatever the grant map). -/
def reach (s : State) (a : Access) : Reach :=
  match effSpace a with
  | .sp =>
    if a.space == .sp && a.ea.extractLsb' 18 46 != 0#46 then .faults .xlate
    else if spBytes ≤ spOff a.ea then .faults .xlate
    else .at (.sp a.tile (spOff a.ea))
  | .pr =>
    if a.ea.extractLsb' 48 16 != 0#16 || a.ea.extractLsb' 18 14 != 0#14 || spBytes ≤ spOff a.ea then .faults .xlate
    else if sameCohort s a.tile (prTile a.ea) then .at (.sp (prTile a.ea) (spOff a.ea))
    else .faults .peerGone
  | .ql =>
    if a.ea.extractLsb' 20 44 != 0#44 then .faults .xlate
    else if (quadAt s (quadOf a.tile)).team.isNone then .faults .xlate
    else .at (.ql (quadOf a.tile) a.ea.toNat)
  | _ =>
    let va := glVa s a
    let tag := tagOf s a.tile
    if !glForm va then .faults .xlate
    else
      match tlbFind s (dieOf a.tile) tag va with
      | none => .walking
      | some e =>
        let p := physOf (entryPa e va)
        if !permOk a.op e then .faults .xlate
        else
          match p with
          | .nowhere => .faults .xlate
          | .edge _ => .at (.gl p e.ty)
          | .host _ _ => if hostOpOk a.op then .at (.gl p e.ty) else .faults .xlate

/-- Some granule of `n` bytes from an offset is a marked guard granule (R258). -/
def guardTouched (s : State) (t off n : Nat) : Bool :=
  (upFrom (off / 64) ((off + n - 1) / 64 - off / 64 + 1)).any fun g => (tileOf s t).guards.getLsbD g

/-! ## Which task and which destination -/

/-- An access or message of tile `u` and task `h` belongs to the task `g` that tile `t` names: a task keeps its GTID when it is
suspended, stolen or resumed (R31). -/
def sameTask (s : State) (t : Nat) (g : DWord) (u : Nat) (h : DWord) : Bool :=
  h == g && (u == t || (u < 65536 && sameCohort s u t))

/-- The collective engine that serves a logical die, as a Boulevard endpoint (R19). -/
def collectiveOf (die : Nat) : Nat := (2 * (die / 4) + 1) * 8 + 3

/-- The Boulevard endpoint of a span port (R313). -/
def spanEndpoint (p : Nat) : Nat := (2 * (p / 2) + 1) * 8 + (if p % 2 == 0 then 5 else 6)

/-- What a destination names, in one form for all the names of one unit (R15, R16, R19): the selector that stands for the kind
of unit, and its number. The engines of a tile count as the tile, whatever the selector (R249). -/
def unitNamed (d : BitVec 20) : Nat × Nat :=
  let u := (d.extractLsb' 0 16).toNat
  let sel := (d.extractLsb' 16 4).toNat
  if sel ≤ 3 then (0, u)
  else if sel == 4 then (4, quadOf u)
  else if sel == 5 then (5, clusterOf u)
  else if sel == 8 || sel == 9 then (sel, dieOf u)
  else if sel == 10 then (15, collectiveOf (dieOf u))
  else (sel, u)

/-- A message to this destination is addressed to a tile of this quad, or to its quad unit. -/
def aimsAtQuad (d : BitVec 20) (q : Nat) : Bool :=
  let x := unitNamed d
  (x.1 == 0 && quadOf x.2 == q) || (x.1 == 4 && x.2 == q)

/-- A thermal migration of the tile's quad is in progress: what other quads send it waits in the network (R21). -/
def moving (s : State) (src t : Nat) : Bool := (tileOf s t).halt == .migrate && (65536 ≤ src || quadOf src != quadOf t)

/-- The tile that the ring channel leads to (R61). -/
def ringSuccessor (s : State) (t : Nat) : Nat :=
  match cohortOf s t with
  | some (_, c, j) => tileOfSerial c ((j * c.size + qidx t + 1) % cohortTasks c)
  | none => t

/-- The tile takes puts and ring values: no suspension point has closed it, its cohort is not held by `halt`, and its quad is
not being moved (R21, R63, R235). -/
def takesWords (s : State) (t : Nat) : Bool :=
  let tl := tileOf s t
  !tl.closed && tl.halt != .migrate &&
    match cohortOf s t with
    | some (_, c, _) => c.status != .halted
    | none => true

/-- An inbox message stands at the tile's input while all its slots are full: the rest of channel 5 waits behind it (R224). -/
def inputBusy (s : State) (t id : Nat) : Bool :=
  match (tileOf s t).stuck with
  | some m => m != id && s.net.any fun x => x.id == m
  | none => false

/-- A ring value or a stolen record that a tile sent earlier is still on channel 5 to this one (R8, R18). A ring value that the
tile does not take waits at the sender's ring port, not in the network (R63; log 94). -/
def wordAhead (s : State) (src t id : Nat) : Bool :=
  (takesWords s t && ringSuccessor s src == t && (tileOf s t).riNet.any fun v => v.1 < id) ||
    match (tileOf s t).landing with
    | some (v, n, _) => v == src && n < id
    | none => false

/-- Nothing but earlier accesses and messages keeps what tile `src` sent under this number on channel 5 from tile `t`. -/
def inputFree (s : State) (src t id : Nat) : Bool := !inputBusy s t id && !moving s src t && !wordAhead s src t id

/-! ## When an access may be performed -/

/-- Two byte ranges intersect. -/
def rangesMeet (a n b m : Nat) : Bool := a < b + m && b < a + n

/-- Two accesses touch overlapping bytes of one space (R136, R243). -/
def overlap (a b : Access) : Bool :=
  effSpace a == effSpace b &&
    match effSpace a with
    | .sp => a.tile == b.tile && rangesMeet (spOff a.ea) a.n (spOff b.ea) b.n
    | .ql => quadOf a.tile == quadOf b.tile && rangesMeet a.ea.toNat a.n b.ea.toNat b.n
    | _ => rangesMeet a.ea.toNat a.n b.ea.toNat b.n

/-- The class of what goes out to a space; what stays on the tile or its quad takes no channel (R18, Table 1-10). -/
def outTraffic : Space → Option Traffic
  | .gl => some .globalRequest
  | .pr => some .tileToTile
  | _ => none

/-- The access travels as a message on channel 5 to another tile (R18). -/
def chan5 (a : Access) : Bool := outTraffic (effSpace a) == some .tileToTile

/-- The class of the answer to what went out to a space: a channel of its own for a gl access, while the reply to a pr access is
tile-to-tile traffic as the access is (R18, Table 1-10). -/
def replyTraffic : Space → Option Traffic
  | .gl => some .globalResponse
  | .pr => some .tileToTile
  | _ => none

/-- The channel of an access: its class fixes it (R18). -/
def channelOf (a : Access) : Option Nat := (outTraffic (effSpace a)).map (·.channel)
/-- The channel of its answer (R18). -/
def replyChannelOf (a : Access) : Option Nat := (replyTraffic (effSpace a)).map (·.channel)

/-- The scope at which the access is a release (Table 17-4), if it is one. -/
def releaseScope (s : State) (a : Access) : Option (BitVec 3) :=
  let ord : BitVec 3 :=
    match a.op with
    | .store | .atom _ | .cas _ => a.ord
    | .stv | .vrcl | .arrive _ => 3#3
    | .jdec => if a.space == .gl then 5#3 else 3#3
    | _ => 0#3
  if ord == 0#3 then none
  else
    match reach s a with
    | .at (.gl (.host _ _) _) => some 6#3
    | _ => some ord

/-- The memory type of a gl access, looked up at the gateway (R253). -/
def memType (s : State) (a : Access) : Option (BitVec 2 × Phys) :=
  if a.space != .gl then none
  else
    let va := glVa s a
    match (tlbFind s (dieOf a.tile) (tagOf s a.tile) va).orElse fun _ => walk s (tagOf s a.tile) va with
    | some e => some (e.ty, physOf (entryPa e va))
    | none => none

/-- The access is a store: at .tl it counts as performed once it has left the tile (R243). -/
def isStore (op : AccOp) : Bool :=
  match op with
  | .store | .stv | .vrcl | .spill => true
  | _ => false

/-- The access counts as performed at a scope (R243), given the accesses that have not left their tiles: at .tl a store has left
the issue path; at wider scopes its home has performed it; at .sy a host store has been flushed as well. -/
def performedAt (held : List Nat) (scope : BitVec 3) (a : Access) : Bool :=
  a.res.isSome || a.guard == .discarded || (scope == 1#3 && isStore a.op && !held.contains a.id)

/-- No host store below this number awaits its flushing read (R255). -/
def hostFlushed (s : State) (below : Nat) : Bool :=
  s.ports.all fun p => p.2.unflushed.all fun n => below ≤ n

/-- A guard holds an earlier message of the tile at the head of this one's channel (R55). -/
def behindHeld (s : State) (m : Msg) : Bool :=
  s.net.any fun b => b.src == m.src && b.chan == m.chan && b.id ≤ m.id && b.guard.isBound

/-- Every access and message of a task numbered below has been performed at the scope (R230, R245), given the accesses that have
not left their tiles. -/
def doneWith (s : State) (held : List Nat) (t : Nat) (g : DWord) (below : Nat) (scope : BitVec 3) : Bool :=
  (s.accs.all fun a => !sameTask s t g a.tile a.gtid || below ≤ a.id || performedAt held scope a) &&
    (s.net.all fun m => !sameTask s t g m.src m.gtid || below ≤ m.id ||
      (m.chan != Traffic.tileToTile.channel && m.chan != Traffic.stream.channel) ||
      (scope == 1#3 && !behindHeld s m) || m.guard == .discarded) &&
    (scope != 6#3 || hostFlushed s below)

/-- An earlier gl access that the type of its page, or of this one, puts first (R253, R254). -/
def typeOrdered (s : State) (a b : Access) : Bool :=
  match memType s a, memType s b with
  | some (ta, pa), some (tb, pb) =>
    ta == 3#2 || tb == 3#2 || (ta == 2#2 && tb == 2#2 && endpointOf pa == endpointOf pb)
  | some (ta, _), none => ta == 3#2
  | none, some (tb, _) => tb == 3#2
  | none, none => false

/-- The access writes at its home. -/
def writes (op : AccOp) : Bool :=
  match op with
  | .store | .stv | .vrcl | .atom _ | .cas _ | .jdec | .spill => true
  | _ => false

/-- The access only reads at its home. -/
def onlyReads (op : AccOp) : Bool :=
  match op with
  | .load | .touch | .tdef => true
  | _ => false

/-- The access has an effect besides its result: it must have left the tile at a suspension point (R39). -/
def mustLeave (op : AccOp) : Bool :=
  match op with
  | .ldv _ => false
  | _ => !onlyReads op

/-- Within one host port, reads are not sent ahead of earlier writes from the same tile (R255). -/
def portOrdered (s : State) (a b : Access) : Bool :=
  onlyReads a.op && writes b.op &&
    match memType s a, memType s b with
    | some (_, .host p _), some (_, .host q _) => p == q
    | _, _ => false

/-- A guard holds an earlier access or message of the tile at the head of the access's path (R55, R137). -/
def pathHeld (s : State) (a : Access) : Bool :=
  (s.accs.any fun b => b.tile == a.tile && b.id < a.id && b.guard.isBound && effSpace b == effSpace a) ||
    (chan5 a && s.net.any fun b => b.src == a.tile && b.chan == Traffic.tileToTile.channel && b.id < a.id && b.guard.isBound)

/-- An earlier gl access of the task, not yet performed, keeps this one at its gl injection point, because one of them goes to a
strongly ordered page (R254). -/
def stronglyHeld (s : State) (a : Access) : Bool :=
  a.space == .gl && s.accs.any fun b =>
    b.id < a.id && b.res.isNone && b.guard != .discarded && b.space == .gl && sameTask s a.tile a.gtid b.tile b.gtid &&
      ((memType s a).map (·.1) == some 3#2 || (memType s b).map (·.1) == some 3#2)

/-- An access to a strongly ordered page waits until every earlier gl access of the task has been performed at .sy, host
stores flushed (R254, R255). -/
def stronglyFree (s : State) (a : Access) : Bool :=
  match memType s a with
  | some (ty, _) => ty != 3#2 || hostFlushed s a.id
  | none => true

/-- The access has not left its tile, given the earlier ones that have not (R55, R136, R137, R254). -/
def stillHeld (s : State) (held : List Nat) (a : Access) : Bool :=
  a.res.isNone && a.guard != .discarded &&
    (a.guard.isBound || pathHeld s a || stronglyHeld s a || !stronglyFree s a ||
      match releaseScope s a with
      | some sc => !doneWith s held a.tile a.gtid a.id sc
      | none => false)

/-- The accesses that have not left their tiles. -/
def heldIn (s : State) : List Nat :=
  (sortBy (fun a b : Access => a.id ≤ b.id) s.accs).foldl (fun h a => if stillHeld s h a then a.id :: h else h) []

/-- The message has not left its tile: a guard holds it or an earlier one of its channel, or it comes from a `send`, which is a
release, with something earlier still to be performed (R55, R223). -/
def msgHeld (s : State) (m : Msg) : Bool :=
  m.guard != .discarded && (behindHeld s m ||
    match m.body with
    | .inbox _ | .streamer .. | .eos .. => !doneWith s [] m.src m.gtid m.id 5#3
    | _ => false)

/-- Every access and message of a task numbered below has been performed at the scope (R230, R245). -/
def earlierDone (s : State) (t : Nat) (g : DWord) (below : Nat) (scope : BitVec 3) : Bool :=
  doneWith s (if scope == 1#3 then heldIn s else []) t g below scope

/-- A replayed access passes over what the frame of its task holds, which is sent again at the resume (R292). -/
def replayPasses (a : Access) (act : Nat) (again : Bool) : Bool := a.again && !again && act == a.act

/-- Access `b`, earlier and not yet performed, keeps access `a` from being performed: by the order of overlapping accesses of one
task, by the arrival of a store before what its tile sends to the same bytes later, by the order of memory types and of host
ports, at the head of its path, on channel 5, or as the replay of an earlier entry (R8, R55, R136, R137, R243, R253-R255,
R292). -/
def holdsBack (s : State) (a b : Access) : Bool :=
  b.id < a.id && b.res.isNone && b.guard != .discarded && !replayPasses a b.act b.again &&
    ((overlap a b && (sameTask s a.tile a.gtid b.tile b.gtid || (b.tile == a.tile && writes b.op))) ||
      (b.space == .gl && a.space == .gl && sameTask s a.tile a.gtid b.tile b.gtid && typeOrdered s a b) ||
      (b.tile == a.tile && b.space == .gl && a.space == .gl && portOrdered s a b) ||
      (b.tile == a.tile && b.guard.isBound && effSpace b == effSpace a) ||
      (b.tile == a.tile && chan5 a && chan5 b && prTile a.ea == prTile b.ea) ||
      (a.again && b.again && b.act == a.act))

/-- A message of the tile that an access on channel 5 may not pass (R8, R55). -/
def msgAhead (a : Access) (m : Msg) : Bool :=
  m.id < a.id && m.src == a.tile && m.chan == Traffic.tileToTile.channel && m.guard != .discarded && !replayPasses a m.act false &&
    (m.guard.isBound || unitNamed m.dst == (0, prTile a.ea))

/-- Nothing on channel 5 stands before the access (R8, R21, R224). -/
def channelFree (s : State) (a : Access) : Bool :=
  !chan5 a || (!(s.net.any (msgAhead a)) && inputFree s a.tile (prTile a.ea) a.id)

/-- The access may be performed now. -/
def mayPerform (s : State) (a : Access) : Bool :=
  a.res.isNone && !a.guard.isBound && !(s.accs.any (holdsBack s a)) && channelFree s a && stronglyFree s a &&
    (match releaseScope s a with
     | some sc => a.again || earlierDone s a.tile a.gtid a.id sc
     | none => true)

/-! ## Waits of the access side at issue (R133, R135, R136) -/

/-- An acquire or fence is still in progress for the task that tile `t` names (R136, R230). -/
def stillHolds (s : State) (t : Nat) (g : DWord) (h : Hold) : Bool :=
  match h with
  | .access id => s.accs.any fun a => a.id == id
  | .fence scope below => !earlierDone s t g below scope

def isLdv (op : AccOp) : Bool :=
  match op with
  | .ldv _ => true
  | _ => false

/-- An `ldv` of a task that is done again as it was issued is still in progress, and is the same acquire (R233, R292). -/
def ldvAgain (s : State) (t : Nat) (g : DWord) : Bool :=
  s.accs.any fun a => a.again && a.tile == t && a.gtid == g && isLdv a.op

/-- The acquire or fence of the acting tile's task is still in progress (R136, R230, R233). -/
def holding (s : State) (k : Task) : Bool :=
  (match k.hold with
   | none => false
   | some h => stillHolds s s.cur.tile k.gtid h) || ldvAgain s s.cur.tile k.gtid

/-- An access, command, message or fence may not issue under an acquire or fence in progress (R136). -/
def orderGate (s : State) : Option State := if holding s (curTask s) then some (holdBundle s 5) else none

/-- A guarded command may not become the 65th that a guard holds (R55 item 9). -/
def heldGate (s : State) (slot : BitVec 3) : Option State :=
  if (bindGuard s slot).isBound && 64 ≤ heldCount s s.cur.tile then some (holdBundle s) else none

/-- Accesses and messages of the tile that can still log an entry (R135). -/
def inFlight (s : State) (t : Nat) : Nat :=
  (s.accs.filter fun a => a.tile == t && a.guard != .discarded).length +
    (s.net.filter fun m => m.src == t && m.guard != .discarded).length

/-- The replay overflow must keep room for `n` more: at most 256 entries logged or still to be logged (R135). -/
def roomFor (s : State) (n : Nat) : Option State :=
  if 256 < (curTile s).replay.length + inFlight s s.cur.tile + n then some (holdBundle s) else none

/-- Room for one more access or message (R135). -/
def roomGate (s : State) : Option State := roomFor s 1

/-- The gates an access or command passes at issue, in one place. -/
def issueGate (s : State) (slot : BitVec 3) (reads writes : List (BitVec 4)) : Option State :=
  (regGate s reads writes).orElse fun _ => (orderGate s).orElse fun _ => (heldGate s slot).orElse fun _ => roomGate s

end Sys2Proof.Machine
end

