-- ==== Sys2Proof/Machine/Control.lean ====
section
/-! DEFINITION. Control transfer, hardware loops and address arithmetic of the access side (R85, R123-R133). -/

namespace Sys2Proof.Machine

/-- The outcome of every step: a next state (R284: every trap is one). -/
abbrev Out := Host.Outcome State Fault Refusal

/-- Where a branch of `w` offset bits goes: pc + 8 x (OFF + EXT) (R123, R125). -/
def target (s : State) (off : BitVec n) : DWord := s.cur.pc + 8#64 * (off.signExtend 64 + s.cur.ext.signExtend 64)

/-- A compare branch on two registers (R125). -/
def compareBranch (s : State) (f : FAB) (taken : DWord → DWord → Bool) : State :=
  match regGate s [f.a, f.b] [] with
  | some s' => s'
  | none => if taken (rdA s f.a) (rdA s f.b) then branchTo s (target s f.o) else finish s

/-- A branch on the head of xq, which it consumes (R126). -/
def xqBranch (s : State) (f : FAX) (taken : DWord → Bool) : State :=
  match (curTask s).xq with
  | [] => waitBranch s
  | v :: r =>
    let s' := setCurTask s { curTask s with xq := r }
    if taken v then branchTo s' (target s f.o) else finish s'

/-- A branch on the newest earlier generation of a guard slot; gd0 is always true (R127). -/
def guardBranch (s : State) (f : FAG) (sense : Bool) : State :=
  if f.s == 0#3 then (if sense then branchTo s (target s f.o) else finish s)
  else
    match (newestGen s f.s).2 with
    | none => waitBranch s
    | some v => if v == sense then branchTo s (target s f.o) else finish s

/-- A register form of address arithmetic (R131). -/
def arith2 (s : State) (f : FAR) (op : DWord → DWord → DWord) : State :=
  match regGate s [f.a, f.b] [f.d] with
  | some s' => s'
  | none => finish (wrA s f.d (op (rdA s f.a) (rdA s f.b)))

/-- The immediate of an AI form (R132). -/
def immA (s : State) (i : BitVec 14) : DWord := i.signExtend 64 + s.cur.ext.signExtend 64

/-- An immediate form of address arithmetic (R132). -/
def arithImm (s : State) (f : FAI) (op : DWord → DWord → DWord) : State :=
  match regGate s [f.a] [f.d] with
  | some s' => s'
  | none => finish (wrA s f.d (op (rdA s f.a) (immA s f.i)))

/-- `nop` of the A-class map (R85). -/
def execNopA (s : State) : Out := .next (finish s)

/-- A hint of the A-class map changes no state (R85). -/
def execHintA (_ : FHintA) (s : State) : Out := .next (finish s)

/-- `jmp` (R123). -/
def execJmp (f : FAJ) (s : State) : Out := .next (branchTo s (target s f.o))

/-- `call` writes the link into a15 (R123). -/
def execCall (f : FAJ) (s : State) : Out :=
  .next <| match regGate s [] [15#4] with
    | some s' => s'
    | none => branchTo (wrA s 15#4 (s.cur.pc + 8#64)) (target s f.o)

/-- `jr`: a misaligned target raises ALIGN precisely (R124). -/
def execJr (f : FJr) (s : State) : Out :=
  .next <| match regGate s [f.a] [] with
    | some s' => s'
    | none =>
      let t := rdA s f.a
      if t.extractLsb' 0 3 != 0#3 then preciseTrap s .align t 0#64 else branchTo s t

/-- `callr`: the target is the value aA held before the link is written (R124). -/
def execCallr (f : FCallr) (s : State) : Out :=
  .next <| match regGate s [f.a] [f.d] with
    | some s' => s'
    | none =>
      let t := rdA s f.a
      if t.extractLsb' 0 3 != 0#3 then preciseTrap s .align t 0#64
      else branchTo (wrA s f.d (s.cur.pc + 8#64)) t

/-- `beq`: taken when equal (R125). -/
def execBeq (f : FAB) (s : State) : Out := .next (compareBranch s f fun x y => x == y)

/-- `bne`: taken when not equal (R125). -/
def execBne (f : FAB) (s : State) : Out := .next (compareBranch s f fun x y => x != y)

/-- `blt`: taken when less, signed (R125). -/
def execBlt (f : FAB) (s : State) : Out := .next (compareBranch s f fun x y => x.slt y)

/-- `bge`: taken when at least, signed (R125). -/
def execBge (f : FAB) (s : State) : Out := .next (compareBranch s f fun x y => !(x.slt y))

/-- `bltu`: taken when less, unsigned (R125). -/
def execBltu (f : FAB) (s : State) : Out := .next (compareBranch s f fun x y => x.ult y)

/-- `bgeu`: taken when at least, unsigned (R125). -/
def execBgeu (f : FAB) (s : State) : Out := .next (compareBranch s f fun x y => !(x.ult y))

/-- `bxz`: taken when the xq head is zero (R126). -/
def execBxz (f : FAX) (s : State) : Out := .next (xqBranch s f fun v => v == 0#64)

/-- `bxnz`: taken when the xq head is not zero (R126). -/
def execBxnz (f : FAX) (s : State) : Out := .next (xqBranch s f fun v => v != 0#64)

/-- `bxlt`: taken when the xq head is negative (R126). -/
def execBxlt (f : FAX) (s : State) : Out := .next (xqBranch s f fun v => v.msb)

/-- `bxge`: taken when the xq head is zero or positive (R126). -/
def execBxge (f : FAX) (s : State) : Out := .next (xqBranch s f fun v => !v.msb)

/-- `bgd` branches on a true generation (R127). -/
def execBgd (f : FAG) (s : State) : Out := .next (guardBranch s f true)

/-- `bngd` branches on a false generation (R127). -/
def execBngd (f : FAG) (s : State) : Out := .next (guardBranch s f false)

/-- The count of a `loop` (R129). -/
def loopCount (s : State) (f : FAL) : Word :=
  if f.r == 0#4 then f.n.setWidth 32 + s.cur.ext else (rdA s f.r).setWidth 32

/-- `loop` arms a counter; a count of zero skips the body as a taken branch (R129, R130). -/
def execLoop (f : FAL) (s : State) : Out :=
  .next <| match regGate s (if f.r == 0#4 then [] else [f.r]) [] with
    | some s' => s'
    | none =>
      let n := loopCount s f
      let last := s.cur.pc + 8#64 * f.e.setWidth 64
      let l : Loop := ⟨n, s.cur.pc + 8#64, last, n, n != 0#32⟩
      let t := curTask s
      let s' := setCurTask s { t with lc := t.lc.set f.c.toFin l }
      if n == 0#32 then branchTo s' (last + 8#64) else finish s'

/-- `aadd` (Table 9-5). -/
def execAadd (f : FAR) (s : State) : Out := .next (arith2 s f fun x y => x + y)

/-- `asub` (Table 9-5). -/
def execAsub (f : FAR) (s : State) : Out := .next (arith2 s f fun x y => x - y)

/-- `aand` (Table 9-5). -/
def execAand (f : FAR) (s : State) : Out := .next (arith2 s f fun x y => x &&& y)

/-- `aor` (Table 9-5). -/
def execAor (f : FAR) (s : State) : Out := .next (arith2 s f fun x y => x ||| y)

/-- `axor` (Table 9-5). -/
def execAxor (f : FAR) (s : State) : Out := .next (arith2 s f fun x y => x ^^^ y)

/-- `ashl` (Table 9-5). -/
def execAshl (f : FAR) (s : State) : Out := .next (arith2 s f fun x y => x <<< (y.toNat % 64))

/-- `ashr` (Table 9-5). -/
def execAshr (f : FAR) (s : State) : Out := .next (arith2 s f fun x y => x >>> (y.toNat % 64))

/-- `asra` (Table 9-5). -/
def execAsra (f : FAR) (s : State) : Out := .next (arith2 s f fun x y => x.sshiftRight (y.toNat % 64))

/-- `amul` (Table 9-5). -/
def execAmul (f : FAR) (s : State) : Out := .next (arith2 s f fun x y => x * y)

/-- `apeer` (Table 9-5). -/
def execApeer (f : FAR) (s : State) : Out := .next (arith2 s f fun x y => (x &&& 0x3ffff#64) ||| ((y &&& 0xffff#64) <<< 32))

/-- `aaddi` (Table 9-6). -/
def execAaddi (f : FAI) (s : State) : Out := .next (arithImm s f fun x v => x + v)

/-- `aandi` (Table 9-6). -/
def execAandi (f : FAI) (s : State) : Out := .next (arithImm s f fun x v => x &&& v)

/-- `aori` (Table 9-6). -/
def execAori (f : FAI) (s : State) : Out := .next (arithImm s f fun x v => x ||| v)

/-- `axori` (Table 9-6). -/
def execAxori (f : FAI) (s : State) : Out := .next (arithImm s f fun x v => x ^^^ v)

/-- `ashli` (Table 9-6). -/
def execAshli (f : FAI) (s : State) : Out := .next (arithImm s f fun x v => x <<< (v.toNat % 64))

/-- `ashri` (Table 9-6). -/
def execAshri (f : FAI) (s : State) : Out := .next (arithImm s f fun x v => x >>> (v.toNat % 64))

/-- `asrai` (Table 9-6). -/
def execAsrai (f : FAI) (s : State) : Out := .next (arithImm s f fun x v => x.sshiftRight (v.toNat % 64))

/-- `alh` (Table 9-6). -/
def execAlh (f : FAI) (s : State) : Out := .next (arithImm s f fun x v => (x &&& 0xffffffff#64) ||| ((v &&& 0xffffffff#64) <<< 32))

/-- `ali` (Table 9-6). -/
def execAli (f : FAli) (s : State) : Out :=
  .next <| match regGate s [] [f.d] with
    | some s' => s'
    | none => finish (wrA s f.d (immA s f.i))

end Sys2Proof.Machine
end

