-- ==== Sys2Proof/Machine/LoadStore.lean ====
section
/-! DEFINITION. Loads, stores, touches, hints and atomics of the access side, up to the point where the access leaves for
its home (R134-R151). What the home does and what returns stand in Machine/Home.lean. -/

namespace Sys2Proof.Machine

/-- Bytes of a width code (Table 5-7). -/
def widthBytes (w : BitVec 3) : Nat :=
  match w.toNat with
  | 0 => 1 | 1 => 2 | 2 => 4 | 3 => 8 | _ => 32

/-- The effective address of a load, store or touch (R134). -/
def effAddr (s : State) (b : BitVec 4) (o : BitVec 7) (n : Nat) : DWord :=
  rdA s b + (o.signExtend 64 + s.cur.ext.signExtend 64) * BitVec.ofNat 64 n

/-- The address is not a multiple of the width. -/
def misaligned (ea : DWord) (n : Nat) : Bool := ea.toNat % n != 0

/-- The queue lq0 or lq1 of a task. -/
def Task.lq (t : Task) (q : BitVec 1) : List LqEntry := if q == 0#1 then t.lq0 else t.lq1

/-- The index that the queue's next entry takes. -/
def Task.lqTail (t : Task) (q : BitVec 1) : Nat := if q == 0#1 then t.lqTail0 else t.lqTail1

/-- Appends an entry to a queue (R53). -/
def Task.pushLq (t : Task) (q : BitVec 1) (f : LqFill) : Task :=
  if q == 0#1 then { t with lq0 := t.lq0 ++ [⟨t.lqTail0, f⟩], lqTail0 := (t.lqTail0 + 1) % 8 }
  else { t with lq1 := t.lq1 ++ [⟨t.lqTail1, f⟩], lqTail1 := (t.lqTail1 + 1) % 8 }

/-- Changes the fill of a queue's entries that wait for an access. -/
def Task.mapLq (t : Task) (q : BitVec 1) (f : LqEntry → LqEntry) : Task :=
  if q == 0#1 then { t with lq0 := t.lq0.map f } else { t with lq1 := t.lq1.map f }

/-- All 8 entries of the queue are reserved or full (R53). -/
def lqFull (s : State) (q : BitVec 1) : Bool := 8 ≤ ((curTask s).lq q).length

/-- The acting task's access, not yet numbered. -/
def newAccess (s : State) (op : AccOp) (space : Space) (ea : DWord) (n : Nat) : Access :=
  { id := 0, tile := s.cur.tile, act := (curTask s).act, gtid := (curTask s).gtid, op, space, ea, n, data := 0#256,
    data2 := 0#64, ord := 0#3, dest := .none, guard := .free, pc := s.cur.pc, res := none, again := false, sums := [] }

/-- An acquire holds later accesses until its result has returned (R136). -/
def holdAfter (s : State) (acquire : Bool) (id : Nat) : State :=
  if acquire then setCurTask s { curTask s with hold := some (.access id) } else s

/-- A load or touch at issue (R141, R145). -/
def issueLoad (s : State) (space : Space) (f : FLd) : State :=
  let toA := 1 ≤ f.d.toNat && f.d.toNat ≤ 15
  let d : BitVec 4 := f.d.setWidth 4
  let q : BitVec 1 := f.d.setWidth 1
  let n := widthBytes f.w
  let ea := effAddr s f.b f.o n
  match issueGate s 0#3 [f.b] (if toA then [d] else []) with
  | some s' => s'
  | none =>
    if misaligned ea n then preciseTrap s .align ea 0#64
    else if 16 ≤ f.d.toNat && lqFull s q then waitBundle s 2
    else
      let dest : Dest := if toA then .a d else if f.d.toNat == 0 then .none else .lq q ((curTask s).lqTail q)
      let op : AccOp := if f.d.toNat == 0 then .touch else .load
      let acc := { newAccess s op space ea n with ord := f.r, dest := dest }
      let t := curTask s
      let t' := if toA then t.putA d ⟨rdA s d, .pending s.nextId⟩
        else if f.d.toNat == 0 then t else t.pushLq q (.waiting s.nextId)
      let s1 := holdAfter (addAccess (setCurTask s t') acc) (f.r != 0#3) s.nextId
      finish (if space == .gl && f.d.toNat != 0 then countEvent s1 s.cur.tile 9 1 else s1)

/-- The data of a store and the task after it is taken: the head of sq, or a register (R54, R144). -/
def storeData (s : State) (f : FSt) : Option (Vec × Task) :=
  let t := curTask s
  if f.d.toNat == 16 then
    match t.sq with
    | [] => none
    | v :: r => some (v, { t with sq := r })
  else some ((rdA s (f.d.setWidth 4)).setWidth 256, t)

/-- A store at issue (R144). -/
def issueStore (s : State) (space : Space) (f : FSt) : State :=
  let n := widthBytes f.w
  let ea := effAddr s f.b f.o n
  match issueGate s f.g (f.b :: if f.d.toNat == 16 then [] else [f.d.setWidth 4]) [] with
  | some s' => s'
  | none =>
    if misaligned ea n then preciseTrap s .align ea 0#64
    else
      match storeData s f with
      | none => waitBundle s 3
      | some (v, t') =>
        let acc := { newAccess s .store space ea n with data := v, ord := f.r, guard := bindGuard s f.g }
        let s1 := setCurTask s t'
        finish (if acc.guard == .discarded then s1 else addAccess s1 acc)

/-- An atomic at issue: RES 1 and 2 reserve an lq entry; a discarded one fills it with zero at once (R137, R150). -/
def issueAtomic (s : State) (space : Space) (op : AccOp) (g : BitVec 3) (b : BitVec 4) (reads : List (BitVec 4))
    (data data2 : DWord) (ord : BitVec 3) (w : BitVec 1) (res : BitVec 2) : State :=
  let n := if w == 0#1 then 4 else 8
  let ea := rdA s b
  let q : BitVec 1 := if res == 2#2 then 1#1 else 0#1
  match issueGate s g (b :: reads) [] with
  | some s' => s'
  | none =>
    if misaligned ea n then preciseTrap s .align ea 0#64
    else if res != 0#2 && lqFull s q then waitBundle s 2
    else
      let guard := bindGuard s g
      let t := curTask s
      let dest : Dest := if res == 0#2 then .none else .lq q (t.lqTail q)
      let acc := { newAccess s op space ea n with data := data.setWidth 256, data2 := data2, ord := ord, dest := dest, guard := guard }
      if guard == .discarded then
        finish (setCurTask s (if res == 0#2 then t else t.pushLq q (.data 0#256)))
      else
        let t' := if res == 0#2 then t else t.pushLq q (.waiting s.nextId)
        finish (holdAfter (addAccess (setCurTask s t') acc) (ord != 0#3) s.nextId)

/-- `atom` at issue (R148). -/
def issueAtom (s : State) (space : Space) (f : FAtom) : State :=
  issueAtomic s space (.atom f.p) f.g f.b [f.s] (rdA s f.s) 0#64 f.r f.w f.e

/-- `cas` at issue: DATA is the compare value and DATA2 the new one (R149, Table 21-2). -/
def issueCas (s : State) (space : Space) (f : FCas) : State :=
  issueAtomic s space (.cas f.c) f.g f.b [f.s, f.c] (rdA s f.c) (rdA s f.s) f.r f.w f.e

/-- `ld.sp` and its touch (R140, R141, R145). -/
def execLdSp (f : FLd) (s : State) : Out := .next (issueLoad s .sp f)

/-- `st.sp` (R140, R144). -/
def execStSp (f : FSt) (s : State) : Out := .next (issueStore s .sp f)

/-- `ld.pr` and its touch (R140, R141, R145). -/
def execLdPr (f : FLd) (s : State) : Out := .next (issueLoad s .pr f)

/-- `st.pr` (R140, R144). -/
def execStPr (f : FSt) (s : State) : Out := .next (issueStore s .pr f)

/-- `ld.ql` and its touch (R140, R141, R145). -/
def execLdQl (f : FLd) (s : State) : Out := .next (issueLoad s .ql f)

/-- `st.ql` (R140, R144). -/
def execStQl (f : FSt) (s : State) : Out := .next (issueStore s .ql f)

/-- `ld.gl` and its touch (R140, R141, R145). -/
def execLdGl (f : FLd) (s : State) : Out := .next (issueLoad s .gl f)

/-- `st.gl` (R140, R144). -/
def execStGl (f : FSt) (s : State) : Out := .next (issueStore s .gl f)

/-- `atom.sp` (R148, R150). -/
def execAtomSp (f : FAtom) (s : State) : Out := .next (issueAtom s .sp f)

/-- `cas.sp` (R149, R150). -/
def execCasSp (f : FCas) (s : State) : Out := .next (issueCas s .sp f)

/-- `atom.pr` (R148, R150). -/
def execAtomPr (f : FAtom) (s : State) : Out := .next (issueAtom s .pr f)

/-- `cas.pr` (R149, R150). -/
def execCasPr (f : FCas) (s : State) : Out := .next (issueCas s .pr f)

/-- `atom.gl` (R148, R150). -/
def execAtomGl (f : FAtom) (s : State) : Out := .next (issueAtom s .gl f)

/-- `cas.gl` (R149, R150). -/
def execCasGl (f : FCas) (s : State) : Out := .next (issueCas s .gl f)

/-- `pref.gl` is a hint: it changes no architectural state (R146). -/
def execPrefGl (_ : FPref) (s : State) : Out := .next (finish s)

/-- `pref.ql` is a hint: it changes no architectural state (R146). -/
def execPrefQl (_ : FPref) (s : State) : Out := .next (finish s)

end Sys2Proof.Machine
end

