-- ==== Sys2Proof/Machine/Ring.lean ====
section
/-! DEFINITION. Record rings (R330, R331) and named barriers with their sums (R228, R335). -/

namespace Sys2Proof.Machine

/-! ## Rings -/

def ringOf (s : State) : RingName → Ring
  | .die n => (dieAt s n).ring
  | .session g => (sessionAt s g).ring

def setRing (s : State) (r : RingName) (v : Ring) : State :=
  match r with
  | .die n => setDie s n { dieAt s n with ring := v }
  | .session g => setSession s g { sessionAt s g with ring := v }

/-- The header of a record (Table 25-2). -/
def recordHeader (seq : Word) (kind size : Nat) (cycle : Nat) : List Byte :=
  leBytes (seq.toNat * 2 ^ 32 + size * 2 ^ 8 + kind) 8 ++ leBytes cycle 8

/-- Writes one record of `16 + body` bytes into a ring, after a pad record where it would cross the end; drops it and
counts it in LOST where it does not fit (R330). `widx` is where the next record goes; what a reader sees is `widxOf`. -/
def ringPut (s : State) (r : RingName) (kind : Nat) (body : List Byte) (cycle : Nat) : State :=
  let g := ringOf s r
  let b := 16 + body.length
  let size := g.size.toNat
  let free := size - (g.widx - g.ridx).toNat
  let at_ := if size == 0 then 0 else g.widx.toNat % size
  let pad := if size < at_ + b then size - at_ else 0
  if size != 0 && pad + b ≤ free then
    let bytes := recordHeader g.seq kind (b / 32) cycle ++ body
    let s0 := if pad == 0 then s else edgeStoreFrom s (.ring r g.widx) (g.base.toNat + at_) (recordHeader 0#32 0 (pad / 32) cycle)
    let pos := if pad == 0 then at_ else 0
    setRing (edgeStoreFrom s0 (.ring r g.widx) (g.base.toNat + pos) bytes) r
      { g with widx := g.widx + BitVec.ofNat 64 (pad + b), seq := g.seq + 1#32 }
  else setRing s r { g with lost := satAdd g.lost 1, seq := g.seq + 1#32 }

/-- WIDX as a reader sees it: it stands before the first record whose write its home still holds (R330). -/
def widxOf (s : State) (r : RingName) : DWord :=
  (s.homeQ.findSome? fun h => match h.writer with
    | .ring x a => if x == r then some a else none
    | _ => none).getD (ringOf s r).widx

/-- A ring whose indices start anew: what is held of its old records no longer keeps WIDX back (R330). -/
def forgetRing (s : State) (r : RingName) : State :=
  { s with
    homeQ := s.homeQ.map fun h => match h.writer with
      | .ring x _ => if x == r then { h with writer := .other } else h
      | _ => h }

/-! ## Barriers -/

/-- A resident record made ready, as the newest ready one. -/
def Resident.wake (r : Resident) (order : Nat) : Resident := { r with ready := true, order := order }

/-- The records of a tile that a completed phase releases (R228): PHASE has passed theirs, and the sums go to g3, g4. -/
def wakeBarrier (tl : Tile) (home bar : Nat) (phase sdet srep : Word) (order : Nat) : Tile :=
  let f (r : Resident) : Resident :=
    match r.cause with
    | .nbar h b p =>
      let d := (phase - p).toNat
      if h == home && b == bar && !r.ready && 1 ≤ d && d ≤ 2 ^ 31 then
        { (r.wake order) with r := { r.r with w2 := sdet, w3 := srep } }
      else r
    | _ => r
  { tl with resident := tl.resident.map f, overflow := tl.overflow.map f }

/-- Applies a function to every tile of the cohort that holds a tile. -/
def mapCohort (s : State) (t : Nat) (f : Tile → Tile) : State :=
  match cohortOf s t with
  | none => s
  | some (_, c, _) => (cohortTiles c).foldl (fun s u => setTile s u (f (tileOf s u))) s

/-- Adds sums to the TOTAL values of a session (R335). -/
def addTotals (s : State) (g : Nat) (sums : Vector Word 16) : State :=
  let se := sessionAt s g
  setSession s g { se with total := Vector.zipWith (fun (a : DWord) (b : Word) => a + b.setWidth 64) se.total sums }

/-- The key of the sums of a phase: its home tile and barrier. -/
def sumKey (home bar : Nat) : Nat := home * 32 + bar % 32

/-- The record of a completed phase of the summed barrier, whose sums end with it (R335). -/
def barrierSums (s0 : State) (home bar : Nat) (phase : Word) : State :=
  let sums := smGet (Vector.replicate 16 0#32) (sumKey home bar) s0.sums
  let s := { s0 with sums := smErase (sumKey home bar) s0.sums }
  let g := tagOf s home
  let se := sessionAt s g
  if se.open_ && se.sumbar.toNat == bar then
    match cohortOf s home with
    | some (_, c, _) =>
      let gtid := (c.launch * 2 ^ 48 + c.index * 2 ^ 16) % 2 ^ 64
      let body := leBytes gtid 8 ++ leBytes (phase.toNat + home * 2 ^ 32) 8 ++ sums.toList.flatMap fun w => leBytes w.toNat 4
      let s1 := ringPut s (.session g) 2 body s.clk
      addTotals s1 g sums
    | none => s
  else s

/-- One completed phase (R228). -/
def completePhase (s : State) (home bar : Nat) (b : NBar) : State :=
  let b' : NBar :=
    ⟨b.exp, b.arr - b.exp, b.pend, b.phase + 1#32, 0#32, 0#32, b.sdet, b.srep⟩
  let tl := tileOf s home
  let s1 := setTile s home { tl with nbar := tl.nbar.set (bar % 32) b' (Nat.mod_lt _ (by decide)) }
  let s2 := mapCohort { s1 with nextId := s1.nextId + 1 } home
    fun u => wakeBarrier u home bar b'.phase b.sdet b.srep s1.nextId
  barrierSums s2 home bar b'.phase

def barAt (s : State) (home bar : Nat) : NBar := (tileOf s home).nbar[bar % 32]'(Nat.mod_lt _ (by decide))

def setBar (s : State) (home bar : Nat) (b : NBar) : State :=
  let tl := tileOf s home
  setTile s home { tl with nbar := tl.nbar.set (bar % 32) b (Nat.mod_lt _ (by decide)) }

/-- The check after every arrival and every change of PEND (R228): the loop runs while a phase is complete; ARR falls
by EXP each time, so `fuel` of 65,536 never runs out. -/
def checkBarrier (fuel : Nat) (s : State) (home bar : Nat) : State :=
  match fuel with
  | 0 => s
  | n + 1 =>
    let b := barAt s home bar
    if b.exp != 0#16 && b.exp.ule b.arr && b.pend == 0#56 then checkBarrier n (completePhase s home bar b) home bar
    else s

/-- Adds to PEND and checks (R199, R229). -/
def addPend (s : State) (home bar : Nat) (n : BitVec 56) : State :=
  let b := barAt s home bar
  checkBarrier 65536 (setBar s home bar { b with pend := b.pend + n }) home bar

/-- What an arrival takes with it as it leaves the tile: the increases of DET and REP since the tile's last arrival, and, to the
summed barrier, those of its counters since the last such arrival. An arrival that will be refused takes nothing (R229, R335;
log 95). -/
def carrySums (s : State) (t home bar : Nat) : List Word × State :=
  if !sameCohort s t home then ([], s)
  else
    let tl := tileOf s t
    let se := sessionAt s (tagOf s home)
    let summed := se.open_ && se.sumbar.toNat == bar
    let deltas := if summed then (Vector.zipWith (fun (a b : Word) => a - b) tl.counters tl.snap).toList else []
    ((tl.det - tl.detSnap) :: (tl.rep - tl.repSnap) :: deltas,
      setTile s t { tl with detSnap := tl.det, repSnap := tl.rep, snap := if summed then tl.counters else tl.snap })

/-- An arrival that a guard held leaves its tile, and takes the sums with it (R55, R229; log 95). -/
def leaveArrival (s : State) (a : Access) : State :=
  match a.op with
  | .arrive bar =>
    let c := carrySums s a.tile ((a.ea.extractLsb' 32 16).toNat) bar
    { c.2 with accs := c.2.accs.map fun b => if b.id == a.id then { b with sums := c.1 } else b }
  | _ => s

/-- One arrival (R229): the sums of DET and REP, and, at the summed barrier, of the counters (R335). -/
def arriveBarrier (s : State) (home bar : Nat) (det rep : Word) (deltas : List Word) : State :=
  let b := barAt s home bar
  let arr := if b.arr == 0xffff#16 then b.arr else b.arr + 1#16
  let s1 := setBar s home bar { b with arr := arr, sdet := satAdd b.sdet det.toNat, srep := satAdd b.srep rep.toNat }
  let se := sessionAt s (tagOf s home)
  let s2 := if se.open_ && se.sumbar.toNat == bar then
      let old := smGet (Vector.replicate 16 0#32) (sumKey home bar) s1.sums
      { s1 with sums := smSet (sumKey home bar) (Vector.ofFn fun i => satAdd old[i] ((deltas[i.val]?).getD 0#32).toNat) s1.sums }
    else s1
  checkBarrier 65536 s2 home bar

end Sys2Proof.Machine
end

