-- ==== Sys2Proof/Machine/Home.lean ====
section
/-! DEFINITION. Homes: when an access may be performed, what its home does, and what returns to the tile (R22-R25, R134-R151,
R221, R229, R231-R233, R240-R258, R299-R304, R344). -/

namespace Sys2Proof.Machine

/-! ## What stands at a place -/

/-- The bytes of a place. -/
def placeRead (s : State) (p : Place) (n : Nat) : List Byte :=
  match p with
  | .sp t o => memRead (tileOf s t).sp o n
  | .ql q o => memRead (quadAt s q).ql o n
  | .gl (.edge a) _ => memRead s.edge a n
  | .gl (.host q a) _ => memRead (portAt s q).mem a n
  | .gl .nowhere _ => List.replicate n blank

/-- Writes bytes at a place. -/
def placeWrite (s : State) (p : Place) (bs : List Byte) : State :=
  match p with
  | .sp t o => let tl := tileOf s t; setTile s t { tl with sp := memWrite tl.sp o bs }
  | .ql q o => let qd := quadAt s q; setQuad s q { qd with ql := memWrite qd.ql o bs }
  | .gl ph _ => writePhys s ph bs

/-- The unit that counts a corrected error at a place (Table 25-8): scratchpad bank 0-7 or quad local memory (8) of a site; HBM
has no such count. -/
def correctedUnit (s : State) (p : Place) : Option Nat :=
  match p with
  | .sp t o => some ((dieAt s (dieOf t)).site * 9 + o / 64 % 8)
  | .ql q _ => some ((dieAt s (dieOfCluster (q / 64))).site * 9 + 8)
  | .gl _ _ => none

/-- The unit that counts an uncorrectable error at a place (Table 25-8): the site of the tile or quad, or 72 and up the HBM
stack. -/
def unitOf (s : State) (p : Place) : Nat :=
  match p with
  | .sp t _ => (dieAt s (dieOf t)).site
  | .ql q _ => (dieAt s (dieOfCluster (q / 64))).site
  | .gl (.edge a) _ => stackOf a
  | .gl _ _ => 72

/-- A checked piece (8 bytes of a scratchpad or quad memory, a granule of edge memory) is one of those that `n` bytes at a place
meet (R342, R344). -/
def meetsGranule (p : Place) (n : Nat) (d : Damage) : Bool :=
  match p, d with
  | .sp t o, .sp u g => u == t && o / 8 ≤ g && g ≤ (o + n - 1) / 8
  | .ql q o, .ql u g => u == q && o / 8 ≤ g && g ≤ (o + n - 1) / 8
  | .gl (.edge a) _, d => metBy a n d
  | _, _ => false

/-- `n` bytes at a place fill the whole of a checked piece of local memory; edge memory makes its own checks anew (`edgePut`). -/
def coversGranule (p : Place) (n : Nat) (d : Damage) : Bool :=
  match p, d with
  | .sp t o, .sp u g => u == t && o ≤ 8 * g && 8 * g + 8 ≤ o + n
  | .ql q o, .ql u g => u == q && o ≤ 8 * g && 8 * g + 8 ≤ o + n
  | _, _ => false

/-- A checked piece that the access touches is uncorrectably damaged: its check fails (R342, R344). -/
def damaged (s : State) (p : Place) (n : Nat) : Bool := s.damage.any fun d => meetsGranule p n d && fails s d

/-- The version byte of a scratchpad word fails its parity (R344). -/
def badVersion (s : State) (t o : Nat) : Bool := s.damage.contains (.ver t (o / 4))

/-- Checked pieces made anew: the errors in them are gone (R343, R344). -/
def mend (s : State) (made : Damage → Bool) : State :=
  { s with damage := s.damage.filter fun d => !made d, soft := s.soft.filter fun d => !made d }

/-- A write makes the check of every piece that it fills anew (R343, R344). -/
def mended (s : State) (p : Place) (n : Nat) : State := mend s (coversGranule p n)

/-- All local memory of a quad, its tiles' version bytes among it, is written: the checks are made anew (R344). -/
def mendQuad (s : State) (q : Nat) : State :=
  mend s fun d => match d with
    | .sp t _ | .ver t _ => t / 8 == q
    | .ql u _ => u == q
    | _ => false

/-- A read corrects the single-bit errors that it meets and counts them (R344). -/
def readCorrects (s : State) (p : Place) (n : Nat) : State :=
  match s.soft, correctedUnit s p with
  | [], _ | _, none => s
  | _, some u => bumpLife s (.corrected u) (s.soft.filter (meetsGranule p n)).length

/-! ## What the home does -/

/-- The new value of an `atom` (R148). -/
def atomNew (op : BitVec 4) (n old v : Nat) : Nat :=
  let top := 2 ^ (8 * n)
  let so := readInt (8 * n) true old
  let sv := readInt (8 * n) true v
  match op.toNat with
  | 0 => (old + v) % top
  | 1 => (old + (top - v % top)) % top
  | 2 => if so ≤ sv then old else v
  | 3 => if so ≤ sv then v else old
  | 4 => old &&& v
  | 5 => old ||| v
  | 6 => old ^^^ v
  | 7 => v
  | 8 => (f32Add .rne (BitVec.ofNat 32 old) (BitVec.ofNat 32 v)).toNat
  | 9 => (f32MinMax true (BitVec.ofNat 32 old) (BitVec.ofNat 32 v)).toNat
  | 10 => min old v
  | _ => max old v

/-- The address of a join counter in one form for all who name it: sp and pr as the pr address of its tile (R221). -/
def canonAddr (t : Nat) (space : Space) (ea : DWord) : Space × DWord :=
  match space with
  | .sp => (.pr, BitVec.ofNat 64 (t % 65536 * 2 ^ 32 + spOff ea))
  | .ql => (.ql, BitVec.ofNat 64 (quadOf t * 2 ^ 20 + ea.toNat % 2 ^ 20))
  | x => (x, ea)

/-- A tile holds a record that waits on this counter. -/
def waitsJoin (s : State) (t : Nat) (key : Space × DWord) : Bool :=
  let w (r : Resident) : Bool := match r.cause with
    | .join space ea => !r.ready && canonAddr t space ea == key
    | _ => false
  (tileOf s t).resident.any w || (tileOf s t).overflow.any w

/-- The wakes of a counter that reached zero: one to every tile of the cohort that holds a waiting record (R221). -/
def sendWakes (s : State) (a : Access) : State :=
  let key := canonAddr a.tile a.space a.ea
  match cohortOf s a.tile with
  | none => s
  | some (_, c, _) =>
    ((cohortTiles c).filter fun u => waitsJoin s u key).foldl (fun s u =>
      let body : Body := .wake key.1 key.2
      let m : Msg := ⟨s.nextId, body.traffic.channel, 65536, BitVec.ofNat 20 u, 0, a.gtid, c.launch, tagOf s a.tile, a.pc, .free, body⟩
      { s with net := s.net ++ [m], nextId := s.nextId + 1 }) s

/-- The version condition of `ldv` (R233). -/
def versionOk (x v : Byte) : Bool := (x - v).toNat < 128

/-- Records waiting on a version become ready when a `stv` or `vrcl` satisfies them (R233). -/
def wakeVersions (s : State) (t off : Nat) (x : Byte) : State :=
  let f (r : Resident) : Resident := match r.cause with
    | .version t' o v => if t' == t && o == off && !r.ready && versionOk x v then r.wake s.nextId else r
    | _ => r
  mapCohort { s with nextId := s.nextId + 1 } t fun u => { u with resident := u.resident.map f, overflow := u.overflow.map f }

/-- Sets the version of a scratchpad word (R231). -/
def setVersion (s : State) (t off : Nat) (x : Byte) : State :=
  let tl := tileOf s t
  mend (setTile s t { tl with ver := memSet tl.ver (off / 4) x }) (· == .ver t (off / 4))

def versionAt (s : State) (t off : Nat) : Byte := memGet (tileOf s t).ver (off / 4)

/-- A store as its home performs it, with what a replica launch adds (R282). -/
def homeStore (s : State) (a : Access) (p : Place) (bs : List Byte) : State :=
  match p with
  | .gl ph _ =>
    let r := replicaOf s a.tile a.ea
    if replicaDrops r then s
    else
      let s1 := replicaSign (placeWrite s p bs) r bs
      match ph with
      | .host q _ => let pt := portAt s1 q; setPort s1 q { pt with unflushed := a.id :: pt.unflushed }
      | _ => s1
  | _ => placeWrite s p bs

/-- A barrier access names no byte, so no guard granule stops it. -/
def barrierPlace (a : Access) (p : Place) : Bool :=
  match a.op, p with
  | .arrive _, .sp .. => true
  | .barTx .., .sp .. => true
  | _, _ => false

/-- An arrival at a barrier, with what it carries: the increases of DET and REP and, to the summed barrier, the deltas of the
counters, as they stood when it left its tile (R229, R335; log 95). -/
def arrive (s : State) (sums : List Word) (home bar : Nat) : State :=
  arriveBarrier s home bar ((sums[0]?).getD 0#32) ((sums[1]?).getD 0#32) (sums.drop 2)

/-- The access reads its bytes. -/
def readsBytes (op : AccOp) : Bool :=
  match op with
  | .load | .touch | .tdef | .atom _ | .cas _ | .jdec | .ldv _ => true
  | _ => false

/-- Performs an access at the place it reaches (R141, R144, R148, R149, R221, R231-R233). In a replica window an atomic counts as
the store of what it writes (log 35). -/
def performAt (s0 : State) (a : Access) (p : Place) : AccResult × State :=
  let isSp := match p with
    | .sp t o => !barrierPlace a p && guardTouched s0 t o a.n
    | _ => false
  let s := if !isSp && readsBytes a.op then readCorrects s0 p a.n else s0
  let bs := placeRead s p a.n
  let old := leNat bs
  let v := a.data.toNat % 2 ^ (8 * a.n)
  if isSp then (.zero (some .guardTouch), s)
  else
    let hit := damaged s p a.n
    match a.op with
    | .load | .touch | .tdef =>
      if hit then (.fault .dataError, bumpLife s (.uncorrectable (unitOf s p)) 1)
      else (.value (BitVec.ofNat 256 old), s)
    | .store | .spill =>
      match p with
      | .gl _ _ =>
        if hit then (.fault .dataError, bumpLife s (.uncorrectable (unitOf s p)) 1)
        else (.value 0#256, homeStore s a p (leBytes a.data.toNat a.n))
      | _ => (.value 0#256, mended (homeStore s a p (leBytes a.data.toNat a.n)) p a.n)
    | .atom op =>
      if hit then (.fault .dataError, bumpLife s (.uncorrectable (unitOf s p)) 1)
      else (.value (BitVec.ofNat 256 old), homeStore s a p (leBytes (atomNew op a.n old v) a.n))
    | .cas _ =>
      if hit then (.fault .dataError, bumpLife s (.uncorrectable (unitOf s p)) 1)
      else (.value (BitVec.ofNat 256 old), if old == v then homeStore s a p (leBytes a.data2.toNat a.n) else s)
    | .jdec =>
      if hit then (.fault .dataError, bumpLife s (.uncorrectable (unitOf s p)) 1)
      else
        let s1 := homeStore s a p (leBytes ((old + (2 ^ 32 - 1)) % 2 ^ 32) 4)
        (.value 0#256, if old == 1 then sendWakes s1 a else s1)
    | .stv =>
      match p with
      | .sp t o =>
        let c := versionAt s t o
        let n := a.data.extractLsb' 32 8
        if badVersion s t o then (.fault .dataError, bumpLife s (.uncorrectable (unitOf s p)) 1)
        else if c != 0#8 && n != 0#8 && 128 ≤ (n - c).toNat then (.fault .versionRange, s)
        else (.value 0#256, wakeVersions (setVersion (placeWrite s p (leBytes a.data.toNat 4)) t o n) t o n)
      | _ => (.fault .xlate, s)
    | .vrcl =>
      match p with
      | .sp t o => (.value 0#256, wakeVersions (setVersion s t o 0#8) t o 0#8)
      | _ => (.fault .xlate, s)
    | .ldv _ =>
      match p with
      | .sp t o =>
        if hit || badVersion s t o then (.fault .dataError, bumpLife s (.uncorrectable (unitOf s p)) 1)
        else (.value (BitVec.ofNat 256 (old + (versionAt s t o).toNat * 2 ^ 32)), s)
      | _ => (.fault .xlate, s)
    | .arrive bar =>
      match p with
      | .sp t _ => (.value ((barAt s t bar).phase.setWidth 256), arrive s a.sums t bar)
      | _ => (.fault .xlate, s)
    | .barTx bar n =>
      match p with
      | .sp t _ => (.value 0#256, addPend s t bar n)
      | _ => (.fault .xlate, s)

/-- An `ldv` whose word has not reached its version (R233); it does not wait at a version that fails its parity (R344). -/
def stillWaits (s : State) (a : Access) (p : Place) : Bool :=
  match a.op, p with
  | .ldv v, .sp t o => !guardTouched s t o a.n && !badVersion s t o && !versionOk (versionAt s t o) v
  | _, _ => false

/-- The access is an AtomicOp to host memory. -/
def hostAtomic (a : Access) (p : Place) : Bool :=
  match p with
  | .gl (.host _ _) _ => isAtomic a.op
  | _ => false

/-- An AtomicOp that its host does not complete (R150): a free value decides. -/
def hostRefuses (s : State) (a : Access) (p : Place) : Bool := hostAtomic a p && !Config.hostCompletes s.freeIdx

/-- Records what an access met. -/
def setResult (s : State) (id : Nat) (r : AccResult) : State :=
  { s with accs := s.accs.map fun a => if a.id == id then { a with res := some r } else a }

/-- A store to a line that a host agent may hold waits for the host's answer, and any access to a line of which its home still holds
a write waits for that one (R256). -/
def waitsForHost (s : State) (a : Access) (p : Place) : Option Nat :=
  match p with
  | .gl (.edge pa) _ => if (writes a.op && hostHolds s pa) || queuedAt s pa a.n then some (pa / 64) else none
  | _ => none

/-- The port's 1,024 tags are all in use by requests of tiles whose completions are on the way (R306). -/
def portBusy (s : State) (a : Access) (p : Place) : Bool :=
  match p with
  | .gl (.host q _) _ =>
    a.op != .store && a.op != .spill &&
      1024 ≤ (s.accs.filter fun b => b.res.isSome && b.op != .store && b.op != .spill && (match reach s b with
        | .at (.gl (.host r _) _) => r == q
        | _ => false)).length
  | _ => false

/-- A relaxed gl load of ordinary memory that may be performed and reads the same bytes as one from the same cluster: the
Crossing serves both with one read (R201). -/
def mergesWith (s : State) (a : Access) (p : Place) (b : Access) : Bool :=
  b.id != a.id && b.op == .load && b.ord == 0#3 && b.n == a.n && clusterOf b.tile == clusterOf a.tile &&
    mayPerform s b && b.guard != .discarded && reach s b == .at p

/-- The load may be merged with others: relaxed, and not to a device or strongly ordered page (R201). -/
def mergeable (a : Access) (p : Place) : Bool :=
  match p with
  | .gl _ ty => a.op == .load && a.ord == 0#3 && ty.ult 2#2
  | _ => false

/-- The Crossing has merged a request of a tile (R213, R334). -/
def countMerged (s : State) (t : Nat) : State :=
  match cohortOf s t with
  | some (key, c, _) => countEvent (setCohort s key { c with merged := c.merged + 1 }) t 0x0d 1
  | none => s

/-- The loads that the Crossing merges with a read take its result, and are counted (R201). -/
def mergeLoads (s : State) (a : Access) (p : Place) (r : AccResult) : State :=
  if !mergeable a p then s
  else (s.accs.filter (mergesWith s a p)).foldl (fun s1 b => countMerged (setResult s1 b.id r) b.tile) s

/-- The access of a tile at its home (R240, R241): nothing happens while it may not yet be performed. A discarded one is answered
at once, whatever stands before it (R137). -/
def homeTile (s : State) (id : Nat) : State :=
  match s.accs.find? fun a => a.id == id with
  | none => s
  | some a =>
    if a.guard == .discarded then (if a.res.isNone then setResult s id (.zero none) else s)
    else if !mayPerform s a then s
    else
      match reach s a with
      | .walking => s
      | .faults c => setResult s id (.fault c)
      | .at p =>
        if stillWaits s a p || portBusy s a p then s
        else if hostRefuses s a p then setResult { s with freeIdx := s.freeIdx + 1 } id (.fault .xlate)
        else
          match waitsForHost s a p with
          | some line => askBack s line
          | none =>
            let r := performAt (if hostAtomic a p then { s with freeIdx := s.freeIdx + 1 } else s) a p
            setResult (mergeLoads r.2 a p r.1) id r.1

/-- NBAR_REMOTE_ACCESS: an arrival or a change of pending bytes is applied at the barrier's home (R229). -/
def execNbarRemoteAccess (id : Nat) (s : State) : Out :=
  .next <| match s.accs.find? fun a => a.id == id with
    | some a =>
      match a.op with
      | .arrive _ | .barTx .. => homeTile s id
      | _ => s
    | none => s

end Sys2Proof.Machine
end

