-- ==== Sys2Proof/Machine/Deliver.lean ====
section
/-! DEFINITION. What comes back to a tile: access responses, code lines, descriptors; the gateway's walks and
invalidations; the raising of a full replay queue; host answers (R47, R48, R53, R135, R142, R184, R255, R256, R286,
R299-R302). -/

namespace Sys2Proof.Machine

/-- KIND of an access in the replay queue (Table 21-2). -/
def kindOf (op : AccOp) : Byte :=
  match op with
  | .load => 1#8 | .store | .spill => 2#8 | .touch => 3#8 | .atom _ => 4#8 | .cas _ => 5#8
  | .stv | .vrcl | .ldv _ => 6#8 | .jdec | .arrive _ | .barTx .. => 7#8 | .tdef => 10#8

/-- OP of the entry: an atomic's operation or CMP code (Table 21-2). -/
def opOf (op : AccOp) : BitVec 8 :=
  match op with
  | .atom p => p.setWidth 8
  | .cas c => c.setWidth 8
  | _ => 0#8

/-- Width code of a number of bytes (Table 5-7). -/
def widthCode (n : Nat) : BitVec 3 :=
  match n with
  | 1 => 0#3 | 2 => 1#3 | 4 => 2#3 | 8 => 3#3 | _ => 4#3

/-- ACTION as the tile writes it: 1 for XLATE and DATA_ERROR, 0 otherwise (Table 21-2). -/
def actionFor (c : Code) : BitVec 4 := if c == .xlate || c == .dataError then 1#4 else 0#4

/-- INFO of a guard touch: the bank (Table 21-2, R23). -/
def infoFor (c : Code) (ea : DWord) : Byte := if c == .guardTouch then BitVec.ofNat 8 (spOff ea / 64 % 8) else 0#8

/-- DEST and SLOT of an entry (Table 21-2). -/
def destFields (d : Dest) : BitVec 5 × Nat :=
  match d with
  | .none => (0#5, 0)
  | .a n => (n.setWidth 5, 0)
  | .lq q i => (16#5 + q.setWidth 5, i)
  | .tensor n => (0#5, n.toNat)

/-- The entry that an access logs (R286). -/
def entryFor (a : Access) (c : Code) : ReplayEntry :=
  { gtid := a.gtid, ea := a.ea, action := actionFor c, info := infoFor c a.ea, slot := (destFields a.dest).2,
    dest := (destFields a.dest).1, width := widthCode a.n, space := a.space, op := opOf a.op, kind := kindOf a.op,
    code := c, pc := a.pc, data := a.data, data2 := a.data2, ord := a.ord, what := some a.op }

/-- Fills what an access's result was reserved for, where the task that asked still runs (R141, R142, R148). -/
def fillDest (t : Task) (a : Access) (v : Vec) (poison : Option (Code × DWord)) : Task :=
  if t.act != a.act then t
  else
    match a.dest with
    | .none | .tensor _ => t
    | .a n =>
      let st := match poison with
        | some (c, ea) => RegStatus.poisoned c ea
        | none => .ready
      match t.a[n.toFin].st with
      | .pending id => if id == a.id then t.putA n ⟨v.setWidth 64, st⟩ else t
      | _ => t
    | .lq q _ =>
      let fill := match poison with
        | some (c, ea) => LqFill.poisoned c ea
        | none => .data v
      t.mapLq q fun e => if e.fill == .waiting a.id then { e with fill := fill } else e

/-- Replaces a tile's task. -/
def setTask (s : State) (t : Nat) (k : Task) : State := setTile s t { tileOf s t with task := k }

/-- Removes an access. -/
def dropAccess (s : State) (id : Nat) : State := { s with accs := s.accs.filter fun a => a.id != id }

/-- What the result of an access makes of the task that asked, and the code that it logs (R135, R141, R142). -/
def landResult (k : Task) (a : Access) (r : AccResult) : Task × Option Code :=
  match r with
  | .value v => (fillDest k a v none, none)
  | .zero c => (fillDest k a 0#256 none, c)
  | .fault c => (fillDest k a 0#256 (some (c, a.ea)), some c)

/-- The result of an access reaches its tile (R135, R141, R142). -/
def deliver (s : State) (a : Access) (r : AccResult) : State :=
  let p := landResult (tileOf s a.tile).task a r
  let s1 := setTask (dropAccess s a.id) a.tile p.1
  let s2 := match p.2 with
    | some c => logFor s1 a.tile (entryFor a c)
    | none => s1
  if r == .fault .kerbRefused then notifyKerb s2 a.tile a.gtid a.pc a.ea else s2

/-! ## Descriptors (R184) -/

/-- The entry that a descriptor read leaves, with the trap it logs. -/
def tensorEntry (r : AccResult) (ea : DWord) : TEntry × Option Code :=
  match r with
  | .value v =>
    match parseDesc v with
    | .ok d => (.valid d, none)
    | .error c => (.poisoned c ea, some c)
  | .zero (some c) => (.poisoned c ea, some c)
  | .zero none => (.invalid, none)
  | .fault c => (.poisoned c ea, some c)

/-- TDEF_DESCRIPTOR_ARRIVAL: the descriptor read for entry `n` returns (R184). -/
def execTdefDescriptorArrival (t n : Nat) (s : State) : Out :=
  .next <| match s.accs.find? fun a => a.tile == t && a.op == .tdef && a.dest == .tensor (BitVec.ofNat 6 n) && a.res.isSome with
    | some a =>
      match a.res with
      | some r =>
        let e := tensorEntry r a.ea
        let s1 := dropAccess s a.id
        let tl := tileOf s1 t
        let s2 := setTile s1 t { tl with tt := tl.tt.set (n % 64) e.1 (Nat.mod_lt _ (by decide)) }
        match e.2 with
        | some c => logEntry s2 t (entryFor a c)
        | none => s2
      | none => s
    | none => s

/-! ## Code lines (R47, R48) -/

/-- A line joins the fetch buffer of 8, the least recently used leaving: the lines stand newest use first. -/
def putLine (s : State) (t : Nat) (l : FetchLine) : State :=
  let tl := tileOf s t
  setTile s t { tl with lines := (l :: tl.lines.filter (·.base != l.base)).take 8 }

/-- A tile receives what the fetch of a line found. A line whose fetch failed takes no place in the buffer: its fault stands for
the task that waits at one of its bundles, and a fetch ahead that failed leaves nothing (R48). -/
def takeLine (s : State) (t : Nat) (base : Nat) (l : Except Code FetchLine) : State :=
  let tl := tileOf s t
  match l with
  | .ok l => putLine s t l
  | .error c => if lineOf tl.task.pc == base then setTile s t { tl with badFetch := some (tl.task.act, base, c) } else s

/-- What the fetch of a line finds: `none` while the gateway has no translation. One damaged granule spoils the whole line (R47,
R48, R344). -/
def fetchLine (s : State) (t : Nat) (base : DWord) : Option (Except Code FetchLine × State) :=
  if !glForm base then some (.error .xlate, s)
  else
    (tlbFind s (dieOf t) (tagOf s t) base).map fun e =>
      let p := physOf (entryPa e base)
      let at_ : Place := .gl p e.ty
      if !e.x || 2#2 ≤ e.ty || p == .nowhere then (.error .xlate, s)
      else if damaged s at_ 256 then (.error .dataError, bumpLife s (.uncorrectable (unitOf s at_)) 1)
      else
        (.ok { base := base.toNat, bytes := ((upFrom 0 256).zip (placeRead s at_ 256)).filter fun c => c.2 != blank },
          readCorrects s at_ 256)

/-- The other tiles of the cluster whose access side waits for this line: the Crossing merges their fetches (R48). -/
def fetchesWith (s : State) (t : Nat) (base : DWord) : List Nat :=
  (s.tiles.filter fun e =>
    e.1 != t && clusterOf e.1 == clusterOf t && tagOf s e.1 == tagOf s t && e.2.run == .running &&
      lineOf e.2.task.pc == base.toNat && !(e.2.lines.any fun l => l.base == base.toNat)).map (·.1)

/-- FETCH_LINE_FILL: a line arrives that holds the PC of a running task, or the line after one that it issues from
(R48). -/
def execFetchLineFill (t : Nat) (base : DWord) (s : State) : Out :=
  .next <|
    let tl := tileOf s t
    let want := lineOf tl.task.pc
    let ahead := tl.lines.any fun l => l.base == want && want + 256 == base.toNat
    if tl.run == .running && base.toNat % 256 == 0 && (base.toNat == want || ahead) &&
        !(tl.lines.any fun l => l.base == base.toNat) then
      match fetchLine s t base with
      | some (l, s0) =>
        (fetchesWith s t base).foldl (fun s1 u => countMerged (takeLine s1 u base.toNat l) u) (takeLine s0 t base.toNat l)
      | none => s
    else s

/-! ## Walks and invalidations (R299-R302) -/

/-- Two addresses lie in one 4 KiB page. -/
def samePage (a b : DWord) : Bool := a.extractLsb' 12 52 == b.extractLsb' 12 52

/-- The accesses of a die that wait for the walk of a page which has failed. -/
def failWalk (s : State) (die tag : Nat) (va : DWord) : State :=
  let f (a : Access) : Access :=
    if a.space == .gl && dieOf a.tile == die && tagOf s a.tile == tag && a.res.isNone && reach s a == .walking &&
        samePage (glVa s a) va && mayPerform s a then { a with res := some (.fault .xlate) } else a
  let s1 := { s with accs := s.accs.map f }
  let g (e : Nat × Tile) : Nat × Tile :=
    let pcLine := BitVec.ofNat 64 (lineOf e.2.task.pc)
    if dieOf e.1 == die && tagOf s e.1 == tag && e.2.run == .running && samePage pcLine va &&
        !(e.2.lines.any fun l => l.base == pcLine.toNat) then
      (e.1, { e.2 with badFetch := some (e.2.task.act, pcLine.toNat, .xlate) })
    else e
  { s1 with tiles := s1.tiles.map g }

/-- PAGE_WALK: a gateway's walk completes, filling the TLB or raising XLATE for those that wait on it (R299-R301). -/
def execPageWalk (die tag va : Nat) (s : State) : Out :=
  .next <|
    let v := BitVec.ofNat 64 va
    match (if glForm v then walk s tag v else none) with
    | some e => tlbPut s die e
    | none => failWalk s die tag v

/-- GATEWAY_INVALIDATION: a die's gateway drops a tenant's translations, of a VA range or all (R302). -/
def execGatewayInvalidation (die tenant : Nat) (range : Option (Nat × Nat)) (s : State) : Out :=
  .next <|
    let d := dieAt s die
    let hit (e : TlbEntry) : Bool := e.tenant == tenant &&
      match range with
      | some (lo, hi) => e.lo < hi && lo < e.hi
      | none => true
    setDie s die { d with tlb := d.tlb.filter fun e => !hit e }

/-! ## The full replay queue (R135) -/

/-- Raises a tile's logged faults outside a bundle, the task standing at its next bundle. -/
def raiseLogged (s : State) (t : Nat) : State :=
  match reportable s t with
  | [] => s
  | e :: _ =>
    let k := (tileOf s t).task
    takeTrap s t
      { code := e.code, xside := false, precise := false, info := e.info, pc := k.pc, apc := k.pc, arg0 := e.ea,
        arg1 := 0#64, arg2 := 0#64, rpc := k.pc, xpushed := k.xpushed }

/-- An access, or a message on a channel that can refuse it, of the tile's task is still in flight (R135). -/
def taskInFlight (s : State) (t : Nat) : Bool :=
  let g := (tileOf s t).task.gtid
  (s.accs.any fun a => sameTask s t g a.tile a.gtid) ||
    s.net.any fun m => sameTask s t g m.src m.gtid && (m.chan == Traffic.tileToTile.channel || m.chan == Traffic.stream.channel)

/-- The replay queue of a tile holds 32 entries or more, some of which a report point raises: the task issues nothing
(R135). -/
def replayFull (s : State) (t : Nat) : Bool := 32 ≤ (tileOf s t).replay.length && !(reportable s t).isEmpty

/-- REPLAY_QUEUE_FULL: with 32 entries logged and nothing of the task in flight, the logged faults are raised (R135), under a
halt of the tile only after it (R298, R305). -/
def execReplayQueueFull (t : Nat) (s : State) : Out :=
  .next <|
    if (tileOf s t).run == .running && haltAllows (tileOf s t) && replayFull s t && !taskInFlight s t then raiseLogged s t
    else s

/-! ## The host's side of ordering (R255, R256) -/

/-- BACK_INVALIDATION_RESPONSE: host agents no longer hold the line, so its home may perform the stores that wait for it
(R256). -/
def execBackInvalidationResponse (pa : Nat) (s : State) : Out :=
  let f (p : Nat × Port) : Nat × Port :=
    (p.1, { p.2 with cached := p.2.cached.filter (· != pa / 64), asked := p.2.asked.filter (· != pa / 64) })
  .next (drainHome s.homeQ { s with ports := s.ports.map f, homeQ := [] })

/-- FLUSHING_READ_COMPLETION: the zero-length read of a port completes, and its earlier host stores are performed at .sy
(R255). -/
def execFlushingReadCompletion (port : Nat) (s : State) : Out :=
  .next (setPort s port { portAt s port with unflushed := [] })

end Sys2Proof.Machine
end

