-- ==== Sys2Proof/Machine/Suspend.lean ====
section
/-! DEFINITION. Continuation records and the placing of tasks: suspension (R39, R63, R217), placement and spill (R218-R220,
R274), residence (R40, R41), the inbox slot of a task (R224), and the start of a task from a record (R38). -/

namespace Sys2Proof.Machine

/-! ## Records (Table 1-9) -/

/-- The PC word of a record. -/
def recPcWord (depth : Nat) (pc : DWord) (msg : Bool) : DWord :=
  BitVec.ofNat 64 (depth % 64 * 2 ^ 58) ||| (pc &&& 0x01fffffffffffff8#64) ||| (if msg then 2#64 else 0#64)

def Rec.depth (r : Rec) : Nat := (r.pcw.extractLsb' 58 6).toNat
def Rec.pc (r : Rec) : DWord := r.pcw &&& 0x01fffffffffffff8#64
/-- Bit 57 or bit 2 of the PC word is 1: the record is bad (R38). -/
def Rec.bad (r : Rec) : Bool := r.pcw.getLsbD 57 || r.pcw.getLsbD 2
def Rec.setTransit (r : Rec) (b : Bool) : Rec := { r with pcw := (r.pcw &&& ~~~ 1#64) ||| (if b then 1#64 else 0#64) }

/-- The 64 bytes of a record (Table 1-9). -/
def recBytes (r : Rec) : List Byte :=
  leBytes r.pcw.toNat 8 ++ leBytes r.gtid.toNat 8 ++ leBytes r.frame.toNat 8 ++ leBytes r.join.toNat 8 ++
    leBytes r.arg0.toNat 8 ++ leBytes r.arg1.toNat 8 ++ leBytes r.w0.toNat 4 ++ leBytes r.w1.toNat 4 ++
    leBytes r.w2.toNat 4 ++ leBytes r.w3.toNat 4

/-- The record of the running task, resuming at `pc` (R217). -/
def taskRec (k : Task) (pc : DWord) (msg : Bool) : Rec :=
  ⟨recPcWord k.depth pc msg, k.gtid, k.a[1].val, k.a[2].val, k.a[3].val, k.a[4].val, k.g[1], k.g[2], k.g[3], k.g[4]⟩

/-- The registers of a task resumed from a record (R38). -/
def recTask (r : Rec) (act : Nat) (slot : Option Nat) : Task :=
  let a := Vector.ofFn fun i : Fin 16 =>
    AReg.mk (if i == 1 then r.frame else if i == 2 then r.join else if i == 3 then r.arg0 else if i == 4 then r.arg1 else 0#64) .ready
  let g := Vector.ofFn fun i : Fin 48 =>
    if i == 1 then r.w0 else if i == 2 then r.w1 else if i == 3 then r.w2 else if i == 4 then r.w3 else 0#32
  { Task.zero with
    act := act, gtid := r.gtid, pc := r.pc, depth := r.depth, a := a, g := g, lfsr := lfsrSeed r.gtid r.pc,
    inboxSlot := slot }

/-! ## The spill slab (R219, R274) -/

/-- The launch of the cohort on a tile. -/
def launchAt (s : State) (t : Nat) : Option (Nat × Launch) :=
  match cohortOf s t with
  | some (_, c, _) => (smFind c.launch s.launches).map fun l => (c.launch, l)
  | none => none

/-- The address of a tile's slab, where the card names a spill region (R274). -/
def spillSlab (s : State) (t : Nat) : Option Nat :=
  match launchAt s t with
  | some (_, l) =>
    if cardSpill l.card == 0#64 then none
    else
      match smFind l.tag s.regions with
      | some g =>
        let r := (tileY t / 16 - g.y0) * g.width + (tileX t / 16 - g.x0)
        some ((cardSpill l.card).toNat + 8192 * (r * 256 + (tileY t % 16 * 16 + tileX t % 16)))
      | none => some (cardSpill l.card).toNat
  | none => none

/-- The stores of a record to a slab slot, made on the acting task's behalf (R219). -/
def spillStores (s : State) (addr : Nat) (r : Rec) : State :=
  let v (h : Nat) : Vec := BitVec.ofNat 256 (leNat (((recBytes r).drop (32 * h)).take 32))
  let acc (h : Nat) : Access := { newAccess s .spill .gl (BitVec.ofNat 64 (addr + 32 * h)) 32 with data := v h }
  addAccess (addAccess s (acc 0)) (acc 1)

/-- The lowest place of the tile's general spill that neither a deque record nor a resident record takes (R40, R219; log 91). -/
def freePlace (tl : Tile) : Option Nat :=
  (upFrom 0 64).find? fun i => !tl.slots.contains i && !(tl.overflow.any fun r => r.place == some i)

/-- The hardware deque takes a record as its newest entry; when full, its oldest entry moves to the general spill
(R219 items 1 and 2). `none`: no room in either. -/
def placeDeque (s : State) (r : Rec) : Option State :=
  let tl := curTile s
  if tl.deque.length < 16 then some (setCurTile s { tl with deque := tl.deque ++ [r] })
  else
    match spillSlab s s.cur.tile, tl.deque, freePlace tl with
    | some slab, old :: rest, some i =>
      some (spillStores (setCurTile s { tl with deque := rest ++ [r], spill := tl.spill ++ [old], slots := tl.slots ++ [i] })
        (slab + 64 * i) old)
    | _, _, _ => none

/-- The reserved slot that a record of a spawner at depth `d` takes: slot `d`, which R219 finds empty but for slot 63. Where the
task resumed from a frame ahead of the records that wait in reserved slots, and another record holds slot `d`, the lowest free
slot above it, or else the highest below; with all 64 taken the tile keeps the record itself, under a number from 64 on, so that
R45 holds (log 96). -/
def reservedFor (tl : Tile) (d : Nat) : Nat :=
  let free (i : Nat) : Bool := (smFind i tl.reserved).isNone
  (((upFrom d (64 - d)).find? free).orElse fun _ =>
    ((upFrom 0 d).reverse.find? free).orElse fun _ => (upFrom 64 (tl.reserved.length + 1)).find? free).getD d

/-- The run at depth 63 has filled reserved slot 63: its next record finds no place (R45, R219). -/
def slotSpent (tl : Tile) (d : Nat) : Bool := d == 63 && tl.task.filled63 && (smFind 63 tl.reserved).isSome

/-- Place(rec, d) (R219): `none` raises SPAWN_DEPTH, with no spill region or for the second record of a run at depth 63 (R45). -/
def placeRec (s : State) (r : Rec) (d : Nat) : Option State :=
  match placeDeque s r with
  | some s' => some s'
  | none =>
    match spillSlab s s.cur.tile with
    | some slab =>
      let tl := curTile s
      if slotSpent tl d then none
      else
        let i := reservedFor tl d
        let k := { tl.task with
          depth := min ((if i < 64 then max d i else d) + 1) 63
          filled63 := tl.task.filled63 || i == 63 || d == 63 }
        let s1 := setCurTile s { tl with reserved := smSet i r tl.reserved, task := k }
        some (if i < 64 then spillStores s1 (slab + 4096 + 64 * i) r else s1)
    | none => none

/-- The replay overflow must have room for the two stores of a record that goes to the slab (R135, R219). -/
def slabRoom (s : State) (toSlab : Bool) : Option State := if toSlab then roomFor s 2 else none

/-! ## Suspension (R39, R217) -/

/-- Nothing that must leave the tile before a suspension is still there: earlier X instructions, stores, copy commands
and messages, whether a guard or their order holds them, in long mode long-vector commands (R39, R66), and the matrix commands
and follow-ons that act on the accumulators which the suspension loses (R64; log 16). -/
def settled (s : State) (t : Nat) : Bool :=
  let tl := tileOf s t
  let act := tl.task.act
  let held := heldIn s
  tl.task.xinstr.isEmpty &&
    !(s.accs.any fun a => sameTask s t tl.task.gtid a.tile a.gtid &&
      (a.guard.isBound || (held.contains a.id && mustLeave a.op))) &&
    !(s.net.any fun m => sameTask s t tl.task.gtid m.src m.gtid && msgHeld s m) &&
    !(tl.copies.any fun c => c.cmd.act == act && c.cmd.guard.isBound) &&
    !(tl.copies.any fun c => c.cmd.act == act && c.follow.isSome && c.cmd.guard != .discarded) &&
    !(tl.matq.any fun c => c.act == act) && !(tl.chainq.any fun c => c.act == act && c.guard.isBound) &&
    (!tl.task.long || tl.longq.isEmpty)

/-- Frees an inbox slot (R224). -/
def freeSlot (tl : Tile) (slot : Option Nat) : Tile :=
  match slot with
  | some i => { tl with inbox := tl.inbox.set (i % 8) none (Nat.mod_lt _ (by decide)) }
  | none => tl

/-- The tile after its task has given it up: lq, sq, xq, ef, the guard slots, ri, the landing registers, the matrix and
long-vector state of the task are gone, and the tile is closed to puts and ring values. An acquire or fence in progress stays
with the task (R39, R63, R64, R66, R136, R230). -/
def giveUp (tl : Tile) : Tile :=
  let t1 := freeSlot tl tl.task.inboxSlot
  { t1 with
    run := .idle, task := Task.zero, ri := [], e := Vector.replicate 8 none, ef := [], longWait := .none, closed := true
    kept := match tl.task.hold with
      | some h => (tl.task.gtid, h) :: tl.kept.filter fun x => x.1 != tl.task.gtid
      | none => tl.kept }

/-- The tile without the replay entries of a task that has ended, those of a poisoned descriptor and of an unread `ldv`
among them (R184, R292). -/
def dropEntries (tl : Tile) (gtid : DWord) : Tile := { tl with replay := tl.replay.filter fun e => e.gtid != gtid }

/-- The place in the general spill that one more resident record of a tile takes: a ninth one, where the card names a spill
region and a place is free (R40). -/
def residentPlace (s : State) (t : Nat) : Option Nat :=
  if (tileOf s t).resident.length < 8 then none
  else if (spillSlab s t).isSome then freePlace (tileOf s t) else none

/-- A record becomes resident. A ninth goes to the general spill with its wait cause (R40); where the card names no spill region,
or the general spill is full, the tile keeps it all the same (log 91). -/
def addResident (tl : Tile) (place : Option Nat) (r : Resident) : Tile :=
  if tl.resident.length < 8 then { tl with resident := tl.resident ++ [r] }
  else { tl with overflow := tl.overflow ++ [{ r with place := place }] }

/-- The stores of a record to its place in the general spill. -/
def storeResident (s : State) (place : Option Nat) (r : Rec) : State :=
  match spillSlab s s.cur.tile, place with
  | some slab, some i => spillStores s (slab + 64 * i) r
  | _, _ => s

/-- The oldest message that no `wfm` has consumed, with its slot. -/
def oldestMsg (tl : Tile) : Option (Nat × InboxMsg) :=
  (upFrom 0 8).foldl (fun best i =>
    match tl.inbox[i % 8]'(Nat.mod_lt _ (by decide)) with
    | some m =>
      if m.consumed then best
      else
        match best with
        | some (_, b) => if m.order < b.order then some (i, m) else best
        | none => some (i, m)
    | none => best) none

/-- A record that waits for a message takes this one: g1 and g2 name it, and the slot is held (R224). -/
def Resident.takeMsg (r : Resident) (slot : Nat) (m : InboxMsg) (order : Nat) : Resident :=
  let rec' := { r.r with w0 := BitVec.ofNat 32 (0x2f800 + 256 * slot), w1 := BitVec.ofNat 32 (m.src * 2 ^ 16 + m.n) }
  { r with r := rec', ready := true, order := order, slot := some slot }

/-- The slot's message has been consumed. -/
def consumeMsg (tl : Tile) (slot : Nat) (m : InboxMsg) : Tile :=
  { tl with inbox := tl.inbox.set (slot % 8) (some { m with consumed := true }) (Nat.mod_lt _ (by decide)) }

/-- The suspending bundle has issued: it is counted like any other (R334). -/
def suspendCount (s0 : State) : State :=
  let s := { s0 with cur := { s0.cur with went := true } }
  let tl := curTile s
  countEvent (setCurTile s { tl with
    lines := touchLine tl.lines s.cur.pc
    lastIssue := some (s.clk, s.cur.pc)
    gap := tl.gap - 1
    mark := tl.mark.map (Mark.issue s s.cur.tile) }) s.cur.tile 1 1

/-- The waits, the report and the single step that come before every suspension (R39, R135, R217, R295): the blocked
state, or none when the record may be written. -/
def suspendGate (s : State) : Option State :=
  if !settled s s.cur.tile then some (waitBundle s)
  else
    match reportTrap s with
    | some s' => some s'
    | none =>
      if (curTask s).stepping == .armed then
        some (lateTrap s .step true 0#8 0#64 0#64 0#64 s.cur.pc (hasPushed s))
      else none

/-- What comes before a suspension that leaves a resident record: the waits of `suspendGate`, and room for the slab's stores. -/
def recordGate (s : State) : Option State :=
  (suspendGate s).orElse fun _ => slabRoom s (residentPlace s s.cur.tile).isSome

/-- Writes a resident record with a wait cause and gives the tile up (R217). -/
def suspendAs (s : State) (pc : DWord) (cause : Wait) (ready : Bool) (edit : Rec → Rec) : State :=
  let s0 := suspendCount s
  let rec' := edit (taskRec (curTask s0) pc (cause == .msg))
  let place := residentPlace s0 s0.cur.tile
  let s1 := storeResident s0 place rec'
  let r : Resident := ⟨rec', cause, ready, s1.nextId, none, none⟩
  setCurTile { s1 with nextId := s1.nextId + 1 } (addResident (giveUp (curTile s1)) place r)

/-! ## Starting a task -/

/-- The acquire or fence that a suspended task left in progress on a tile (R136, R230). -/
def keptHold (tl : Tile) (gtid : DWord) : Option Hold := (tl.kept.find? fun x => x.1 == gtid).map (·.2)

/-- The tile without what a task left in progress on it. -/
def dropKept (tl : Tile) (gtid : DWord) : Tile := { tl with kept := tl.kept.filter fun x => x.1 != gtid }

/-- Starts a task on a tile with the registers of a record (R36, R38): its first bundle is the next to issue, and the tile is open
to puts and ring values again (R63). A slab that landed while no task ran enters bl (R192). An acquire or fence that the task
left in progress is in progress again (R136, R230). -/
def beginTask (s : State) (t : Nat) (r : Rec) (slot : Option Nat) : State :=
  let tl := tileOf s t
  let k := { recTask r s.nextAct slot with bl := tl.task.ring, hold := keptHold tl r.gtid }
  setTile { s with nextAct := s.nextAct + 1 } t
    { dropKept tl r.gtid with run := .running, task := k, closed := false, badFetch := none, waits := [] }

/-- Resumes a record (R38, R334): a bad one raises ILLEGAL_ENCODING at its PC. -/
def startTask (s : State) (t : Nat) (r : Rec) (slot : Option Nat) : State :=
  let s1 := countEvent (beginTask s t r slot) t 0x0f 1
  if r.bad then
    takeTrap s1 t
      { code := .illegalEncoding, xside := false, precise := true, info := 0#8, pc := r.pc, apc := r.pc, arg0 := 0#64,
        arg1 := 0#64, arg2 := 0#64, rpc := r.pc, xpushed := false }
  else s1

end Sys2Proof.Machine
end

