-- ==== Sys2Proof/Machine/Tasks.lean ====
section
/-! DEFINITION. Task, message and synchronisation instructions of the access side (R215-R239). -/

namespace Sys2Proof.Machine

/-! ## Spawning (R218, R219) -/

/-- The bundle offset of a spawn: the immediate sum (R215). -/
def spawnOffset (s : State) (o : BitVec 11) : DWord := o.signExtend 64 + s.cur.ext.signExtend 64

/-- The serial after one more spawn: after 65,535 it wraps to T x S (R32). -/
def nextSerial (c : Cohort) : Nat := if c.serial == 65535 then cohortTasks c else c.serial + 1

/-- The record of a new task (R218). -/
def spawnRec (k : Task) (serial depth : Nat) (pc : DWord) (f j : BitVec 4) (rd : BitVec 4 → DWord) : Rec :=
  { pcw := recPcWord depth pc false, gtid := (k.gtid &&& ~~~ 0xffff#64) ||| BitVec.ofNat 64 (serial % 65536),
    frame := rd f, join := rd j, arg0 := rd 3#4, arg1 := rd 4#4, w0 := k.k[0], w1 := k.k[1], w2 := k.k[2], w3 := k.k[3] }

/-- The cohort has started one more task and taken a serial (R32, R43); the event is counted (R334). -/
def tookSerial (s : State) (key : Nat) (c : Cohort) : State :=
  countEvent (setCohort s key { c with serial := nextSerial c, live := c.live + 1 }) s.cur.tile 0x0c 1

/-- Makes and places a record, or `none` where that raises SPAWN_DEPTH or no cohort holds the tile. -/
def makeTask (s : State) (depth : Nat) (pc : DWord) (f j : BitVec 4) : Option State :=
  match cohortOf s s.cur.tile with
  | none => none
  | some (key, c, _) =>
    let k := curTask s
    (placeRec s (spawnRec k c.serial depth pc f j (rdA s)) k.depth).map fun s' => tookSerial s' key c

/-- The gates of `spawn` and `fork.br`: every register they read (R142, R218), and room for the slab's stores (R135). -/
def spawnGate (s : State) (f j : BitVec 4) : Option State :=
  (regGate s [f, j, 3#4, 4#4] []).orElse fun _ => slabRoom s (16 ≤ (curTile s).deque.length)

/-- `spawn`: a false generation makes it nothing, an unresolved one holds it (R218). -/
def execSpawn (f : FSpawn) (s : State) : Out :=
  .next <| match spawnGate s f.f f.j with
    | some s' => s'
    | none =>
      match bindGuard s f.g with
      | .bound .. => waitBranch s
      | .discarded => finish s
      | .free =>
        let d := (curTask s).depth
        match makeTask s (min (d + 1) 63) (s.cur.pc + 8#64 * spawnOffset s f.o) f.f f.j with
        | some s' => finish s'
        | none => preciseTrap s .spawnDepth 0#64 0#64

/-- `fork.br`: the fall-through is offered as a task, and the running task goes on at the target one level deeper
(R218). -/
def execForkBr (f : FFork) (s : State) : Out :=
  .next <| match spawnGate s f.f f.j with
    | some s' => s'
    | none =>
      let d := (curTask s).depth
      match makeTask s d (s.cur.pc + 8#64) f.f f.j with
      | some s' =>
        let k := curTask s'
        branchTo (setCurTask s' { k with depth := max k.depth (min (d + 1) 63) })
          (s.cur.pc + 8#64 * spawnOffset s f.o)
      | none => preciseTrap s .spawnDepth 0#64 0#64

/-! ## Reads made at once, as a record is written -/

/-- What a read made at the suspending bundle meets; a translation that no walk can give is a fault. -/
def reachNow (s : State) (a : Access) : Reach :=
  match reach s a with
  | .walking => if (walk s (tagOf s a.tile) (glVa s a)).isNone then .faults .xlate else .walking
  | r => r

/-- Logs a fault of the acting bundle's own access and raises what is logged (R135, R221). -/
def logAndReport (s : State) (e : ReplayEntry) : State :=
  let s1 := logEntry s s.cur.tile e
  match reportTrap s1 with
  | some s2 => s2
  | none => s1

/-! ## Joining (R221) -/

/-- `join`: suspends until the counter reads zero; the counter is read once as the record is written. -/
def execJoin (f : FJoin) (s : State) : Out :=
  .next <| match (regGate s [f.c] []).orElse fun _ => orderGate s with
    | some s' => s'
    | none =>
      let ea := rdA s f.c
      let space := spaceOf f.s.toNat
      let a := { newAccess s .load space ea 4 with id := s.nextId }
      if misaligned ea 4 then preciseTrap s .align ea 0#64
      else if !mayPerform s a then waitBundle s
      else
        match recordGate s with
        | some s' => s'
        | none =>
          match reachNow s a with
          | .walking => waitBundle s
          | .faults c => logAndReport s { entryFor a c with kind := 7#8, what := none }
          | .at p =>
            let r := performAt s a p
            match r.1 with
            | .value v => suspendAs r.2 (s.cur.pc + 8#64) (.join space ea) (v == 0#256) id
            | .zero (some c) => logAndReport r.2 { entryFor a c with kind := 7#8, what := none }
            | .zero none => suspendAs r.2 (s.cur.pc + 8#64) (.join space ea) false id
            | .fault c => logAndReport r.2 { entryFor a c with kind := 7#8, what := none }

/-- `jdec`: one indivisible decrement where the word lives (R221). -/
def execJdec (f : FJdec) (s : State) : Out :=
  .next <| match issueGate s f.g [f.c] [] with
    | some s' => s'
    | none =>
      let ea := rdA s f.c
      if misaligned ea 4 then preciseTrap s .align ea 0#64
      else
        let g := bindGuard s f.g
        finish (if g == .discarded then s
          else addAccess s { newAccess s .jdec (spaceOf f.s.toNat) ea 4 with guard := g })

/-! ## Ending and yielding (R222) -/

/-- `suspend`: the record goes to the newest end of the deque, or waits unplaced where nothing has room. -/
def execSuspend (s : State) : Out :=
  .next <| match (suspendGate s).orElse fun _ => slabRoom s (16 ≤ (curTile s).deque.length) with
    | some s' => s'
    | none =>
      let s0 := suspendCount s
      let r := taskRec (curTask s0) (s0.cur.pc + 8#64) false
      match placeDeque s0 r with
      | some s1 => setCurTile s1 (giveUp (curTile s1))
      | none => setCurTile s0 { giveUp (curTile s0) with unplaced := some r }

/-- `yield`: a resident record, ready at once behind the other ready ones. -/
def execYield (s : State) : Out :=
  .next <| match recordGate s with
    | some s' => s'
    | none => suspendAs s (s.cur.pc + 8#64) .none true id

/-- Versioned loads of a task that still wait for their version: the task has ended, and nothing else reads their result. -/
def dropWaits (s : State) (t : Nat) (gtid : DWord) : State :=
  { s with
    accs := s.accs.filter fun a => !(sameTask s t gtid a.tile a.gtid && a.res.isNone &&
      match a.op with
      | .ldv _ => true
      | _ => false) }

/-- The running task of a tile has exited (R43, R184, R222). -/
def endRunning (s : State) (t : Nat) : State :=
  let tl := tileOf s t
  let s1 := setTile (dropWaits s t tl.task.gtid) t (dropKept (dropEntries (giveUp tl) tl.task.gtid) tl.task.gtid)
  match cohortOf s t with
  | some (key, c, _) => setCohort s1 key { c with live := c.live - 1 }
  | none => s1

/-- `exit`: ends the task once everything has left the tile; a report point. -/
def execExit (s : State) : Out :=
  .next <| match suspendGate s with
    | some s' => s'
    | none => endRunning (suspendCount s) s.cur.tile

/-! ## Messages (R223-R226) -/

/-- The command word of an instruction: its body with GS cleared (Table 13-8). -/
def commandWord (i : Instr) : Word := encode i &&& 0x3fc7ffff#32

/-- The selector of a `send` is a tile's inbox or an edge streamer (R223); bits 15:8 of an endpoint are the Kerb's
to refuse (R17). -/
def sendTarget (d : BitVec 20) : Option Bool :=
  let sel := (d.extractLsb' 16 4).toNat
  if sel == 0 then some false
  else if sel == 15 && d.extractLsb' 0 3 == 2#3 then some true
  else none

/-- An entry for a message of the acting task: KIND 8 (Table 21-2). -/
def messageEntry (s : State) (code : Code) (ea : DWord) (data : Vec) : ReplayEntry :=
  { gtid := (curTask s).gtid, ea, action := actionFor code, info := infoFor code ea, slot := 0, dest := 0#5, width := 0#3,
    space := .msg, op := 0#8, kind := 8#8, code, pc := s.cur.pc, data, data2 := 0#64, ord := 0#3, what := none }

/-- Earlier stores of the tile to these bytes of its scratchpad are still to be performed (R136, R243). -/
def payloadBlocked (s : State) (p : DWord) (n : Nat) : Bool :=
  s.accs.any fun b => b.tile == s.cur.tile && writes b.op && b.res.isNone && b.guard != .discarded && effSpace b == .sp &&
    rangesMeet (spOff b.ea) b.n p.toNat n

/-- The fault of a payload read, if it meets one (R223). -/
def payloadFault (s : State) (p : DWord) (n : Nat) : Option Code :=
  if spBytes < p.toNat + n || (n == 0 && spBytes ≤ p.toNat) then some .xlate
  else if n != 0 && guardTouched s s.cur.tile p.toNat n then some .guardTouch
  else if n != 0 && damaged s (.sp s.cur.tile p.toNat) n then some .dataError
  else none

/-- A fault of a payload read is logged at issue; one of its data is counted too (R223, R344). Its EA, and with it the bank of a guard
touch, is the address of the payload (log 122). -/
def logPayload (s : State) (c : Code) (p : DWord) : State :=
  logEntry (if c == .dataError then bumpLife s (.uncorrectable (unitOf s (.sp s.cur.tile p.toNat))) 1 else s) s.cur.tile
    (messageEntry s c p 0#256)

/-- `send` (R223): the payload is read and the destination captured at issue. -/
def execSend (f : FSend) (s : State) : Out :=
  .next <| match issueGate s f.g [f.d, f.p] [] with
    | some s' => s'
    | none =>
      let dst : BitVec 20 := (rdA s f.d).setWidth 20
      let p := rdA s f.p
      let n := f.n.toNat
      match sendTarget dst with
      | none => preciseTrap s .commandInvalid 0#64 0#64
      | some streamer =>
        if misaligned p 4 then preciseTrap s .align p 0#64
        else if payloadBlocked s p n then waitBundle s
        else
          let g := bindGuard s f.g
          if g == .discarded then finish s
          else
            match payloadFault s p n with
            | some c => finish (logPayload s c p)
            | none =>
              let bytes := memRead (curTile s).sp p.toNat n
              let s1 := if n == 0 then s else readCorrects s (.sp s.cur.tile p.toNat) n
              finish (addMsg s1 dst g (if streamer then .streamer bytes (commandWord (.send f)) (rdA s f.d) else .inbox bytes))

/-- `send.eos`: the end-of-stream token for the stream named in a[S], to an edge streamer (R226). -/
def execSendEos (f : FSendEos) (s : State) : Out :=
  .next <| match issueGate s f.g [f.d, f.s] [] with
    | some s' => s'
    | none =>
      let dst : BitVec 20 := (rdA s f.d).setWidth 20
      if sendTarget dst != some true then preciseTrap s .commandInvalid 0#64 0#64
      else
        let g := bindGuard s f.g
        finish (if g == .discarded then s else addMsg s dst g (.eos ((rdA s f.s).setWidth 32) (commandWord (.sendEos f)) (rdA s f.d)))

/-- The tile itself or one of its four mesh neighbours (R225). -/
def putReach (t u : Nat) : Bool :=
  let dx := max (tileX t) (tileX u) - min (tileX t) (tileX u)
  let dy := max (tileY t) (tileY u) - min (tileY t) (tileY u)
  dx + dy ≤ 1

/-- `put`: a register value to a landing register (R225). -/
def execPut (f : FPut) (s : State) : Out :=
  .next <| match issueGate s f.g [f.t, f.s] [] with
    | some s' => s'
    | none =>
      let u : BitVec 16 := (rdA s f.t).setWidth 16
      if !putReach s.cur.tile u.toNat then preciseTrap s .commandInvalid 0#64 0#64
      else
        let g := bindGuard s f.g
        finish (if g == .discarded then s
          else addMsg s (u.setWidth 20) g (.put f.n.toNat ((rdA s f.s).setWidth 32)))

/-- `put.x`: the head of xq to a landing register; a discarded one still consumes it (R225). -/
def execPutX (f : FPutX) (s : State) : Out :=
  .next <| match issueGate s f.g [f.t] [] with
    | some s' => s'
    | none =>
      let u : BitVec 16 := (rdA s f.t).setWidth 16
      if !putReach s.cur.tile u.toNat then preciseTrap s .commandInvalid 0#64 0#64
      else
        match (curTask s).xq with
        | [] => waitBranch s 3
        | v :: r =>
          let g := bindGuard s f.g
          let s1 := setCurTask s { curTask s with xq := r }
          finish (if g == .discarded then s1 else addMsg s1 (u.setWidth 20) g (.put f.n.toNat (v.setWidth 32)))

/-- Records that wait for a message. -/
def waitsMsg (r : Resident) : Bool := r.cause == .msg && !r.ready

/-- The least order of suspension among the resident records that wait for a message. -/
def firstWaiting (tl : Tile) : Option Nat := ((tl.resident.filter waitsMsg).map (·.order)).min?

/-- The oldest message goes to the record that suspended first (R41, R224). -/
def giveMessage (tl : Tile) (order : Nat) : Tile :=
  match oldestMsg tl, firstWaiting tl with
  | some (slot, m), some o =>
    { consumeMsg tl slot m with
      resident := replaceFirst (fun r => waitsMsg r && r.order == o) (fun r => r.takeMsg slot m order) tl.resident }
  | _, _ => tl

/-- `wfm`: suspends until it consumes the oldest unconsumed message (R224). -/
def execWfm (s : State) : Out :=
  .next <| match recordGate s with
    | some s' => s'
    | none =>
      let s1 := suspendAs s (s.cur.pc + 8#64) .msg false id
      setCurTile { s1 with nextId := s1.nextId + 1 } (giveMessage (curTile s1) s1.nextId)

/-! ## Named barriers (R229) -/

/-- An earlier barrier access of the task to its own barrier is still to be performed. -/
def ownBarrierBusy (s : State) (bar : Nat) : Bool :=
  s.accs.any fun a => sameTask s s.cur.tile (curTask s).gtid a.tile a.gtid && a.res.isNone && a.guard != .discarded &&
    prTile a.ea == s.cur.tile &&
    (match a.op with
     | .arrive b | .barTx b _ => b == bar
     | _ => false)

/-- `nbar.init`: sets EXP and clears ARR, PEND and the sums (R229). -/
def execNbarInit (f : FNbarInit) (s : State) : Out :=
  .next <| match (regGate s [f.n] []).orElse fun _ => orderGate s with
    | some s' => s'
    | none =>
      let n : BitVec 16 := (rdA s f.n).setWidth 16
      if n == 0#16 then preciseTrap s .commandInvalid 0#64 0#64
      else if ownBarrierBusy s f.b.toNat then waitBundle s
      else
        let b := barAt s s.cur.tile f.b.toNat
        finish (setBar s s.cur.tile f.b.toNat { b with exp := n, arr := 0#16, pend := 0#56, sdet := 0#32, srep := 0#32 })

/-- The address by which a barrier access names its home: offset 0 of the tile's pr range. -/
def barrierEa (t : DWord) : DWord := (t &&& 0xffff#64) <<< 32

/-- `nbar.arr`: arrives, as a release and a report point, and reads PHASE into a[P] (R229). -/
def execNbarArr (f : FNbarArr) (s : State) : Out :=
  .next <| match issueGate s f.g [f.t] [f.p] with
    | some s' => s'
    | none =>
      match reportTrap s with
      | some s' => s'
      | none =>
        let g := bindGuard s f.g
        let k := curTask s
        if g == .discarded then finish (wrA s f.p 0#64)
        else
          let dest : Dest := if f.p == 0#4 then .none else .a f.p
          let s1 := setCurTask s (k.putA f.p ⟨rdA s f.p, .pending s.nextId⟩)
          let ea := barrierEa (rdA s f.t)
          let c := if g == .free then carrySums s1 s.cur.tile (prTile ea) f.b.toNat else ([], s1)
          finish (addAccess c.2
            { newAccess s1 (.arrive f.b.toNat) .pr ea 4 with guard := g, dest := dest, sums := c.1 })

/-- `nbar.tx`: adds a signed byte count to PEND (R229). -/
def execNbarTx (f : FNbarTx) (s : State) : Out :=
  .next <| match issueGate s f.g [f.t, f.n] [] with
    | some s' => s'
    | none =>
      let g := bindGuard s f.g
      finish (if g == .discarded then s
        else addAccess s
          { newAccess s (.barTx f.b.toNat ((rdA s f.n).setWidth 56)) .pr (barrierEa (rdA s f.t)) 4 with guard := g })

/-- `nbar.wt`: suspends until the barrier's PHASE has passed a[P]; a phase already complete leaves its sums in g3 and
g4 (R228, R229). -/
def execNbarWt (f : FNbarWt) (s : State) : Out :=
  .next <| match (regGate s [f.t, f.p] []).orElse fun _ => orderGate s with
    | some s' => s'
    | none =>
      match recordGate s with
      | some s' => s'
      | none =>
        let u := ((rdA s f.t).setWidth 16 : BitVec 16).toNat
        let p : Word := (rdA s f.p).setWidth 32
        if !sameCohort s s.cur.tile u then
          let a := newAccess s (.arrive f.b.toNat) .pr (barrierEa (rdA s f.t)) 4
          logAndReport s { entryFor a .peerGone with what := none }
        else
          let b := barAt s u f.b.toNat
          let d := (b.phase - p).toNat
          let passed := 1 ≤ d && d ≤ 2 ^ 31
          suspendAs s (s.cur.pc + 8#64) (.nbar u f.b.toNat p) passed fun r =>
            if passed then { r with w2 := b.lsdet, w3 := b.lsrep } else r

/-! ## Fences (R230) -/

/-- `fence`: later accesses wait until every earlier one has been performed at the scope. -/
def execFence (f : FFence) (s : State) : Out :=
  .next <| match orderGate s with
    | some s' => s'
    | none => finish (setCurTask s { curTask s with hold := some (.fence f.s s.nextId) })

/-! ## Versioned words (R231-R233) -/

/-- A versioned access that leaves for its word's home. -/
def issueVersioned (s : State) (g : BitVec 3) (b : BitVec 4) (reads : List (BitVec 4)) (op : AccOp) (data : Vec) : State :=
  match issueGate s g (b :: reads) [] with
  | some s' => s'
  | none =>
    let ea := rdA s b
    if misaligned ea 4 then preciseTrap s .align ea 0#64
    else
      let gd := bindGuard s g
      finish (if gd == .discarded then s
        else addAccess s { newAccess s op .pr ea 4 with guard := gd, data := data })

/-- `stv` (R232). -/
def execStv (f : FStv) (s : State) : Out :=
  .next (issueVersioned s f.g f.b [f.s] .stv (((rdA s f.s).setWidth 40).setWidth 256))

/-- `vrcl` (R232). -/
def execVrcl (f : FVrcl) (s : State) : Out := .next (issueVersioned s f.g f.b [] .vrcl 0#256)

/-- The version that a versioned load waits for (R233). -/
def wantedVersion (s : State) (d : BitVec 4) : Byte := (rdA s d).extractLsb' 32 8

/-- `ldv`: waits for the version without suspending; an acquire (R233). -/
def execLdv (f : FLdv) (s : State) : Out :=
  .next <| match issueGate s 0#3 [f.b, f.d] [f.d] with
    | some s' => s'
    | none =>
      let ea := rdA s f.b
      if misaligned ea 4 then preciseTrap s .align ea 0#64
      else
        let a := { newAccess s (.ldv (wantedVersion s f.d)) .pr ea 4 with dest := .a f.d }
        let s1 := setCurTask s ((curTask s).putA f.d ⟨rdA s f.d, .pending s.nextId⟩)
        finish (holdAfter (addAccess s1 a) true s.nextId)

/-- The result of an `ldv.s` that does not suspend: the register is filled, and a fault is logged (R233). -/
def versionResult (s : State) (a : Access) (d : BitVec 4) (r : AccResult) : State :=
  let k := curTask s
  match r with
  | .value v => setCurTask s (k.putA d ⟨v.setWidth 64, .ready⟩)
  | .zero c =>
    let s1 := setCurTask s (k.putA d ⟨0#64, .ready⟩)
    match c with
    | some c => logEntry s1 s.cur.tile (entryFor a c)
    | none => s1
  | .fault c => logEntry (setCurTask s (k.putA d ⟨0#64, .poisoned c a.ea⟩)) s.cur.tile (entryFor a c)

/-- `ldv.s`: reads once, and suspends on the version where it has not been reached (R233). -/
def execLdvS (f : FLdv) (s : State) : Out :=
  .next <| match issueGate s 0#3 [f.b, f.d] [f.d] with
    | some s' => s'
    | none =>
      let ea := rdA s f.b
      let v := wantedVersion s f.d
      let a := { newAccess s (.ldv v) .pr ea 4 with id := s.nextId, dest := .a f.d }
      if misaligned ea 4 then preciseTrap s .align ea 0#64
      else if !mayPerform s a then waitBundle s
      else
        match reach s a with
        | .walking => waitBundle s
        | .faults c => finish (versionResult s a f.d (.fault c))
        | .at p =>
          if stillWaits s a p then
            match recordGate s with
            | some s' => s'
            | none => suspendAs s s.cur.pc (.version (prTile ea) (spOff ea) v) false id
          else
            let r := performAt s a p
            finish (versionResult r.2 a f.d r.1)

/-! ## Plaza requests, traps and halting (R234, R235) -/

/-- `sys`: the bundle completes, then SYS_REQUEST stops the task with the resume PC pc + 8 (R234, R292). A loop whose end
bundle it is stays as it was (R128; log 12). -/
def execSys (f : FSys) (s : State) : Out :=
  .next <| match regGate s [f.a, f.b] [] with
    | some s' => s'
    | none =>
      if !(curTask s).xinstr.isEmpty then waitBundle s
      else
        lateTrap (issued s (curTask s).lc (s.cur.pc + 8#64)) .sysRequest true 0#8 (f.n.setWidth 64) (rdA s f.a) (rdA s f.b)
          (s.cur.pc + 8#64) false

/-- `trap`: USER_TRAP with n and a[A], precise at its bundle (R234). -/
def execTrap (f : FTrap) (s : State) : Out :=
  .next <| match regGate s [f.a] [] with
    | some s' => s'
    | none => preciseTrap s .userTrap (f.n.setWidth 64) (rdA s f.a)

/-- `brk`: BREAK with n and INFO 0xFF, precise at its bundle (R234, Table 21-3). -/
def execBrk (f : FBrk) (s : State) : Out := .next (preciseTrapInfo s .brk 0xff#8 (f.n.setWidth 64) 0#64)

/-- Holds every tile of a cohort in place (R235); one that a migration or a pre-emption halt holds already is held by that
first (R298, R305). -/
def holdCohort (s : State) (c : Cohort) : State :=
  (cohortTiles c).foldl (fun s u =>
    if (tileOf s u).halt == .none then setTile s u { tileOf s u with halt := .held false } else s) s

/-- `halt`: stops every tile of the cohort at a bundle boundary and sends one HALTED record, also where a pre-emption request is on
its way to the tile; while the cohort is halted a second one changes nothing (R235, R279, Table 15-14). -/
def execHalt (s : State) : Out :=
  .next <| match cohortOf s s.cur.tile with
    | none => finish s
    | some (key, c, _) =>
      let s1 := finish s
      let stop (st : CohortStatus) : State :=
        if recordsFull s s.cur.tile then waitBundle s
        else
          let s2 := holdCohort (setCohort s1 key { c with status := st }) c
          queueRecord s2 s.cur.tile (haltedRecord s2 s.cur.tile 0#8 (curTask s).gtid (curTask s1).pc)
      match c.status with
      | .resident => stop .halted
      | .halting false => stop (.halting true)
      | _ => s1

/-! ## Control registers (R236-R238) -/

/-- The value of a control register (Tables 15-7 to 15-13). -/
def readCr (s : State) (n : BitVec 3) : DWord :=
  let k := curTask s
  match n.toNat with
  | 0 => k.gtid
  | 1 => BitVec.ofNat 64 (qidx s.cur.tile * 65536 + s.cur.tile % 65536)
  | 2 => BitVec.ofNat 64 (k.slip * 256 + (if k.long then 64 else 0) + k.rm.toNat)
  | 3 => (curTile s).vshare.setWidth 64
  | 4 => k.redq.setWidth 64
  | 5 => k.lfsr.setWidth 64
  | _ => BitVec.ofNat 64 s.clk

/-- X instructions of earlier bundles are still to run: the acting bundle's own, where it pushed one, is the last of the
queue. -/
def earlierX (s : State) : Bool := (if hasPushed s then 1 else 0) < (curTask s).xinstr.length

/-- `rdcr`: cr.lfsr and cr.redq wait for the X instructions of every earlier bundle (R236). -/
def execRdcr (f : FRdcr) (s : State) : Out :=
  .next <| match regGate s [] [f.d] with
    | some s' => s'
    | none =>
      if (f.n == 4#3 || f.n == 5#3) && earlierX s then waitBundle s
      else finish (wrA s f.d (readCr s f.n))

/-- The write of a control register's RW fields. -/
def writeCr (s : State) (n : BitVec 3) (v : DWord) : State :=
  let k := curTask s
  match n.toNat with
  | 2 => setCurTask s (if v.extractLsb' 0 3 == 5#3 || v.extractLsb' 0 3 == 6#3 || v.extractLsb' 0 3 == 7#3 then k
      else { k with rm := v.extractLsb' 0 3 })
  | 3 => if v.extractLsb' 0 4 == 0#4 then s else setCurTile s { curTile s with vshare := v.extractLsb' 0 4 }
  | 4 => setCurTask s { k with redq := v.setWidth 32 }
  | 5 => setCurTask s { k with lfsr := v.setWidth 32 }
  | _ => s

/-- `wrcr`: cr.mode, cr.redq and cr.lfsr wait for every X instruction up to the bundle's own (R236). -/
def execWrcr (f : FWrcr) (s : State) : Out :=
  .next <| match regGate s [f.s] [] with
    | some s' => s'
    | none =>
      if f.n != 3#3 && !(curTask s).xinstr.isEmpty then waitBundle s
      else finish (writeCr s f.n (rdA s f.s))

end Sys2Proof.Machine
end

