-- ==== Sys2Proof/Machine/Messages.lean ====
section
/-! DEFINITION. What arrives at a tile from other tiles: inbox messages, puts, ring values, join wakes (R8, R30, R41,
R60, R61, R63, R221, R224, R304). -/

namespace Sys2Proof.Machine

/-! ## Order on a channel (R8, R55) -/

/-- The message in flight with this number. -/
def msgOf (s : State) (id : Nat) : Option Msg := s.net.find? fun m => m.id == id

/-- Takes a message out of the network. -/
def dropMsg (s : State) (id : Nat) : State := { s with net := s.net.filter fun m => m.id != id }

/-- An earlier message of the tile on the channel that this one may not pass: one that a guard holds at the head, or one
to the same destination, by whatever name and selector (R8, R15, R249). -/
def msgBehind (m b : Msg) : Bool :=
  b.id < m.id && b.src == m.src && b.chan == m.chan && b.guard != .discarded &&
    (b.guard.isBound || unitNamed b.dst == unitNamed m.dst)

/-- An earlier pr access of the tile that a message on channel 5 may not pass. -/
def accBehind (m : Msg) (a : Access) : Bool :=
  m.chan == Traffic.tileToTile.channel && a.id < m.id && a.tile == m.src && a.res.isNone && a.guard != .discarded && chan5 a &&
    (a.guard.isBound || unitNamed m.dst == (0, prTile a.ea))

/-- A migration holds back messages to this destination (R21), or, on channel 5, something stands before it at the tile's input
or came first (R8, R224). -/
def destHeld (s : State) (m : Msg) : Bool :=
  let x := unitNamed m.dst
  if x.1 == 0 then moving s m.src x.2 || (m.chan == Traffic.tileToTile.channel && !inputFree s m.src x.2 m.id)
  else x.1 == 4 && moving s m.src (tileAt x.2 0)

/-- The message may be delivered or refused now. -/
def msgMay (s : State) (m : Msg) : Bool :=
  !m.guard.isBound && !(s.net.any (msgBehind m)) && !(s.accs.any (accBehind m)) && !destHeld s m

/-- The Kerb passes a message of this tag to a tile (R304). -/
def kerbTile (s : State) (tag t : Nat) : Bool := tag == 0 || tagOf s t == tag

/-- The Kerb passes selectors 8, 9 and 10 to a die that holds a cluster of the tag's rectangle (R304). -/
def kerbDie (s : State) (tag d : Nat) : Bool := (clustersOfDie d).any fun c => tagOfCluster s c == tag

/-- The entry of a refused message, logged for its sender (R286). -/
def refusedEntry (m : Msg) (code : Code) (width ord : BitVec 3) (data : Vec) : ReplayEntry :=
  { gtid := m.gtid, ea := m.dst.setWidth 64, action := actionFor code, info := 0#8, slot := 0, dest := 0#5, width,
    space := .msg, op := 0#8, kind := 8#8, code, pc := m.pc, data, data2 := 0#64, ord, what := none }

/-- The task stands stopped in a frame or saved with its cohort: what it would log waits until it resumes. -/
def framed (s : State) (gtid : DWord) : Bool :=
  (s.frames.any fun f => f.2.task.gtid == gtid) || s.areas.any fun a => a.2.tiles.any fun t => holdsTask t.2 gtid

/-- A message is refused: its sender logs the code, and a Kerb refusal sends a NOTIFY record as well (R17, R30, R304). -/
def refuseMsg (s : State) (m : Msg) (code : Code) (width ord : BitVec 3) (data : Vec) : State :=
  if (code == .kerbRefused && recordsFull s m.src) || framed s m.gtid then s
  else
    let s1 := logFor (dropMsg s m.id) m.src (refusedEntry m code width ord data)
    if code == .kerbRefused then notifyKerb s1 m.src m.gtid m.pc (m.dst.setWidth 64) else s1

/-! ## Inbox messages (R30, R41, R224) -/

/-- The lowest free slot of an inbox. -/
def freeInbox (tl : Tile) : Option Nat :=
  (upFrom 0 8).find? fun i => (tl.inbox[i % 8]'(Nat.mod_lt _ (by decide))).isNone

/-- A message takes a slot, and the record that waits longest takes the message. -/
def acceptInbox (s : State) (t slot src : Nat) (bytes : List Byte) : State :=
  let tl := tileOf s t
  let m : InboxMsg := ⟨src, bytes.length, s.nextId, false⟩
  let t1 := { tl with
    sp := memWrite tl.sp (0x2f800 + 256 * slot) bytes
    inbox := tl.inbox.set (slot % 8) (some m) (Nat.mod_lt _ (by decide)) }
  setTile { s with nextId := s.nextId + 2 } t (giveMessage t1 (s.nextId + 1))

/-- How an inbox message meets its destination; `full`: it stands at the tile's input, every slot being held. -/
inductive Meet where
  | refuse
  | wait
  | full
  | slot (n : Nat)
  deriving DecidableEq, Repr

/-- The launch is a PLACED one. -/
def isPlaced (l : Launch) : Bool := cardKind l.card == 3

/-- A cohort's launch is a PLACED one. -/
def cohortPlaced (s : State) (c : Cohort) : Bool :=
  match smFind c.launch s.launches with
  | some l => isPlaced l
  | none => false

/-- A tile's cohort of this PLACED launch has been saved and its fellows not yet, or not yet restored: what they send it waits
(R30). -/
def placedAway (s : State) (t launch : Nat) : Bool :=
  s.cohorts.any fun e =>
    e.2.launch == launch && cohortPlaced s e.2 && (match e.2.status with
      | .saved .. => true
      | _ => false) && (cohortTiles e.2).contains t

/-- The cohort is resident for what comes to its inboxes: until its halt is complete it is not yet saved (R30, R70). -/
def takesInbox (c : Cohort) : Bool :=
  match c.status with
  | .resident | .halting _ => true
  | _ => false

/-- Only a resident cohort of the sender's launch takes the message; a halted one, or a full inbox, keeps it waiting. -/
def meetInbox (s : State) (t launch : Nat) : Meet :=
  match cohortOf s t with
  | none => .refuse
  | some (_, c, _) =>
    if c.launch != launch then .refuse
    else if !takesInbox c || (tileOf s t).halt == .migrate then .wait
    else
      match freeInbox (tileOf s t) with
      | some n => .slot n
      | none => .full

/-- The first 32 payload bytes of a refused message, as its entry's DATA (Table 21-2). -/
def payloadData (bytes : List Byte) : Vec := BitVec.ofNat 256 (leNat (bytes.take 32))

/-- The source of a Plaza core's message, which names no tile. -/
def plazaSource : Nat := 65537

/-- A Plaza core's message that stands at a tile's input takes a slot, or is dropped where no cohort of its launch is resident
(R30, R224). -/
def plazaArrives (s : State) (m : Msg) (bytes : List Byte) : State :=
  let t := (m.dst.extractLsb' 0 16).toNat
  match meetInbox s t m.launch with
  | .refuse => dropMsg s m.id
  | .wait | .full => s
  | .slot n => acceptInbox (dropMsg s m.id) t n 0xffff bytes

/-- An inbox message of a tile arrives. Where every slot is held it stands at the tile's input, and what comes later on channel 5
waits behind it (R224). -/
def inboxArrives (s : State) (m : Msg) (bytes : List Byte) : State :=
  let t := (m.dst.extractLsb' 0 16).toNat
  if m.src == plazaSource then plazaArrives s m bytes
  else if !earlierDone s m.src m.gtid m.id 5#3 || placedAway s t m.launch then s
  else if !kerbTile s m.tag t then refuseMsg s m .kerbRefused 0#3 0#3 (payloadData bytes)
  else
    match meetInbox s t m.launch with
    | .refuse => refuseMsg s m .peerGone 0#3 0#3 (payloadData bytes)
    | .wait => s
    | .full => setTile s t { tileOf s t with stuck := some m.id }
    | .slot n => acceptInbox (dropMsg s m.id) t n m.src bytes

/-- Table 1-3 places this endpoint on its edge die (R16). -/
def endpointExists (ep : Nat) : Bool :=
  let die := ep / 8
  match ep % 8 with
  | 0 => true
  | 1 => true
  | 2 => true
  | 4 => die % 8 == 0
  | 7 => die == 0
  | _ => die % 2 == 1

/-- A destination that lies outside every protection region: a reserved selector, a selector-15 destination whose bits
15:8 are not zero, or an endpoint that its edge die does not carry (R15 to R17). -/
def outsideRegions (dst : BitVec 20) : Bool :=
  let sel := (dst.extractLsb' 16 4).toNat
  if sel == 15 then dst.extractLsb' 8 8 != 0#8 || !endpointExists (dst.extractLsb' 0 8).toNat
  else sel == 6 || sel == 7 || 11 ≤ sel

/-- A message of tag 0 whose destination has no target is dropped where it is injected, and a NOTIFY record with TAG 0 and
TILE 0xFFFF goes to a Plaza mailbox (R17); it waits while that mailbox is full (R288). -/
def strayMessage (s : State) (die : Nat) (dst : BitVec 20) : State :=
  if 256 ≤ (dieAt s die).mailbox.length then { s with reply := ⟨.retry, []⟩ }
  else
    let h := refusedHeader s
    let r : TrapRecord :=
      { tag := 0, tile := 0xffff, note := true, xside := false, precise := false, nlog := 0, info := 0#8,
        code := .kerbRefused, gtid := 0#64, pc := 0#64, apc := 0#64, arg0 := dst.setWidth 64, arg1 := h.1, arg2 := 0#64,
        frame := 0#64 }
    let d := dieAt h.2 die
    { setDie h.2 die { d with mailbox := d.mailbox ++ [r] } with reply := ⟨.discarded, []⟩ }

/-- The entry that a task logs for a message of an engine that acted on its command (R17, R187). -/
def engineRefused (gtid pc : DWord) (dst : BitVec 20) : ReplayEntry :=
  { gtid, ea := dst.setWidth 64, action := actionFor .kerbRefused, info := 0#8, slot := 0, dest := 0#5, width := 0#3,
    space := .msg, op := 0#8, kind := 9#8, code := .kerbRefused, pc, data := 0#256, data2 := 0#64, ord := 0#3, what := none }

/-- A stray message of a Boulevard engine that acted on a task's command: it is also logged for that task, once the task is not
stopped (R17, R135). -/
def strayEngine (s : State) (t : Nat) (gtid pc : DWord) (dst : BitVec 20) : State :=
  if framed s gtid || 256 ≤ (dieAt s 0).mailbox.length then { s with reply := ⟨.retry, []⟩ }
  else strayMessage (logFor s t (engineRefused gtid pc dst)) 0 dst

/-- A Plaza core's message that meets eight held slots stands at the tile's input, and what comes later on channel 5 waits behind it
(R224; DEDUCED, log 130). -/
def plazaStands (s : State) (t launch : Nat) (bytes : List Byte) : State :=
  let body : Body := .inbox bytes
  let m : Msg := ⟨s.nextId, body.traffic.channel, plazaSource, BitVec.ofNat 20 t, 0, 0#64, launch, 0, 0#64, .free, body⟩
  setTile { s with net := s.net ++ [m], nextId := s.nextId + 1 } t { tileOf s t with stuck := some s.nextId }

/-- INBOX_DELIVERY: an inbox message arrives and takes the lowest free slot, or is refused (R30, R224, R304). -/
def execInboxDelivery (r : InboxReq) (s : State) : Out :=
  .next <| match r with
    | .net id =>
      match msgOf s id with
      | some m =>
        match m.body with
        | .inbox bytes =>
          if m.guard == .discarded then dropMsg s id else if msgMay s m then inboxArrives s m bytes else s
        | _ => s
      | none => s
    | .plaza t launch bytes =>
      if 256 < bytes.length then { s with reply := ⟨.discarded, []⟩ }
      else
        match if inputBusy s t s.nextId then Meet.wait else meetInbox s t launch with
        | .refuse => { s with reply := ⟨.discarded, []⟩ }
        | .wait => { s with reply := ⟨.retry, []⟩ }
        | .full => { plazaStands s t launch bytes with reply := ⟨.done, []⟩ }
        | .slot n => { acceptInbox s t n 0xffff bytes with reply := ⟨.done, []⟩ }
    | .tagZero die dst => if outsideRegions dst && die < 64 then strayMessage s die dst else s
    | .engine t gtid pc dst => if outsideRegions dst then strayEngine s t gtid pc dst else s

/-! ## Landing registers and the ring channel (R60, R61, R63) -/

/-- A put arrives: it lands in an empty register, or waits (R60). -/
def putArrives (s : State) (m : Msg) (reg : Nat) (v : Word) : State :=
  let t := (m.dst.extractLsb' 0 16).toNat
  if !sameCohort s m.src t then refuseMsg s m .peerGone 2#3 (BitVec.ofNat 3 reg) (v.setWidth 256)
  else
    let tl := tileOf s t
    if takesWords s t && (tl.e[reg % 8]'(Nat.mod_lt _ (by decide))).isNone then
      setTile (dropMsg s m.id) t { tl with e := tl.e.set (reg % 8) (some v) (Nat.mod_lt _ (by decide)) }
    else s

/-- PUT_LANDING: a put lands once its register's presence bit is clear (R60, R63, R225). -/
def execPutLanding (id : Nat) (s : State) : Out :=
  .next <| match msgOf s id with
    | some m =>
      match m.body with
      | .put reg v => if m.guard == .discarded then dropMsg s id else if msgMay s m then putArrives s m reg v else s
      | _ => s
    | none => s

/-- The tile whose ring channel leads to this one (R61). -/
def ringPredecessor (s : State) (t : Nat) : Nat :=
  match cohortOf s t with
  | some (_, c, j) => tileOfSerial c ((j * c.size + qidx t + cohortTasks c - 1) % cohortTasks c)
  | none => t

/-- Something that tile `u` sent tile `t` on channel 5 before this number is still to arrive, or stands at the input of `t`
(R8, R224). -/
def sentBefore (s : State) (t u id : Nat) : Bool :=
  (s.net.any fun m => m.id < id && m.src == u && m.chan == Traffic.tileToTile.channel && m.guard != .discarded && unitNamed m.dst == (0, t)) ||
    (s.accs.any fun a => a.id < id && a.tile == u && chan5 a && a.res.isNone && a.guard != .discarded && prTile a.ea == t) ||
    inputBusy s t id ||
    match (tileOf s t).landing with
    | some (v, n, _) => v == u && n < id
    | none => false

/-- RING_VALUE_ARRIVAL: the oldest value in the network toward a tile joins its ri, in its order on channel 5 (R8, R61, R63;
log 94). -/
def execRingValueArrival (t : Nat) (s : State) : Out :=
  .next <|
    let tl := tileOf s t
    match tl.riNet with
    | v :: r =>
      if takesWords s t && tl.ri.length < 4 && !sentBefore s t (ringPredecessor s t) v.1 then setTile s t { tl with riNet := r, ri := tl.ri ++ [v.2] }
      else s
    | [] => s

/-! ## Join wakes (R221) -/

/-- Makes every record of a tile that waits on this counter ready. -/
def wakeJoin (tl : Tile) (t : Nat) (key : Space × DWord) (order : Nat) : Tile :=
  let f (r : Resident) : Resident := match r.cause with
    | .join space ea => if !r.ready && canonAddr t space ea == key then r.wake order else r
    | _ => r
  { tl with resident := tl.resident.map f, overflow := tl.overflow.map f }

/-- JOIN_WAKE: the wake of a counter that reached zero arrives at a tile (R221). -/
def execJoinWake (id : Nat) (s : State) : Out :=
  .next <| match msgOf s id with
    | some m =>
      match m.body with
      | .wake space addr =>
        let t := (m.dst.extractLsb' 0 16).toNat
        if !msgMay s m then s else
        let s1 := dropMsg s id
        setTile { s1 with nextId := s1.nextId + 1 } t (wakeJoin (tileOf s1 t) t (space, addr) s1.nextId)
      | _ => s
    | none => s

/-- The read of a waiting record's counter by its tile (R221). -/
def rereadAccess (t : Nat) (r : Resident) (space : Space) (ea : DWord) : Access :=
  { id := 0, tile := t, act := 0, gtid := r.r.gtid, op := .load, space, ea, n := 4, data := 0#256, data2 := 0#64,
    ord := 0#3, dest := .none, guard := .free, pc := r.r.pc, res := none, again := false, sums := [] }

/-- The tile's read may be performed: it keeps the order of its tile's accesses (R243, R255) and that of channel 5, and waits behind
what stands at the input of the counter's tile or while that tile is being moved (R8, R21, R224). -/
def rereadMay (s : State) (a : Access) : Bool := !(s.accs.any (holdsBack s a)) && channelFree s a

/-- Makes the record at a position ready: resident records first, then the overflow. -/
def readyAt (tl : Tile) (i order : Nat) : Tile :=
  if i < tl.resident.length then { tl with resident := tl.resident.modify i (·.wake order) }
  else { tl with overflow := tl.overflow.modify (i - tl.resident.length) (·.wake order) }

/-- JOIN_REREAD: a tile reads the counter of a waiting record again, and a zero makes the record ready (R221). -/
def execJoinReread (t i : Nat) (s : State) : Out :=
  .next <|
    let tl := tileOf s t
    match (tl.resident ++ tl.overflow)[i]? with
    | none => s
    | some r =>
      match r.cause with
      | .join space ea =>
        let a := { rereadAccess t r space ea with id := s.nextId }
        if r.ready || !rereadMay s a then s
        else
          match reach s a with
          | .at p =>
            let v := performAt s a p
            if v.1 == .value 0#256 then setTile { v.2 with nextId := s.nextId + 1 } t (readyAt tl i s.nextId) else v.2
          | _ => s
      | _ => s

end Sys2Proof.Machine
end

