-- ==== Sys2Proof/Machine/Tensor.lean ====
section
/-! DEFINITION. Elements of matrix operands: as read (R107-R112, R183), as written (R110, R113), and the sum of one slab
(R114-R120). -/

namespace Sys2Proof.Machine

/-! ## Elements as read -/

/-- An element: its value over its unit (a finite value is significand x 2^unit, R118), and its scales as one factor. -/
structure Elem where
  v : Num
  sc : Num
  deriving DecidableEq, Repr

/-- The factor 1. -/
def one : Num := .fin false 1 0

/-- An element beyond ROWS or COLS: +0 with scale 1 (R183). -/
def Elem.zero : Elem := ⟨.fin false 0 0, one⟩

/-- The code of element `j` in bytes that begin at an element (R107). -/
def codeAt (bits : Nat) (el : List Byte) (j : Nat) : Nat :=
  if bits < 8 then ((el[j * bits / 8]?).getD blank).toNat / 2 ^ (j * bits % 8) % 2 ^ bits
  else leNat ((el.drop (j * (bits / 8))).take (bits / 8))

/-- The value of an A4 code under its type (R108, Table 7-7). -/
def a4Value (ty c : Nat) : Num :=
  match ty with
  | 0 => ofInt (readInt 4 true c) 0 false
  | 1 => decodeF fE2M1 c
  | 2 => if c % 8 == 0 then .fin (8 ≤ c) 0 0 else .fin (8 ≤ c) 1 ((c % 8 : Nat) - 7)
  | _ =>
    match decodeF fE2M1 c with
    | .fin s m e => .fin s m (e - 1)
    | x => x

/-- The parts of an FP32 value (R112). -/
def splitF32 (x : Num) : List Num :=
  let r (y : Num) : Num := decodeF fBf16 (encodeF fBf16 .rz y)
  match x with
  | .fin .. =>
    let a0 := r x
    let d := x.add .rne a0.neg
    let a1 := r d
    [a0, a1, r (d.add .rne a1.neg)]
  | _ => [r x, .fin false 0 0, .fin false 0 0]

/-- The three parts of an FP32-class element: split from FP32, or as F32X3 stores them (R107, R112). -/
def partsOf (format raw : Nat) : List Num :=
  if format == 0x1a then [decodeF fBf16 (raw % 2 ^ 16), decodeF fBf16 (raw / 2 ^ 16 % 2 ^ 16), decodeF fBf16 (raw / 2 ^ 32 % 2 ^ 16)]
  else splitF32 (decodeF fF32 (raw % 2 ^ 32))

/-- The exact sum of three parts; the sign of a zero is that of the first. -/
def sumParts (ps : List Num) : Num :=
  match ps with
  | [a, b, c] => if b.eqv (.fin false 0 0) && c.eqv (.fin false 0 0) then a else (a.add .rne b).add .rne c
  | _ => .nan

/-- The scales of a block as one factor: its raw scale bytes, and F4S8's tensor scale (R108, R110, R111). -/
def scaleValue (k : ScaleKind) (sc : List Byte) (head : Nat) : Num :=
  let b := leNat (sc.take 1)
  match k with
  | .none => one
  | .e8m0 => if b == 255 then .nan else .fin false 1 ((b : Int) - 127)
  | .a4 => if b % 64 == 63 then .nan else .fin false 1 ((b % 64 : Nat) - 32)
  | .e4m3 => (decodeF fE4M3 b).mul (decodeF fF32 head)
  | .f16 | .f16z => decodeF fF16 (leNat (sc.take 2))
  | .f32row => decodeF fF32 (leNat (sc.take 4))

/-- The value of an element's code before scaling (Table 7-6, R108, R111); FP32-class codes are read by `partsOf`. -/
def rawValue (format raw : Nat) (sc : List Byte) : Num :=
  let int (bits : Nat) (signed : Bool) (e : Int) : Num := ofInt (readInt bits signed raw) e false
  match format with
  | 0x00 => decodeF fF32 raw
  | 0x01 => decodeF fFr19 (raw / 2 ^ 13)
  | 0x02 => decodeF fBf16 raw
  | 0x03 => decodeF fF16 raw
  | 0x04 | 0x0e => decodeF fE5M2 raw
  | 0x05 | 0x0f => decodeF fE4M3 raw
  | 0x06 | 0x10 => decodeF fE3M2 (raw % 64)
  | 0x07 | 0x11 => decodeF fE2M3 (raw % 64)
  | 0x08 | 0x12 | 0x16 => decodeF fE2M1 raw
  | 0x09 | 0x19 => int 8 true 0
  | 0x0a => int 8 false 0
  | 0x0b | 0x17 => int 4 true 0
  | 0x0c => int 4 false 0
  | 0x0d => int 2 true 0
  | 0x13 => int 8 true (-6)
  | 0x14 | 0x15 => a4Value (leNat (sc.take 1) / 64) raw
  | 0x18 => ofInt ((raw : Int) - (leNat ((sc.drop 2).take 1) : Nat)) 0 false
  | 0x1a => sumParts (partsOf 0x1a raw)
  | _ => int 16 true 0

/-- Bytes that hold the scales of one block in a row as read: 2 and a zero point for Q4Z. -/
def blockBytes (k : ScaleKind) : Nat :=
  match k with
  | .none => 0
  | .e8m0 | .a4 | .e4m3 => 1
  | .f16 => 2
  | .f16z => 3
  | .f32row => 4

/-- Part of a stored row as read: the bytes of its elements, and `blockBytes` bytes for each block it meets. -/
structure RawRow where
  el : List Byte
  sc : List Byte
  deriving DecidableEq, Repr

/-- The raw scale bytes of the block of element `k` in a row read from element `k0` on. -/
def blockOf (f : Format) (r : RawRow) (k0 k : Nat) : List Byte :=
  let b := if f.block == 0 then 0 else k / f.block - k0 / f.block
  (r.sc.drop (b * blockBytes f.scale)).take (blockBytes f.scale)

/-- Element `(i, k0 + j)` of a tensor from its row as read (R183). -/
def elemOfRow (d : Desc) (r : RawRow) (head i k0 j : Nat) : Elem :=
  if d.rows ≤ i || d.cols ≤ k0 + j then Elem.zero
  else
    let f := fmt d.format
    let sc := blockOf f r k0 (k0 + j)
    ⟨rawValue d.format (codeAt f.bits r.el j) sc, scaleValue f.scale sc head⟩

/-- Part `p` of the FP32-class element `(i, k0 + j)`. -/
def partOfRow (d : Desc) (r : RawRow) (i k0 p j : Nat) : Elem :=
  if d.rows ≤ i || d.cols ≤ k0 + j then Elem.zero
  else ⟨((partsOf d.format (codeAt (fmt d.format).bits r.el j))[p]?).getD (.fin false 0 0), one⟩

/-! ## Pairs and slabs (R114-R120) -/

/-- K and c of a pair of formats; `none` where `mma` refuses it (R114). -/
def pairShape (a b : Nat) : Option (Nat × Nat) :=
  if fp32Class a != fp32Class b then none
  else if a == b then some ((fmt a).slabK, (fmt a).c)
  else some (min (fmt a).slabK (fmt b).slabK, max (fmt a).c (fmt b).c)

/-- How the products of a slab may deviate: the fidelity, whether perturbations are possible, the number of the first
draw (R119, R120). -/
structure Slices where
  fid : Nat
  perturbs : Bool
  draw : Nat
  deriving DecidableEq, Repr

/-- What the columns below `c` of the partial products of two significands add up to (R118). -/
def lowSum (c m k : Nat) : Nat := ((upFrom 0 c).map fun i => if m.testBit i then k % 2 ^ (c - i) * 2 ^ i else 0).sum

/-- A carry out of the low slice crosses its boundary (R118, R120). -/
def lowCarries (c m k : Nat) : Bool := 2 ^ c ≤ lowSum c m k

/-- The product of `m` and `k` that draw `n` perturbs: less than 2^c units away, and with its columns from c + 1 up exact unless a carry
out of the low slice crosses the boundary (R120; log 5). -/
def perturbedProduct (c n m k : Nat) : Nat :=
  let p := m * k
  let q := p + Config.perturbation n % (2 ^ (c + 1) - 1) - (2 ^ c - 1)
  if lowCarries c m k || q / 2 ^ (c + 1) == p / 2 ^ (c + 1) then q else p

/-- The product of two significands as the array delivers it (R120; log 5). -/
def deliverProduct (sl : Slices) (c n m k : Nat) : Nat :=
  let p := m * k
  if p == 0 || c == 0 then p
  else if sl.fid == 3 then p / 2 ^ c * 2 ^ c + 2 ^ (c - 1)
  else if sl.perturbs && Config.perturbed (sl.draw + n) then perturbedProduct c (sl.draw + n) m k
  else p

/-- Product `n` of a slab, scaled (R115, R116, R118). -/
def slabProduct (sl : Slices) (c n : Nat) (a b : Elem) : Num :=
  let p := match a.v, b.v with
    | .fin s m e, .fin t k d => Num.fin (s != t) (deliverProduct sl c n m k) (e + d)
    | x, y => x.mul y
  (p.mul a.sc).mul b.sc

/-- Floor of log2 of a magnitude. -/
def floorLog2 (m : Nat) (e : Int) : Int := (bitLen m : Int) - 1 + e

/-- The largest exponent among the non-zero finite products (R115). -/
def slabTop : List Num → Option Int
  | [] => none
  | .fin _ m e :: r =>
    if m == 0 then slabTop r
    else
      match slabTop r with
      | none => some (floorLog2 m e)
      | some t => some (max t (floorLog2 m e))
  | _ :: r => slabTop r

/-- The products cut toward zero at 2^q and added exactly, in units of 2^q (R115). -/
def slabWindow (q : Int) : List Num → Int
  | [] => 0
  | .fin s m e :: r =>
    let n : Int := (roundGrid .rz s m e q : Nat)
    (if s then -n else n) + slabWindow q r
  | _ :: r => slabWindow q r

/-- S of R115, with the special values of R116. -/
def slabValue (ps : List Num) : Num :=
  let pinf := ps.contains (.inf false)
  let ninf := ps.contains (.inf true)
  if ps.any (·.isNan) || (pinf && ninf) then .nan
  else if pinf then .inf false
  else if ninf then .inf true
  else
    match slabTop ps with
    | some t => ofInt (slabWindow (t - 40) ps) (t - 40) false
    | none => .fin (ps.all (·.isNeg)) 0 0

/-- SlabSum: one slab or pass into an accumulator element (R115, R116). -/
def slabSum (acc : Word) (ps : List Num) : Word := toF32 .rne ((f32 acc).add .rne (slabValue ps))

/-- The accumulator after one slab or pass, from the 32 rows of A and of B (R115, R190). -/
def slabPass (sl : Slices) (c : Nat) (a b : List (List Elem)) (m : SMap Word) : SMap Word :=
  let row (i : Nat) : List Elem := (a[i]?).getD []
  let col (j : Nat) : List Elem := (b[j]?).getD []
  let word (i j : Nat) : Word :=
    let pairs := (row i).zip (col j)
    let n := pairs.length
    slabSum (smGet 0#32 (32 * i + j) m)
      (((upFrom 0 n).zip pairs).map fun p => slabProduct sl c ((32 * i + j) * n + p.1) p.2.1 p.2.2)
  ((upFrom 0 1024).map fun k => (k, word (k / 32) (k % 32))).filter fun e => e.2 != 0#32

/-! ## Elements as written (R104, R110, R113) -/

/-- The largest magnitude of a block, as a value (R110, R113). -/
def blockMax : List Num → Num
  | [] => .fin false 0 0
  | x :: r =>
    let y := match x with
      | .fin _ m e => Num.fin false m e
      | .inf _ => .inf false
      | .nan => .nan
    let z := blockMax r
    if y.isNan || z.isNan then .nan else if z.lt y then y else z

/-- emax of an MX format (R110). -/
def mxEmax (format : Nat) : Int :=
  match format with
  | 0x0e => 15 | 0x0f => 8 | 0x10 => 4 | 0x11 => 2 | 0x12 => 2 | _ => 0

/-- The scale byte of an MX block (R110). -/
def mxScale (format : Nat) (xs : List Num) : Nat :=
  match blockMax xs with
  | .nan => 255
  | .inf _ => 254
  | .fin _ m e => if m == 0 then 0 else (max 0 (min 254 (floorLog2 m e - mxEmax format + 127))).toNat

/-- Divides by 2^k. -/
def Num.down (x : Num) (k : Int) : Num :=
  match x with
  | .fin s m e => .fin s m (e - k)
  | y => y

/-- An element of an MX block, saturating (R100 last column, R110). -/
def mxCode (format : Nat) (mode : RMode) (x : Num) : Nat :=
  let sat (f : Fmt) : Nat := encodeF { f with inf := false } mode x
  match format with
  | 0x0e => sat fE5M2
  | 0x0f => sat fE4M3
  | 0x10 => sat fE3M2
  | 0x11 => sat fE2M3
  | 0x12 => sat fE2M1
  | _ => (BitVec.ofInt 8 (toInt 8 true mode (x.down (-6)))).toNat

/-- V of an A4 type (R113). -/
def a4Top (ty : Nat) : Nat :=
  match ty with
  | 0 => 7 | 1 => 6 | 2 => 1 | _ => 3

/-- The least E from `e` on, with `fuel` to try, at which the block fits (R113). -/
def a4Fit (ty : Nat) (amax : Num) : Nat → Nat → Nat
  | 0, _ => 62
  | fuel + 1, e => if (Num.fin false (a4Top ty) ((e : Int) - 32)).lt amax then a4Fit ty amax fuel (e + 1) else e

/-- E of an A4 block (R113). -/
def a4Exp (ty : Nat) (xs : List Num) : Nat :=
  match blockMax xs with
  | .nan => 63
  | a => a4Fit ty a 63 0

/-- The magnitude of an A4 magnitude code in units of 2^-6. -/
def a4Mag (ty c : Nat) : Nat :=
  match a4Value ty c with
  | .fin _ m e => scaleUp m (e + 6)
  | _ => 0

/-- The magnitude code that a magnitude rounds to, from magnitude code `c` down (R113). -/
def a4Round (ty : Nat) (mode : RMode) (neg : Bool) (m : Nat) (e : Int) : Nat → Nat
  | 0 => 0
  | c + 1 =>
    let low := min e (-6)
    let x := scaleUp m (e - low)
    let lo := scaleUp (a4Mag ty c) (-6 - low)
    let hi := scaleUp (a4Mag ty (c + 1)) (-6 - low)
    if hi ≤ x then c + 1
    else if lo < x then
      let up := match mode with
        | .rne => hi - x < x - lo || (hi - x == x - lo && c % 2 == 1)
        | .rna => hi - x ≤ x - lo
        | .rz => false
        | .ru => !neg
        | .rd => neg
        | .rs u => 2 ^ 32 ≤ (x - lo) * 2 ^ 32 / (hi - lo) + u
      if up then c + 1 else c
    else a4Round ty mode neg m e c

/-- The code of an A4 element: never 0x8, and every zero 0x0 (R109, R113). -/
def a4Code (ty : Nat) (mode : RMode) (x : Num) : Nat :=
  let sign (neg : Bool) (mag : Nat) : Nat :=
    if mag == 0 then 0 else if !neg then mag else if ty == 0 then 16 - mag else 8 + mag
  match x with
  | .nan => 0
  | .inf s => sign s 7
  | .fin s m e => sign s (a4Round ty mode s m e 7)

/-- The code of an element of a format without blocks (R95, R103, R104, R113). -/
def plainCode (format : Nat) (mode : RMode) (x : Num) : Nat :=
  let int (bits : Nat) (signed : Bool) : Nat := (BitVec.ofInt bits (toInt bits signed mode x)).toNat
  match format with
  | 0x00 => encodeF fF32 mode x
  | 0x01 => encodeF fFr19 mode x * 2 ^ 13
  | 0x02 => encodeF fBf16 mode x
  | 0x03 => encodeF fF16 mode x
  | 0x04 => encodeF fE5M2 mode x
  | 0x05 => encodeF fE4M3 mode x
  | 0x06 => encodeF fE3M2 mode x
  | 0x07 => encodeF fE2M3 mode x
  | 0x08 => encodeF fE2M1 mode x
  | 0x09 => int 8 true
  | 0x0a => int 8 false
  | 0x0b => int 4 true
  | 0x0c => int 4 false
  | 0x0d => int 2 true
  | 0x1a =>
    match splitF32 (decodeF fF32 (encodeF fF32 mode x)) with
    | [a, b, c] => encodeF fBf16 .rz a + encodeF fBf16 .rz b * 2 ^ 16 + encodeF fBf16 .rz c * 2 ^ 32
    | _ => 0
  | _ => int 16 true

/-- The codes of a block and its scale byte, if the format has one; each element brings its mode (R110, R113). -/
def encodeBlock (format ty : Nat) (xs : List (Num × RMode)) : List Nat × Option Nat :=
  let f := fmt format
  let vs := xs.map (·.1)
  match f.scale with
  | .e8m0 =>
    let x := mxScale format vs
    (xs.map fun p => if x == 255 then 0 else mxCode format p.2 (p.1.down ((x : Int) - 127)), some x)
  | .a4 =>
    let e := a4Exp ty vs
    (xs.map fun p => if e == 63 then 0 else a4Code ty p.2 (p.1.down ((e : Int) - 32)), some (64 * ty + e))
  | _ => (xs.map fun p => plainCode format p.2 p.1, none)

/-- The codes of a row and its scale bytes, block by block. -/
def encodeBlocks (format ty : Nat) : Nat → List (Num × RMode) → List Nat × List Nat
  | 0, _ => ([], [])
  | _, [] => ([], [])
  | fuel + 1, xs =>
    let n := if (fmt format).block == 0 then xs.length else (fmt format).block
    let b := encodeBlock format ty (xs.take n)
    let r := encodeBlocks format ty fuel (xs.drop n)
    (b.1 ++ r.1, b.2.toList ++ r.2)

/-- The number that codes of `bits` bits spell, lowest first. -/
def packCodes (bits : Nat) : List Nat → Nat
  | [] => 0
  | c :: r => c + 2 ^ bits * packCodes bits r

/-- The bytes of a row of values in a format, and of its scales (R107, R113). -/
def encodeRow (format ty : Nat) (xs : List (Num × RMode)) : List Byte × List Byte :=
  let bits := (fmt format).bits
  let e := encodeBlocks format ty xs.length xs
  (leBytes (packCodes bits e.1) ((xs.length * bits + 7) / 8), e.2.map (BitVec.ofNat 8))

/-- The mode of each element of a row: under RS the generator advances once per element (R101, R193). -/
def rowModes (mode : RMode) (rs : Bool) : Nat → Word → List RMode × Word
  | 0, g => ([], g)
  | n + 1, g =>
    if rs then
      let g' := lfsrNext g
      let r := rowModes mode rs n g'
      (.rs g'.toNat :: r.1, r.2)
    else
      let r := rowModes mode rs n g
      (mode :: r.1, r.2)

end Sys2Proof.Machine
end

