-- ==== Sys2Proof/Machine/Engine.lean ====
section
/-! DEFINITION. What every engine shares: accesses to memory (R187, R240, R282, R344), failures (R187, R296), and the rows
of a tensor (R183). -/

namespace Sys2Proof.Machine

/-! ## Engine accesses -/

/-- An engine at work for a task: the state, the issuing tile and task, the first address fault that its command met, and
whether it read uncorrectable data. -/
structure Eng where
  s : State
  tile : Nat
  cmd : Cmd
  fault : Option (Code × Space × DWord)
  bad : Bool

/-- An engine that begins a command. -/
def engStart (s : State) (t : Nat) (c : Cmd) : Eng := ⟨s, t, c, none, false⟩

/-- Keeps the first fault of a command: one entry is logged for a command (log 17). -/
def Eng.note (e : Eng) (c : Code) (space : Space) (ea : Nat) : Eng :=
  if e.fault.isSome then e else { e with fault := some (c, space, BitVec.ofNat 64 ea) }

/-- An engine's access as its home sees it. -/
def engAccess (e : Eng) (op : AccOp) (space : Space) (ea n : Nat) : Access :=
  { id := e.cmd.id, tile := e.tile, act := e.cmd.act, gtid := e.cmd.gtid, op, space, ea := BitVec.ofNat 64 ea, n,
    data := 0#256, data2 := 0#64, ord := 0#3, dest := .none, guard := .free, pc := e.cmd.pc, res := none, again := false,
    sums := [] }

/-- Where an engine's access lands; a translation that the gateway lacks is walked for (R299). -/
def engReach (e : Eng) (a : Access) : Eng × Except Code Place :=
  match reach e.s a with
  | .at p => (e, .ok p)
  | .faults c => (e, .error c)
  | .walking =>
    let tag := tagOf e.s e.tile
    match walk e.s tag (glVa e.s a) with
    | none => (e, .error .xlate)
    | some en =>
      let e1 := { e with s := tlbPut e.s (dieOf e.tile) en }
      match reach e1.s a with
      | .at p => (e1, .ok p)
      | .faults c => (e1, .error c)
      | .walking => (e1, .error .xlate)

/-- The largest piece in which an engine accesses memory: a granule, or a word where a replica window counts each word
(R282). -/
def engUnit (e : Eng) (space : Space) (ea : Nat) : Nat :=
  if space == .gl && (replicaOf e.s e.tile (BitVec.ofNat 64 ea)).isSome then 4 else 64

/-- A range cut at multiples of a unit; `fuel` at least the number of bytes. -/
def pieces (unit : Nat) : Nat → Nat → Nat → List (Nat × Nat)
  | 0, _, _ => []
  | fuel + 1, ea, n =>
    if n == 0 then []
    else
      let k := min n (unit - ea % unit)
      (ea, k) :: pieces unit fuel (ea + k) (n - k)

/-- A guard granule is touched (R187, R258). -/
def engGuarded (s : State) (p : Place) (n : Nat) : Bool :=
  match p with
  | .sp t o => guardTouched s t o n
  | _ => false

/-- Reads one piece; what faults reads as zero (R187, Table 21-11). -/
def engReadPiece (e : Eng) (space : Space) (ea n : Nat) : List Byte × Eng :=
  let r := engReach e (engAccess e .load space ea n)
  let zeros := List.replicate n 0#8
  match r.2 with
  | .error c => (zeros, r.1.note c space ea)
  | .ok p =>
    if engGuarded r.1.s p n then (zeros, r.1.note .guardTouch space ea)
    else if damaged r.1.s p n then (zeros, { r.1 with s := bumpLife r.1.s (.uncorrectable (unitOf r.1.s p)) 1, bad := true })
    else (placeRead r.1.s p n, { r.1 with s := readCorrects r.1.s p n })

/-- Reads bytes of a space. -/
def engRead (e : Eng) (space : Space) (ea n : Nat) : List Byte × Eng :=
  (pieces (engUnit e space ea) n ea n).foldl (fun acc p =>
    let r := engReadPiece acc.2 space p.1 p.2
    (acc.1 ++ r.1, r.2)) ([], e)

/-- Writes one piece; what faults stays unwritten (R187, Table 21-11). -/
def engWritePiece (e : Eng) (space : Space) (ea : Nat) (bs : List Byte) : Eng :=
  let n := bs.length
  let a := engAccess e .store space ea n
  let r := engReach e a
  match r.2 with
  | .error c => r.1.note c space ea
  | .ok p =>
    let merges := match p with
      | .gl (.edge pa) _ => badMerge r.1.s pa n
      | _ => false
    if engGuarded r.1.s p n then r.1.note .guardTouch space ea
    else if merges then { r.1.note .dataError space ea with s := bumpLife r.1.s (.uncorrectable (unitOf r.1.s p)) 1 }
    else { r.1 with s := mended (homeStore r.1.s a p bs) p n }

/-- Writes bytes of a space. -/
def engWrite (e : Eng) (space : Space) (ea : Nat) (bs : List Byte) : Eng :=
  (pieces (engUnit e space ea) bs.length ea bs.length).foldl (fun acc p =>
    engWritePiece acc space p.1 ((bs.drop (p.1 - ea)).take p.2)) e

/-- A line of edge memory in the range that keeps a write back at its home (R256). -/
def engHeldLine (e : Eng) (space : Space) (ea n : Nat) : Option Nat :=
  if space != .gl then none
  else
    (pieces 64 n ea n).findSome? fun p =>
      match (engReach e (engAccess e .store space p.1 p.2)).2 with
      | .ok (.gl (.edge pa) _) => homeLine e.s pa p.2
      | _ => none

/-! ## Failures (R187, R296) -/

/-- The doublewords of a trap record (Table 21-3). -/
def recordWords (r : TrapRecord) : List DWord :=
  let flag (b : Bool) (i : Nat) : Nat := if b then 2 ^ i else 0
  [BitVec.ofNat 64 (r.tag % 256 * 2 ^ 56 + r.tile % 65536 * 2 ^ 36 + flag r.note 28 + flag r.xside 27 + flag r.precise 26 +
      r.nlog % 512 * 2 ^ 16 + r.info.toNat * 2 ^ 8 + codeNum r.code),
    r.gtid, r.pc, r.apc, r.arg0, r.arg1, r.arg2, r.frame]

/-- The 64 bytes of a trap record. -/
def recordBytes (r : TrapRecord) : List Byte := (recordWords r).flatMap fun w => leBytes w.toNat 8

/-- The first error of a launch settles its status; the first reason recorded is kept (R296). -/
def failLaunch (l : Launch) (code : Code) (reason : Byte) : Launch :=
  match l.failed with
  | some _ => l
  | none => { l with failed := some code, reason := reason }

/-- The logical dies that hold a cluster of a region, in increasing number (R269). -/
def regionDies (s : State) (tag : Nat) : List Nat :=
  (upFrom 0 64).filter fun d => (clustersOfDie d).any fun c => tagOfCluster s c == tag

/-- The NOTIFY record of a completion record or fault record that could not be written, in the mailbox of the lowest die of
the launch's region; what a mailbox lists beyond its 256th record waits in the network (R265, R288). -/
def notifyLaunch (s : State) (ln : Nat) (l : Launch) (va : DWord) : State :=
  let r : TrapRecord :=
    { tag := l.tag, tile := 0xffff, note := true, xside := false, precise := false, nlog := 0, info := 0#8, code := .xlate,
      gtid := BitVec.ofNat 64 (ln % 65536 * 2 ^ 48), pc := 0#64, apc := 0#64, arg0 := va, arg1 := 0#64, arg2 := 0#64,
      frame := 0#64 }
  let d := ((regionDies s l.tag)[0]?).getD 0
  setDie s d { dieAt s d with mailbox := (dieAt s d).mailbox ++ [r] }

/-- Writes a record into the launch fault area, where there is room and the card names one (R265, R296). -/
def faultRecord (s : State) (ln : Nat) (r : TrapRecord) : State :=
  match smFind ln s.launches with
  | none => s
  | some l =>
    if 63 ≤ l.faults || cardCompl l.card == 0#64 then s
    else
      let va := cardCompl l.card + BitVec.ofNat 64 (0x40 + 64 * l.faults)
      match writeVirtual s l.tag va (recordBytes r) with
      | some s1 => setLaunch s1 ln { l with faults := l.faults + 1 }
      | none => notifyLaunch s ln l va

/-- The launch has met an engine failure: it will complete with STATUS 0x0B unless an earlier error set it. -/
def markFailed (s : State) (ln : Nat) (code : Code) (reason : Byte) : State :=
  match smFind ln s.launches with
  | some l => setLaunch s ln (failLaunch l code reason)
  | none => s

/-- Records an ENGINE_FAIL in the launch fault area and, while the task has not exited, in its replay queue (R296). -/
def engineFail (s : State) (t ln : Nat) (gtid pc : DWord) (reason : Byte) (word : Word) (reg : DWord) : State :=
  let r : TrapRecord := { noteRecord s t .engineFail gtid pc (word.setWidth 64) reg with info := reason }
  let e : ReplayEntry :=
    { gtid, ea := 0#64, action := 0#4, info := reason, slot := 0, dest := 0#5, width := 0#3, space := .sp, op := 0#8,
      kind := 11#8, code := .engineFail, pc, data := 0#256, data2 := 0#64, ord := 0#3, what := none }
  logFor (markFailed (faultRecord s ln r) ln .engineFail reason) t e

/-- An ENGINE_FAIL of a command. -/
def failCommand (s : State) (t : Nat) (c : Cmd) (reason : Byte) : State :=
  engineFail s t (launchOf s t) c.gtid c.pc reason (commandWord c.body) ((c.regs[0]?).getD 0#64)

/-- A task stands stopped by a trap (R135). -/
def gtidStopped (s : State) (t : Nat) (gtid : DWord) : Bool :=
  let tl := tileOf s t
  (match tl.run with
   | .stopping _ => tl.task.gtid == gtid
   | _ => false) || s.frames.any fun f => f.2.task.gtid == gtid

/-- The task of a command stands stopped by a trap (R135). -/
def taskStopped (s : State) (t : Nat) (c : Cmd) : Bool := gtidStopped s t c.gtid

/-- An engine holds a fault that it cannot log now: the queue and its overflow are full, the task is stopped, or a Kerb
refusal's record has no room (R135, R288). -/
def engHolds (e : Eng) : Bool :=
  (e.fault.isSome || e.bad) &&
    (taskStopped e.s e.tile e.cmd || 256 ≤ (tileOf e.s e.tile).replay.length || recordsFull e.s e.tile)

/-- The entry of an engine access (KIND 9); its width is that of a 4-byte word (log 17). -/
def engEntry (e : Eng) (c : Code) (space : Space) (ea : DWord) : ReplayEntry :=
  { gtid := e.cmd.gtid, ea, action := actionFor c, info := infoFor c ea, slot := 0, dest := 0#5, width := 2#3, space,
    op := 0#8, kind := 9#8, code := c, pc := e.cmd.pc, data := 0#256, data2 := 0#64, ord := 0#3, what := none }

/-- The end of a command: its fault is logged and its failure recorded (R135, R187, R304). -/
def engFinish (e : Eng) : State :=
  let s1 := match e.fault with
    | some (c, space, ea) =>
      let s0 := logFor e.s e.tile (engEntry e c space ea)
      if c == .kerbRefused then notifyKerb s0 e.tile e.cmd.gtid e.cmd.pc ea else s0
    | none => e.s
  if e.bad then failCommand s1 e.tile e.cmd 0x06#8 else s1

/-- The tile a pr tensor lies in. -/
def descTile (d : Desc) : Nat := d.base / 2 ^ 32 % 2 ^ 16

/-- The tiles of a multicast rectangle; `none` where it does not lie inside the cluster (R201). -/
def rectangle (t : Nat) (a : DWord) : Option (List Nat) :=
  let x := (a.extractLsb' 0 8).toNat
  let y := (a.extractLsb' 8 8).toNat
  let w := (a.extractLsb' 16 8).toNat
  let h := (a.extractLsb' 24 8).toNat
  if w == 0 || 16 < w || h == 0 || 16 < h || x / 16 != tileX t / 16 || y / 16 != tileY t / 16 || 16 < x % 16 + w ||
      16 < y % 16 + h then none
  else some ((upFrom 0 (w * h)).map fun k => (y + k / w) * 256 + (x + k % w))

/-- A tile that an engine's traffic for a command goes to, with its class: pr accesses are tile-to-tile traffic, what `cpy.m` sends
through the Crossing is stream traffic (Table 1-10). -/
def engTargets (t : Nat) (c : Cmd) : List (Nat × Traffic) :=
  ((c.descs.filter fun d => d.space == .pr && descTile d != t).map fun d => (descTile d, .tileToTile)) ++
    match c.body with
    | .cpyM _ => ((rectangle t ((c.regs[0]?).getD 0#64)).getD []).map fun u => (u, .stream)
    | _ => []

/-- An engine's traffic for a command meets nothing at the tiles that it goes to: none of them is being moved, and on channel 5
nothing that the tile sent before the command, nor a message at the input, stands before it (R8, R18, R21, R224). -/
def engFree (s : State) (t : Nat) (c : Cmd) : Bool :=
  (engTargets t c).all fun x =>
    if x.2 == .tileToTile then !sentBefore s x.1 t c.issued && inputFree s t x.1 c.issued else !moving s 65536 x.1

/-- An engine may begin on a command: every earlier access and message of its task has been performed, or has left the tile where
that is enough at .tl, every store that the tile made before the push has been performed, and its traffic is free to go
(R180, R245, R250). -/
def pushSeen (s : State) (t : Nat) (c : Cmd) : Bool :=
  earlierDone s t c.gtid c.issued 1#3 && engFree s t c &&
    s.accs.all fun a => a.tile != t || c.id ≤ a.id || a.res.isSome || a.guard == .discarded || !mustLeave a.op

/-! ## Rows of a tensor (R183) -/

/-- The address of stored row `i`. -/
def rowAddr (d : Desc) (i : Nat) : Nat := d.base + i * d.stride

/-- The address of scale row `i`. -/
def scaleAddr (d : Desc) (i : Nat) : Nat := d.scale + scaleHead d.format + i * scaleRow d.format d.cols

/-- The per-tensor scale of F4S8, as raw bits. -/
def engHead (e : Eng) (d : Desc) : Nat × Eng :=
  if scaleHead d.format == 0 then (0, e)
  else
    let r := engRead e d.space d.scale 4
    (leNat r.1, r.2)

/-- The raw scale bytes of block `b` of row `i`, with Q4Z's zero point as a third byte. -/
def engBlock (e : Eng) (d : Desc) (i b : Nat) : List Byte × Eng :=
  let f := fmt d.format
  let nb := rowBlocks f d.cols
  match f.scale with
  | .none => ([], e)
  | .e8m0 | .a4 | .e4m3 => engRead e d.space (scaleAddr d i + b) 1
  | .f16 => engRead e d.space (scaleAddr d i + 2 * b) 2
  | .f16z =>
    let s := engRead e d.space (scaleAddr d i + 2 * b) 2
    let z := engRead s.2 d.space (scaleAddr d i + 2 * nb + b / 2) 1
    (s.1 ++ [BitVec.ofNat 8 (leNat z.1 / 16 ^ (b % 2) % 16)], z.2)
  | .f32row => engRead e d.space (scaleAddr d i) 4

/-- Elements `k0` to `k0 + n - 1` of row `i` and the scales of the blocks they meet; what lies beyond the tensor takes no
access. -/
def engRow (e : Eng) (d : Desc) (i k0 n : Nat) : RawRow × Eng :=
  if d.rows ≤ i || d.cols ≤ k0 then (⟨[], []⟩, e)
  else
    let f := fmt d.format
    let hi := min (k0 + n) d.cols
    let lo := k0 * f.bits / 8
    let el := engRead e d.space (rowAddr d i + lo) ((hi * f.bits + 7) / 8 - lo)
    let b0 := if f.block == 0 then 0 else k0 / f.block
    let bs := if f.block == 0 then 1 else (hi - 1) / f.block + 1 - b0
    let sc := (upFrom b0 bs).foldl (fun acc b =>
      let r := engBlock acc.2 d i b
      (acc.1 ++ r.1, r.2)) ([], el.2)
    (⟨el.1, sc.1⟩, sc.2)

/-- Rows 0 to `n - 1`, each from element `k0` on. -/
def engRows (e : Eng) (d : Desc) (k0 k : Nat) : Nat → List RawRow × Eng
  | 0 => ([], e)
  | n + 1 =>
    let r := engRows e d k0 k n
    let x := engRow r.2 d n k0 k
    (r.1 ++ [x.1], x.2)

/-- Writes row `i` of values from column 0 on, with the scales of its blocks (R113). -/
def engPutRow (e : Eng) (d : Desc) (ty i : Nat) (xs : List (Num × RMode)) : Eng :=
  let b := encodeRow d.format ty xs
  let e1 := engWrite e d.space (rowAddr d i) b.1
  if b.2.isEmpty then e1 else engWrite e1 d.space (scaleAddr d i) b.2

/-- Every range of bytes that a tensor's rows and scale rows occupy. -/
def tensorRanges (d : Desc) : List (Nat × Nat) :=
  let rows := (upFrom 0 d.rows).map fun i => (rowAddr d i, rowBytes d.format d.cols)
  if scaleRow d.format d.cols == 0 then rows
  else rows ++ (upFrom 0 d.rows).map fun i => (scaleAddr d i, scaleRow d.format d.cols)

/-- A line that a host agent may hold among those a command would write (R256). -/
def engAwaitsHost (e : Eng) (d : Desc) : Option Nat :=
  if d.space != .gl || !(e.s.ports.any fun p => !p.2.cached.isEmpty) then none
  else (tensorRanges d).findSome? fun r => engHeldLine e d.space r.1 r.2

end Sys2Proof.Machine
end

