-- ==== Sys2Proof/Machine/Operands.lean ====
section
/-! DEFINITION. Operands of X instructions: sources with the two latches (R52, R53, R58, R59, R76), destinations (R52, R61,
R153), and the order in which an X instruction takes, waits and writes (R152). -/

namespace Sys2Proof.Machine

/-! ## Sources -/

/-- A source position of an X instruction: absent, the IMM7 of format XI sign-extended, or a field of some coding. -/
inductive Operand where
  | absent
  | imm (v : Word)
  | field (k : OperandKind) (c : BitVec 6)
  deriving DecidableEq, Repr

/-- A value in all 8 lanes. -/
def broadcast (w : Word) : Vec := w ++ w ++ w ++ w ++ w ++ w ++ w ++ w

/-- Lane `i` of a short vector (R171). -/
def laneOf (v : Vec) (i : Nat) : Word := v.extractLsb' (32 * i) 32

/-- A short vector from its lanes. -/
def ofLanes (f : Nat → Word) : Vec := f 7 ++ f 6 ++ f 5 ++ f 4 ++ f 3 ++ f 2 ++ f 1 ++ f 0

/-- The queue that an operand names, if it names lq0 or lq1. -/
def namesLq (o : Operand) : Option (BitVec 1) :=
  match o with
  | .field k c =>
    if k == .long || k == .none || k == .imm then none
    else if c == 48#6 then some 0#1
    else if c == 49#6 then some 1#1
    else none
  | _ => none

/-- The operand is delivered by its latch in this bundle (R59). -/
def heldBy (o : Operand) (hold : Bool) : Bool :=
  hold &&
    match o with
    | .field k _ => k != .long
    | _ => false

/-- A g register; g0 reads zero (R57). -/
def Task.getG (t : Task) (n : Nat) : Word := if n == 0 then 0#32 else t.g[n % 48]'(Nat.mod_lt _ (by decide))

/-- Writes a g register; g0 stays zero (R57). -/
def Task.putG (t : Task) (n : Nat) (w : Word) : Task :=
  if n == 0 then t else { t with g := t.g.set (n % 48) w (Nat.mod_lt _ (by decide)) }

/-- A predicate; p0 reads true (R57). -/
def Task.getP (t : Task) (n : BitVec 3) : Bool := n == 0#3 || t.p[n.toFin]

/-- Writes a predicate; p0 stays true (R57). -/
def Task.putP (t : Task) (n : BitVec 3) (b : Bool) : Task := if n == 0#3 then t else { t with p := t.p.set n.toFin b }

/-- Drops the head of lq0 or lq1. -/
def Task.popLq (t : Task) (q : BitVec 1) : Task :=
  if q == 0#1 then { t with lq0 := t.lq0.drop 1 } else { t with lq1 := t.lq1.drop 1 }

/-- What an X instruction finds at the place of an lq entry it is to consume. -/
inductive LqPeek where
  | waits
  | ready
  | poisoned (c : Code) (ea : DWord)
  deriving DecidableEq, Repr

/-- The entry at a place in a queue (R53). -/
def Task.peekLq (t : Task) (q : BitVec 1) (i : Nat) : LqPeek :=
  match (t.lq q)[i]? with
  | none => .waits
  | some e =>
    match e.fill with
    | .waiting _ => .waits
    | .data _ => .ready
    | .poisoned c ea => .poisoned c ea

/-- Both lq entries that an instruction names: it waits for every one, and the first poisoned one traps (R152 step 1). -/
def peekBoth (t : Task) (a b : Option (BitVec 1)) : LqPeek :=
  let pa := match a with
    | some q => t.peekLq q 0
    | none => .ready
  let pb := match b with
    | some q => t.peekLq q (if a == some q then 1 else 0)
    | none => .ready
  match pa, pb with
  | .waits, _ => .waits
  | _, .waits => .waits
  | .poisoned c ea, _ => .poisoned c ea
  | .ready, p => p

/-- Reads or pops one named source, scalar or short-vector coding: its value, whether it is 256 bits wide, and the state
after; `none` while an empty source keeps the instruction waiting (R50, R52, R60-R62, Table 5-4). -/
def readField (s : State) (k : OperandKind) (c : BitVec 6) : Option (Vec × Bool × State) :=
  let t := curTask s
  let tl := curTile s
  let n := c.toNat
  let vector := k == .vec || k == .vecAcc || k == .vreg
  if n == 48 || n == 49 then
    let q : BitVec 1 := if n == 48 then 0#1 else 1#1
    match t.lq q with
    | ⟨_, .data v⟩ :: _ => some (if vector then v else (v.setWidth 32).setWidth 256, vector, setCurTask s (t.popLq q))
    | _ => none
  else if n == 62 then some (if vector then broadcast s.cur.ext else s.cur.ext.setWidth 256, vector, s)
  else if n == 63 then some (t.acc.setWidth 256, false, s)
  else if vector then some (t.v[n % 16]'(Nat.mod_lt _ (by decide)), true, s)
  else if n < 48 then some ((t.getG n).setWidth 256, false, s)
  else if n == 50 then
    match tl.ri with
    | w :: r => some (w.setWidth 256, false, setCurTile s { tl with ri := r })
    | [] => none
  else if n == 53 then
    match tl.ef with
    | w :: r => some (w.setWidth 256, false, setCurTile s { tl with ef := r })
    | [] => none
  else
    let i := (n + 2) % 8
    match tl.e[i]'(Nat.mod_lt _ (by decide)) with
    | some w => some (w.setWidth 256, false, setCurTile s { tl with e := tl.e.set i none (Nat.mod_lt _ (by decide)) })
    | none => none

/-- Leaves a value in latch A or latch B (R59). -/
def setLatch (s : State) (isB : Bool) (l : OperandLatch) : State :=
  let t := curTask s
  setCurTask s (if isB then { t with latchB := l } else { t with latchA := l })

/-- The value a latch delivers to a held operand: a short-vector operation takes all 256 bits (R59). -/
def readLatch (s : State) (isB : Bool) (vector : Bool) : Vec × State :=
  let t := curTask s
  let l := if isB then t.latchB else t.latchA
  if vector && !l.wide then
    let v : Vec := Config.latchHigh s.freeIdx ++ (l.v.setWidth 32)
    (v, setLatch { s with freeIdx := s.freeIdx + 1 } isB ⟨v, true⟩)
  else (if vector then l.v else (l.v.setWidth 32).setWidth 256, s)

/-- Takes one source operand: its value and the state after, or `none` while it waits. -/
def takeOne (s : State) (o : Operand) (isB held : Bool) : Option (Vec × State) :=
  match o with
  | .absent => some (0#256, s)
  | .imm v => some (v.setWidth 256, setLatch s isB ⟨v.setWidth 256, false⟩)
  | .field k c =>
    if k == .long then some (0#256, s)
    else if held then some (readLatch s isB (k == .vec || k == .vecAcc || k == .vreg))
    else (readField s k c).map fun r => (r.1, setLatch r.2.2 isB ⟨r.1, r.2.1⟩)

/-- What becomes of taking the sources. -/
inductive Took where
  | waits (s : State)
  | trap (c : Code) (ea : DWord)
  | got (s : State) (a b : Vec)

/-- Keeps the values taken so far while the instruction waits (R60, R158). -/
def keepTaken (s : State) (vs : List Vec) : State := setCurTask s { curTask s with taken := vs }

/-- The instruction waits on an empty source, in clk that are counted (R334). -/
def waitSource (s : State) (vs : List Vec) : State := markWait (keepTaken s vs) s.cur.tile 5

/-- R152 steps 1 and 2: the sources in the order A, B. -/
def takeSources (s : State) (a b : Operand) : Took :=
  let t := curTask s
  match t.taken with
  | [va, vb] => .got s va vb
  | [va] =>
    match takeOne s b true (heldBy b s.cur.hb) with
    | some (vb, s2) => .got s2 va vb
    | none => .waits (waitSource s [va])
  | _ =>
    let qa := if heldBy a s.cur.ha then none else namesLq a
    let qb := if heldBy b s.cur.hb then none else namesLq b
    match peekBoth t qa qb with
    | .waits => .waits (waitSource s [])
    | .poisoned c ea => .trap c ea
    | .ready =>
      match takeOne s a false (heldBy a s.cur.ha) with
      | none => .waits (waitSource s [])
      | some (va, s1) =>
        match takeOne s1 b true (heldBy b s.cur.hb) with
        | some (vb, s2) => .got s2 va vb
        | none => .waits (waitSource s1 [va])

/-! ## Destinations -/

/-- A scalar destination has room: ro while fewer than 4 values are unread, sq below 8, xq below 4 (R51, R61). -/
def roomScalar (s : State) (d : BitVec 6) : Bool :=
  let t := curTask s
  match d.toNat with
  | 50 => let u := tileOf s (ringSuccessor s s.cur.tile); u.ri.length + u.riNet.length < 4
  | 51 => t.sq.length < 8
  | 52 => t.xq.length < 4
  | _ => true

/-- Writes a scalar destination (R52, R153). -/
def writeScalar (s : State) (d : BitVec 6) (w : Word) : State :=
  let t := curTask s
  match d.toNat with
  | 50 =>
    let u := ringSuccessor s s.cur.tile
    let tl := tileOf s u
    setTile { s with nextId := s.nextId + 1 } u { tl with riNet := tl.riNet ++ [(s.nextId, w)] }
  | 51 => setCurTask s { t with sq := t.sq ++ [w.setWidth 256] }
  | 52 => setCurTask s { t with xq := t.xq ++ [w.signExtend 64] }
  | 63 => setCurTask s { t with acc := w }
  | n => setCurTask s (t.putG n w)

/-- A short-vector destination has room. -/
def roomVector (s : State) (d : BitVec 6) : Bool := d.toNat != 51 || (curTask s).sq.length < 8

/-- Writes a short-vector destination (R171). -/
def writeVector (s : State) (d : BitVec 6) (v : Vec) : State :=
  let t := curTask s
  if d.toNat == 51 then setCurTask s { t with sq := t.sq ++ [v] }
  else setCurTask s { t with v := t.v.set (d.toNat % 16) v (Nat.mod_lt _ (by decide)) }

/-- Operand C of a scalar form: the destination where it can be read, else the neutral value given (R153). -/
def oldScalar (s : State) (d : BitVec 6) (neutral : Word) : Word :=
  let t := curTask s
  if d.toNat < 48 then t.getG d.toNat else if d.toNat == 63 then t.acc else neutral

/-- Operand C of a short-vector form. -/
def oldVector (s : State) (d : BitVec 6) (neutral : Vec) : Vec :=
  if d.toNat < 16 then (curTask s).v[d.toNat % 16]'(Nat.mod_lt _ (by decide)) else neutral

/-! ## One X instruction (R58, R152) -/

/-- The g registers that a source reads from a bank. -/
def bankReg (o : Operand) (held : Bool) : List Nat :=
  match o with
  | .field .scalar c => if !held && 0 < c.toNat && c.toNat < 48 then [c.toNat] else []
  | _ => []

/-- Extra clk of a bank conflict: the largest number of distinct registers read in one bank, less one (R58). -/
def bankStall (s : State) (a b : Operand) (c : Option (BitVec 6)) : Nat :=
  let cs := match c with
    | some d => if 0 < d.toNat && d.toNat < 48 then [d.toNat] else []
    | none => []
  let regs := (bankReg a (heldBy a s.cur.ha) ++ bankReg b (heldBy b s.cur.hb) ++ cs).eraseDups
  ((upFrom 0 6).map fun k => (regs.filter fun r => r % 6 == k).length).foldl max 1 - 1

/-- The X instruction has completed: it leaves the head of its queue, and is counted, a `nop` or hint too (R49, R85, R334;
log 104); its bank stall goes to the sample that marks its bundle (R339). -/
def xDone (s : State) (stall : Nat) : State :=
  let t := curTask s
  let tl := curTile s
  let s1 := setCurTile s { tl with
    task := { t with xinstr := t.xinstr.drop 1, xbusy := false, taken := [] }
    mark := tl.mark.map fun m => if m.out && m.pc == s.cur.pc && m.gtid == t.gtid then { m with bank := stall } else m }
  let s2 := countEvent s1 s.cur.tile 2 1
  if stall == 0 then s2 else countEvent s2 s.cur.tile 6 stall

/-- Carries out an X instruction: sources, guard, room at the destination, result (R152). `room` and `act` see the state
after the sources were taken; `c` is a destination that is also read. -/
def runX (s : State) (pg : BitVec 3) (a b : Operand) (c : Option (BitVec 6)) (room : State → Bool)
    (act : State → Vec → Vec → State) : State :=
  match takeSources s a b with
  | .waits s1 => s1
  | .trap code ea => xTrap s code ea
  | .got s1 va vb =>
    let stall := bankStall s a b c
    if !(curTask s1).getP pg then xDone s1 stall
    else if room s1 then xDone (act s1 va vb) stall
    else keepTaken s1 [va, vb]

/-- A scalar form with operands A and B and a scalar destination. -/
def scalarAB (s : State) (pg : BitVec 3) (d : BitVec 6) (a b : Operand) (op : Word → Word → Word) : State :=
  runX s pg a b none (roomScalar · d) fun s1 va vb => writeScalar s1 d (op (va.setWidth 32) (vb.setWidth 32))

/-- A scalar form that also reads its destination, with the neutral value of R153. -/
def scalarABC (s : State) (f : FXR) (neutral : Word) (op : Word → Word → Word → Word) : State :=
  runX s f.p (.field .scalar f.a) (.field .scalar f.b) (some f.d) (roomScalar · f.d) fun s1 va vb =>
    writeScalar s1 f.d (op (va.setWidth 32) (vb.setWidth 32) (oldScalar s1 f.d neutral))

/-- A register form of two operands. -/
def scalar2 (s : State) (f : FXR) (op : Word → Word → Word) : State :=
  scalarAB s f.p f.d (.field .scalar f.a) (.field .scalar f.b) op

/-- A register form of one operand. -/
def scalar1 (s : State) (f : FXR1) (op : Word → Word) : State :=
  scalarAB s f.p f.d (.field .scalar f.a) .absent fun x _ => op x

/-- An immediate form: operand B is IMM7, sign-extended (R162). -/
def scalarI (s : State) (f : FXI) (op : Word → Word → Word) : State :=
  scalarAB s f.p f.d (.field .scalar f.a) (.imm (f.i.signExtend 32)) op

/-- The default rounding mode of cr.mode (R99, R156). -/
def modeOf (rm : BitVec 3) : RMode :=
  match rm.toNat with
  | 0 => .rne | 1 => .rz | 2 => .ru | 3 => .rd | _ => .rna

def defaultMode (s : State) : RMode := modeOf (curTask s).rm

/-- Runs a short-vector form where the tile is in short mode; else it raises ILLEGAL_ENCODING (R66, R171). -/
def inShort (s : State) (go : State) : State := if (curTask s).long then xTrap s .illegalEncoding 0#64 else go

/-- Runs a long form where the tile is in long mode; else it raises ILLEGAL_ENCODING (R66, R177). -/
def inLong (s : State) (go : State) : State := if (curTask s).long then go else xTrap s .illegalEncoding 0#64

/-- A short-vector form of two operands. -/
def vector2 (s : State) (f : FXR) (op : Vec → Vec → Vec) : State :=
  inShort s (runX s f.p (.field .vec f.a) (.field .vec f.b) none (roomVector · f.d) fun s1 va vb =>
    writeVector s1 f.d (op va vb))

/-- Applies a scalar rule lane by lane (R172). -/
def lanewise (op : Word → Word → Word) (a b : Vec) : Vec := ofLanes fun i => op (laneOf a i) (laneOf b i)

end Sys2Proof.Machine
end

