-- ==== Sys2Proof/Machine/Flags.lean ====
section
/-! DEFINITION. Predicates of the execute side: comparisons (R163), predicate logic (R164), carries (R161), and the
resolution of guard slots (R55, R166). -/

namespace Sys2Proof.Machine

/-- A comparison of integers by its condition code (R79, R163). -/
def condInt (c : BitVec 3) (x y : Int) : Bool :=
  match c.toNat with
  | 0 => x == y
  | 1 => x != y
  | 2 => x < y
  | 3 => x ≤ y
  | 4 => y < x
  | 5 => y ≤ x
  | _ => false

/-- A comparison of FP32 values: a NaN makes every relation false but `ne` and `un` (R163). -/
def condF32 (c : BitVec 3) (x y : Num) : Bool :=
  let nan := x.isNan || y.isNan
  match c.toNat with
  | 0 => x.eqv y
  | 1 => !(x.eqv y)
  | 2 => x.lt y
  | 3 => x.lt y || x.eqv y
  | 4 => y.lt x
  | 5 => y.lt x || x.eqv y
  | 6 => nan
  | _ => false

/-- A compare (R163): writes a predicate. -/
def compareX (s : State) (f : FXC) (holds : Word → Word → Bool) : State :=
  runX s f.p (.field .scalar f.a) (.field .scalar f.b) none (fun _ => true) fun s1 va vb =>
    setCurTask s1 ((curTask s1).putP f.d (holds (va.setWidth 32) (vb.setWidth 32)))

/-- The bit of a truth table that two predicates select (R164). -/
def truthBit (t : BitVec 4) (a b : Bool) : Bool := t.getLsbD ((if a then 2 else 0) + if b then 1 else 0)

/-- Carry-in of `addc` and `subc`: p7 where M = 1 (R161). -/
def carryIn (s : State) (m : BitVec 1) : Nat := if m == 1#1 && (curTask s).getP 7#3 then 1 else 0

/-- `addc` and `subc`: the sum modulo 2^32, and the carry out into p7 (R161). -/
def carryForm (s : State) (f : FXRM) (sum : Word → Word → Nat → Word × Bool) : State :=
  runX s f.p (.field .scalar f.a) (.field .scalar f.b) none (roomScalar · f.d) fun s1 va vb =>
    let r := sum (va.setWidth 32) (vb.setWidth 32) (carryIn s1 f.m)
    let s2 := setCurTask s1 ((curTask s1).putP 7#3 r.2)
    writeScalar s2 f.d r.1

/-! ## Guard slots -/

/-- The oldest unresolved generation of a slot, by number (R55 item 1). -/
def oldestGen (g : GuardSlot) : Option Nat :=
  let n := g.hist.length
  (upFrom 0 n).foldl (fun best i => if g.hist[i]? == some none then some (g.newest - i) else best) none

/-- Applies a resolution to the guard of every command that a tile holds (R55 items 5 to 7). -/
def resolveHeld (s : State) (t slot gen : Nat) (v : Bool) : State :=
  let tl := tileOf s t
  let acts := tl.task.act
  let fc (c : Cmd) : Cmd := if c.act == acts then { c with guard := c.guard.resolve slot gen v } else c
  let s1 := setTile s t { tl with
    matq := tl.matq.map fc
    chainq := tl.chainq.map fc
    copies := tl.copies.map fun c => { c with cmd := fc c.cmd } }
  let s2 := if v then
      (s1.accs.filter fun a => a.act == acts && a.guard == .bound slot gen).foldl leaveArrival s1
    else s1
  { s2 with
    accs := s2.accs.map fun a => if a.act == acts then { a with guard := a.guard.resolve slot gen v } else a
    net := s2.net.map fun m => if m.act == acts then { m with guard := m.guard.resolve slot gen v } else m }

/-- Commands of the tile that a generation holds: those a false value discards are counted (R334). -/
def heldBySlot (s : State) (t slot gen : Nat) : Nat :=
  let g := Guard.bound slot gen
  let tl := tileOf s t
  (tl.matq.filter (·.guard == g)).length + (tl.chainq.filter (·.guard == g)).length +
    (tl.copies.filter (·.cmd.guard == g)).length + (s.accs.filter fun a => a.act == tl.task.act && a.guard == g).length +
    (s.net.filter fun m => m.act == tl.task.act && m.guard == g).length

/-- Resolves the oldest unresolved generation of a slot of the acting task (R55 item 3, R166). -/
def resolveSlot (s : State) (slot : BitVec 3) (v : Bool) : State :=
  let k := curTask s
  let g := k.gd[slot.toFin]
  match oldestGen g with
  | none => s
  | some gen =>
    let n := heldBySlot s s.cur.tile slot.toNat gen
    let s1 := setCurTask s { k with gd := k.gd.set slot.toFin (g.resolveGen v) }
    let s2 := resolveHeld s1 s.cur.tile slot.toNat gen v
    if v || n == 0 then s2 else countEvent s2 s.cur.tile 0x11 n

end Sys2Proof.Machine
end

