-- ==== Sys2Proof/Machine/Integer.lean ====
section
/-! DEFINITION. Integer, predicate and guard-slot instructions of the execute side (R85, R159-R166). -/

namespace Sys2Proof.Machine

/-- The signed saturation of a sum or difference (R98). -/
def satI32 (z : Int) : Word := BitVec.ofInt 32 (saturate 32 true z)

/-- The unsigned saturation of a sum or difference (R98). -/
def satN32 (z : Int) : Word := BitVec.ofInt 32 (saturate 32 false z)

/-- Signed quotient, truncating; division by zero saturates by the dividend's sign (R98). -/
def quotI32 (a b : Word) : Word :=
  if b == 0#32 then (if a.msb then 0x80000000#32 else 0x7fffffff#32) else BitVec.ofInt 32 (a.toInt.tdiv b.toInt)

/-- Unsigned quotient; division by zero gives all ones (R98). -/
def quotN32 (a b : Word) : Word := if b == 0#32 then 0xffffffff#32 else a.udiv b

/-- Signed remainder, with the dividend's sign; by zero it is the dividend (R98). -/
def restI32 (a b : Word) : Word := if b == 0#32 then a else BitVec.ofInt 32 (a.toInt.tmod b.toInt)

/-- Unsigned remainder; by zero it is the dividend (R98). -/
def restN32 (a b : Word) : Word := if b == 0#32 then a else a.umod b

/-- The shift amount: the operand modulo 32 (R160). -/
def amount (b : Word) : Nat := b.toNat % 32

/-- Rotate left (R160). -/
def rotl (a b : Word) : Word := a.rotateLeft (amount b)

/-- Leading zero bits (R160). -/
def leadingZeros (a : Word) : Word := BitVec.ofNat 32 (32 - bitLen a.toNat)

/-- Trailing zero bits among the low `n` (R160). -/
def trailGo (a : Word) (i : Nat) : Nat → Nat
  | 0 => i
  | n + 1 => if a.getLsbD i then i else trailGo a (i + 1) n

/-- Trailing zero bits; 32 for zero (R160). -/
def trailingZeros (a : Word) : Word := BitVec.ofNat 32 (trailGo a 0 32)

/-- One bits (R160). -/
def onesIn (a : Word) : Word := BitVec.ofNat 32 ((upFrom 0 32).filter fun i => a.getLsbD i).length

/-- Offset, width cut at bit 31, of the bit field that B names; `none` for an empty one (R160). -/
def bitField (b : Word) : Option (Nat × Nat) :=
  let off := (b.toNat % 256) % 64
  let wid := (b.toNat / 256 % 256) % 64
  if wid == 0 || 32 ≤ off then none else some (off, min wid (32 - off))

/-- Extracts a bit field (R160). -/
def extractField (a b : Word) : Word :=
  match bitField b with
  | none => 0#32
  | some (off, w) => (a >>> off) &&& BitVec.ofNat 32 (2 ^ w - 1)

/-- Inserts a bit field into the old value (R160). -/
def insertField (a b c : Word) : Word :=
  match bitField b with
  | none => c
  | some (off, w) =>
    let mask : Word := BitVec.ofNat 32 ((2 ^ w - 1) * 2 ^ off)
    (c &&& ~~~ mask) ||| ((a <<< off) &&& mask)

/-- Sum with carry in, and carry out (R161). -/
def sumCarry (a b : Word) (cin : Nat) : Word × Bool :=
  let t := a.toNat + b.toNat + cin
  (BitVec.ofNat 32 t, 2 ^ 32 ≤ t)

/-- Difference with borrow in, and borrow out (R161). -/
def subBorrow (a b : Word) (cin : Nat) : Word × Bool :=
  let t : Int := (a.toNat : Int) - b.toNat - cin
  (BitVec.ofInt 32 t, t < 0)

/-- `nop` of the X-class map takes its entry and changes nothing (R85). -/
def execNopX (s : State) : Out := .next (xDone s 0)

/-- A hint of the X-class map changes no state (R85). -/
def execHintX (_ : FHintX) (s : State) : Out := .next (xDone s 0)

/-- `gset` resolves the generation its bundle opened to pS or its inverse; a false guard resolves it false (R166). -/
def execGset (f : FXG) (s : State) : Out := .next (
    let k := curTask s
    let v := k.getP f.p && (k.getP f.q != (f.n == 1#1))
    xDone (resolveSlot s f.s v) 0)

/-- `plog` writes a truth-table function of two predicates (R164). -/
def execPlog (f : FXL) (s : State) : Out := .next (
    runX s f.p .absent .absent none (fun _ => true) fun s1 _ _ =>
      let k := curTask s1
      setCurTask s1 (k.putP f.d (truthBit f.t (k.getP f.a) (k.getP f.b))))

/-- `sel` writes A or B by pS, never guarded; both operands are consumed (R165). -/
def execSel (f : FXS) (s : State) : Out := .next (
    runX s 0#3 (.field .scalar f.a) (.field .scalar f.b) none (roomScalar · f.d) fun s1 va vb =>
      writeScalar s1 f.d (if (curTask s1).getP f.s then va.setWidth 32 else vb.setWidth 32))

/-- `add` (Table 11-3). -/
def execAdd (f : FXR) (s : State) : Out := .next (scalar2 s f (fun a b => a + b))

/-- `sub` (Table 11-3). -/
def execSub (f : FXR) (s : State) : Out := .next (scalar2 s f (fun a b => a - b))

/-- `adds.i32` (R98). -/
def execAddsI32 (f : FXR) (s : State) : Out := .next (scalar2 s f (fun a b => satI32 (a.toInt + b.toInt)))

/-- `adds.n32` (R98). -/
def execAddsN32 (f : FXR) (s : State) : Out := .next (scalar2 s f (fun a b => satN32 ((a.toNat : Int) + b.toNat)))

/-- `subs.i32` (R98). -/
def execSubsI32 (f : FXR) (s : State) : Out := .next (scalar2 s f (fun a b => satI32 (a.toInt - b.toInt)))

/-- `subs.n32` (R98). -/
def execSubsN32 (f : FXR) (s : State) : Out := .next (scalar2 s f (fun a b => satN32 ((a.toNat : Int) - b.toNat)))

/-- `mul` (Table 11-3). -/
def execMul (f : FXR) (s : State) : Out := .next (scalar2 s f (fun a b => a * b))

/-- `mulh.i32` (Table 11-3). -/
def execMulhI32 (f : FXR) (s : State) : Out := .next (scalar2 s f (fun a b => BitVec.ofInt 32 (a.toInt * b.toInt / 2 ^ 32)))

/-- `mulh.n32` (Table 11-3). -/
def execMulhN32 (f : FXR) (s : State) : Out := .next (scalar2 s f (fun a b => BitVec.ofNat 32 (a.toNat * b.toNat / 2 ^ 32)))

/-- `div.i32` (R98). -/
def execDivI32 (f : FXR) (s : State) : Out := .next (scalar2 s f quotI32)

/-- `div.n32` (R98). -/
def execDivN32 (f : FXR) (s : State) : Out := .next (scalar2 s f quotN32)

/-- `rem.i32` (R98). -/
def execRemI32 (f : FXR) (s : State) : Out := .next (scalar2 s f restI32)

/-- `rem.n32` (R98). -/
def execRemN32 (f : FXR) (s : State) : Out := .next (scalar2 s f restN32)

/-- `min.i32` (Table 11-3). -/
def execMinI32 (f : FXR) (s : State) : Out := .next (scalar2 s f (fun a b => if a.slt b then a else b))

/-- `min.n32` (Table 11-3). -/
def execMinN32 (f : FXR) (s : State) : Out := .next (scalar2 s f (fun a b => if a.ult b then a else b))

/-- `max.i32` (Table 11-3). -/
def execMaxI32 (f : FXR) (s : State) : Out := .next (scalar2 s f (fun a b => if a.slt b then b else a))

/-- `max.n32` (Table 11-3). -/
def execMaxN32 (f : FXR) (s : State) : Out := .next (scalar2 s f (fun a b => if a.ult b then b else a))

/-- `and` (Table 11-3). -/
def execAnd (f : FXR) (s : State) : Out := .next (scalar2 s f (fun a b => a &&& b))

/-- `or` (Table 11-3). -/
def execOr (f : FXR) (s : State) : Out := .next (scalar2 s f (fun a b => a ||| b))

/-- `xor` (Table 11-3). -/
def execXor (f : FXR) (s : State) : Out := .next (scalar2 s f (fun a b => a ^^^ b))

/-- `andn` (Table 11-3). -/
def execAndn (f : FXR) (s : State) : Out := .next (scalar2 s f (fun a b => a &&& ~~~ b))

/-- `shl` (R160). -/
def execShl (f : FXR) (s : State) : Out := .next (scalar2 s f (fun a b => a <<< amount b))

/-- `shr` (R160). -/
def execShr (f : FXR) (s : State) : Out := .next (scalar2 s f (fun a b => a >>> amount b))

/-- `sra` (R160). -/
def execSra (f : FXR) (s : State) : Out := .next (scalar2 s f (fun a b => a.sshiftRight (amount b)))

/-- `rol` (R160). -/
def execRol (f : FXR) (s : State) : Out := .next (scalar2 s f rotl)

/-- `clz` (R160). -/
def execClz (f : FXR1) (s : State) : Out := .next (scalar1 s f leadingZeros)

/-- `ctz` (R160). -/
def execCtz (f : FXR1) (s : State) : Out := .next (scalar1 s f trailingZeros)

/-- `popc` (R160). -/
def execPopc (f : FXR1) (s : State) : Out := .next (scalar1 s f onesIn)

/-- `bfx` (R160). -/
def execBfx (f : FXR) (s : State) : Out := .next (scalar2 s f extractField)

/-- `bfi` reads its old destination; 0 where that cannot be read (R153, R160). -/
def execBfi (f : FXR) (s : State) : Out := .next (scalarABC s f 0#32 insertField)

/-- `addc` (R161). -/
def execAddc (f : FXRM) (s : State) : Out := .next (carryForm s f sumCarry)

/-- `subc` (R161). -/
def execSubc (f : FXRM) (s : State) : Out := .next (carryForm s f subBorrow)

/-- `addi` (R162). -/
def execAddi (f : FXI) (s : State) : Out := .next (scalarI s f (fun a b => a + b))

/-- `andi` (R162). -/
def execAndi (f : FXI) (s : State) : Out := .next (scalarI s f (fun a b => a &&& b))

/-- `ori` (R162). -/
def execOri (f : FXI) (s : State) : Out := .next (scalarI s f (fun a b => a ||| b))

/-- `xori` (R162). -/
def execXori (f : FXI) (s : State) : Out := .next (scalarI s f (fun a b => a ^^^ b))

/-- `shli` (R162). -/
def execShli (f : FXI) (s : State) : Out := .next (scalarI s f (fun a b => a <<< amount b))

/-- `shri` (R162). -/
def execShri (f : FXI) (s : State) : Out := .next (scalarI s f (fun a b => a >>> amount b))

/-- `srai` (R162). -/
def execSrai (f : FXI) (s : State) : Out := .next (scalarI s f (fun a b => a.sshiftRight (amount b)))

/-- `li` writes the sign-extended IMM7 (R162). -/
def execLi (f : FLi) (s : State) : Out := .next (scalarAB s f.p f.d .absent (.imm (f.i.signExtend 32)) (fun _ b => b))

/-- `cmp` on signed integers (R163). -/
def execCmpI32 (f : FXC) (s : State) : Out := .next (compareX s f (fun a b => condInt f.c a.toInt b.toInt))

/-- `cmp` on unsigned integers (R163). -/
def execCmpN32 (f : FXC) (s : State) : Out := .next (compareX s f (fun a b => condInt f.c a.toNat b.toNat))


end Sys2Proof.Machine
end

