-- ==== Sys2Proof/Machine/Float.lean ====
section
/-! DEFINITION. FP32 arithmetic, special functions and conversions of the execute side (R163, R167-R169). -/

namespace Sys2Proof.Machine

/-- The sign of a non-NaN operand cleared or flipped; a NaN gives the canonical NaN (R167). -/
def signForm (set : Word → Word) (a : Word) : Word := if (f32 a).isNan then f32Nan else set a

/-- The mode of a conversion by its RM field, and the generator after it: RS draws a number, 6 is the default mode (R78,
R99, R101). -/
def convertMode (s : State) (rm : BitVec 3) : RMode × State :=
  let k := curTask s
  if rm == 5#3 then
    let u := lfsrNext k.lfsr
    (.rs u.toNat, setCurTask s { k with lfsr := u })
  else if rm == 6#3 then (defaultMode s, s)
  else (modeOf rm, s)

/-- The lanes of a `vcvt` from lane `i` on, in order, each drawing its own number under RS (R101, R170). -/
def convertLanes (s : State) (rm : BitVec 3) (src : Nat) (a : Vec) (i : Nat) : Nat → List Word × State
  | 0 => ([], s)
  | n + 1 =>
    let m := convertMode s rm
    let r := convertLanes m.2 rm src a (i + 1) n
    (convert src 0 m.1 (laneOf a i) :: r.1, r.2)

/-- `cmp` on FP32 values (R163). -/
def execCmpF32 (f : FXC) (s : State) : Out := .next (compareX s f (fun a b => condF32 f.c (f32 a) (f32 b)))

/-- `add.f32` (Table 11-8). -/
def execAddF32 (f : FXR) (s : State) : Out := .next (scalar2 s f (f32Add (defaultMode s)))

/-- `sub.f32` (Table 11-8). -/
def execSubF32 (f : FXR) (s : State) : Out := .next (scalar2 s f (f32Sub (defaultMode s)))

/-- `mul.f32` (Table 11-8). -/
def execMulF32 (f : FXR) (s : State) : Out := .next (scalar2 s f (f32Mul (defaultMode s)))

/-- `fma.f32`: one rounding; C as R153 gives (Table 11-8). -/
def execFmaF32 (f : FXR) (s : State) : Out := .next (scalarABC s f 0x80000000#32 (f32Fma (defaultMode s) false false))

/-- `fms.f32`: one rounding; C as R153 gives (Table 11-8). -/
def execFmsF32 (f : FXR) (s : State) : Out := .next (scalarABC s f 0#32 (f32Fma (defaultMode s) false true))

/-- `fnma.f32`: one rounding; C as R153 gives (Table 11-8). -/
def execFnmaF32 (f : FXR) (s : State) : Out := .next (scalarABC s f 0x80000000#32 (f32Fma (defaultMode s) true false))

/-- `fnms.f32`: one rounding; C as R153 gives (Table 11-8). -/
def execFnmsF32 (f : FXR) (s : State) : Out := .next (scalarABC s f 0#32 (f32Fma (defaultMode s) true true))

/-- `min.f32` (R97). -/
def execMinF32 (f : FXR) (s : State) : Out := .next (scalar2 s f (f32MinMax false))

/-- `max.f32` (R97). -/
def execMaxF32 (f : FXR) (s : State) : Out := .next (scalar2 s f (f32MinMax true))

/-- `abs.f32` (R167). -/
def execAbsF32 (f : FXR1) (s : State) : Out := .next (scalar1 s f (signForm fun a => a &&& 0x7fffffff#32))

/-- `neg.f32` (R167). -/
def execNegF32 (f : FXR1) (s : State) : Out := .next (scalar1 s f (signForm fun a => a ^^^ 0x80000000#32))

/-- `rcp.f32` (R105, R168). -/
def execRcpF32 (f : FXR1) (s : State) : Out := .next (scalar1 s f (f32Rcp (defaultMode s)))

/-- `sqrt.f32` (R105, R168). -/
def execSqrtF32 (f : FXR1) (s : State) : Out := .next (scalar1 s f (f32Sqrt (defaultMode s)))

/-- `rsq.f32` (R105, R168). -/
def execRsqF32 (f : FXR1) (s : State) : Out := .next (scalar1 s f (f32Rsq (defaultMode s)))

/-- `ex2.f32` (R105, R168). -/
def execEx2F32 (f : FXR1) (s : State) : Out := .next (scalar1 s f (f32Ex2 (defaultMode s)))

/-- `lg2.f32` (R105, R168). -/
def execLg2F32 (f : FXR1) (s : State) : Out := .next (scalar1 s f (f32Lg2 (defaultMode s)))

/-- `tanh.f32` (R105, R168). -/
def execTanhF32 (f : FXR1) (s : State) : Out := .next (scalar1 s f (f32Tanh (defaultMode s)))

/-- `cvt` to the type of the opcode (R169). -/
def execCvt (f : FCvt) (s : State) : Out := .next (
    runX s f.p (.field .scalar f.a) .absent none (roomScalar · f.d) fun s1 va _ =>
      let m := convertMode s1 f.r
      writeScalar m.2 f.d (convert f.s.toNat f.t.toNat m.1 (va.setWidth 32)))


end Sys2Proof.Machine
end

