-- ==== Sys2Proof/Machine/ShortVector.lean ====
section
/-! DEFINITION. Short-vector instructions of the execute side (R170-R175). -/

namespace Sys2Proof.Machine

/-- The fixed tree over 8 lanes (R174). -/
def tree8 (op : Word → Word → Word) (a : Vec) : Word :=
  op (op (op (laneOf a 0) (laneOf a 1)) (op (laneOf a 2) (laneOf a 3)))
    (op (op (laneOf a 4) (laneOf a 5)) (op (laneOf a 6) (laneOf a 7)))

/-- A reduction of the 8 lanes into acc (R174). -/
def reduce8 (s : State) (f : FVred) (op : Word → Word → Word) : State :=
  inShort s (runX s f.p (.field .vec f.a) .absent none (fun _ => true) fun s1 va _ =>
    setCurTask s1 { curTask s1 with acc := op (curTask s1).acc (tree8 op va) })

/-- Replaces one lane. -/
def setLane (v : Vec) (i : Nat) (w : Word) : Vec := ofLanes fun j => if j == i then w else laneOf v j

/-- `vadd.f32` (Table 11-10). -/
def execVaddF32 (f : FXR) (s : State) : Out := .next (vector2 s f (lanewise (f32Add (defaultMode s))))

/-- `vsub.f32` (Table 11-10). -/
def execVsubF32 (f : FXR) (s : State) : Out := .next (vector2 s f (lanewise (f32Sub (defaultMode s))))

/-- `vmul.f32` (Table 11-10). -/
def execVmulF32 (f : FXR) (s : State) : Out := .next (vector2 s f (lanewise (f32Mul (defaultMode s))))

/-- `vfma.f32` reads each lane of its destination as addend (R153, R172). -/
def execVfmaF32 (f : FXR) (s : State) : Out := .next (
    inShort s (runX s f.p (.field .vec f.a) (.field .vec f.b) none (roomVector · f.d) fun s1 va vb =>
      let c := oldVector s1 f.d (broadcast 0x80000000#32)
      writeVector s1 f.d (ofLanes fun i => f32Fma (defaultMode s1) false false (laneOf va i) (laneOf vb i) (laneOf c i))))

/-- `vmin.f32` (Table 11-10). -/
def execVminF32 (f : FXR) (s : State) : Out := .next (vector2 s f (lanewise (f32MinMax false)))

/-- `vmax.f32` (Table 11-10). -/
def execVmaxF32 (f : FXR) (s : State) : Out := .next (vector2 s f (lanewise (f32MinMax true)))

/-- `vadd.i32` (Table 11-10). -/
def execVaddI32 (f : FXR) (s : State) : Out := .next (vector2 s f (lanewise fun a b => a + b))

/-- `vsub.i32` (Table 11-10). -/
def execVsubI32 (f : FXR) (s : State) : Out := .next (vector2 s f (lanewise fun a b => a - b))

/-- `vmul.i32` (Table 11-10). -/
def execVmulI32 (f : FXR) (s : State) : Out := .next (vector2 s f (lanewise fun a b => a * b))

/-- `vand` (Table 11-10). -/
def execVand (f : FXR) (s : State) : Out := .next (vector2 s f (lanewise fun a b => a &&& b))

/-- `vor` (Table 11-10). -/
def execVor (f : FXR) (s : State) : Out := .next (vector2 s f (lanewise fun a b => a ||| b))

/-- `vxor` (Table 11-10). -/
def execVxor (f : FXR) (s : State) : Out := .next (vector2 s f (lanewise fun a b => a ^^^ b))

/-- `vshl` (Table 11-10). -/
def execVshl (f : FXR) (s : State) : Out := .next (vector2 s f (lanewise fun a b => a <<< amount b))

/-- `vshr` (Table 11-10). -/
def execVshr (f : FXR) (s : State) : Out := .next (vector2 s f (lanewise fun a b => a >>> amount b))

/-- `vsra` (Table 11-10). -/
def execVsra (f : FXR) (s : State) : Out := .next (vector2 s f (lanewise fun a b => a.sshiftRight (amount b)))

/-- `vperm` (R173). -/
def execVperm (f : FXR) (s : State) : Out := .next (vector2 s f (fun a b => ofLanes fun i => laneOf a ((laneOf b i).toNat % 8)))

/-- `vbcast` (R173). -/
def execVbcast (f : FXR1) (s : State) : Out := .next (
    inShort s (runX s f.p (.field .vecAcc f.a) .absent none (roomVector · f.d) fun s1 va _ =>
      writeVector s1 f.d (broadcast (laneOf va 0))))

/-- `vext` (R173). -/
def execVext (f : FVext) (s : State) : Out := .next (
    inShort s (runX s f.p (.field .vec f.a) (.field .vec f.b) none (fun _ => true) fun s1 va vb =>
      setCurTask s1 { curTask s1 with acc := laneOf va ((laneOf vb 0).toNat % 8) }))

/-- `vins` (R153, R173). -/
def execVins (f : FXR) (s : State) : Out := .next (
    inShort s (runX s f.p (.field .vecAcc f.a) (.field .vec f.b) none (roomVector · f.d) fun s1 va vb =>
      writeVector s1 f.d (setLane (oldVector s1 f.d 0#256) ((laneOf vb 0).toNat % 8) (laneOf va 0))))

/-- `vred.add.f32` (R174). -/
def execVredAddF32 (f : FVred) (s : State) : Out := .next (reduce8 s f (f32Add (defaultMode s)))

/-- `vred.max.f32` (R174). -/
def execVredMaxF32 (f : FVred) (s : State) : Out := .next (reduce8 s f (f32MinMax true))

/-- `vred.add.i32` (R174). -/
def execVredAddI32 (f : FVred) (s : State) : Out := .next (reduce8 s f (fun a b => a + b))

/-- What the next element of a `vredq.f32` is (R175). -/
inductive Element where
  | waits
  | poisoned (c : Code) (ea : DWord)
  /-- The value to add. -/
  | value (w : Word)
  deriving DecidableEq, Repr

/-- The head of the source of a `vredq.f32`, with the state after it is popped. -/
def nextElement (s : State) (a : BitVec 6) (ring : Bool) (mode : RMode) : Element × State :=
  if ring then
    match (curTile s).ri with
    | w :: r => (.value w, setCurTile s { curTile s with ri := r })
    | [] => (.waits, s)
  else
    let q : BitVec 1 := if a == 48#6 then 0#1 else 1#1
    let k := curTask s
    match k.lq q with
    | e :: _ =>
      let s1 := setCurTask s (k.popLq q)
      match e.fill with
      | .data v => (.value (tree8 (f32Add mode) v), s1)
      | .poisoned c ea => (.poisoned c ea, s1)
      | .waiting _ => (.waits, s)
    | [] => (.waits, s)

/-- One element more is consumed, and added under a true guard (R175). -/
def addElement (s : State) (guard : Bool) (w : Word) : State :=
  let k := curTask s
  setCurTask s { k with redq := k.redq + 1#32, acc := if guard then f32Add (defaultMode s) k.acc w else k.acc }

/-- The elements that are there, up to `fuel` of them: the lq queues hold 8 and ri holds 4 (R51, R61). Under a halt a poisoned
entry stops the instruction with its progress, and the trap follows once the tile goes on (R158, R298). -/
def vredqGo (f : FVredq) (n : Word) : Nat → State → State
  | 0, s => s
  | fuel + 1, s =>
    let k := curTask s
    if !(k.redq.ult n) then xDone (setCurTask s { k with redq := 0#32, taken := [] }) 0
    else
      match nextElement s f.a (f.m == 1#1) (defaultMode s) with
      | (.waits, _) => markWait s s.cur.tile 5
      | (.poisoned c ea, s1) =>
        if haltAllows (curTile s) then xTrap (setCurTask s1 { curTask s1 with redq := k.redq + 1#32, taken := [] }) c ea else s
      | (.value w, s1) => vredqGo f n fuel (addElement s1 (k.getP f.p) w)

/-- `vredq.f32`: pops n elements into acc, counting them in cr.redq; what is missing keeps it waiting with its progress
(R175). -/
def execVredqF32 (f : FVredq) (s : State) : Out := .next (
    inShort s <|
      match takeSources s .absent (.field .vreg f.b) with
      | .waits s1 => s1
      | .trap c ea => xTrap s c ea
      | .got s1 va vb =>
        vredqGo f (laneOf vb 0) 10 (setCurTask s1 { curTask s1 with taken := [va, vb] }))

/-- `vcvt` (R170). -/
def execVcvt (f : FVcvt) (s : State) : Out := .next (
    inShort s (runX s f.p (.field .vec f.a) .absent none (roomVector · f.d) fun s1 va _ =>
      let r := convertLanes s1 f.r f.s.toNat va 0 8
      writeVector r.2 f.d (ofLanes fun i => (r.1[i]?).getD 0#32)))


end Sys2Proof.Machine
end

