-- ==== Sys2Proof/Machine/LongVector.lean ====
section
/-! DEFINITION. Long mode: `vmode`, the long forms, and the quad unit that runs them (R66, R176-R179). -/

namespace Sys2Proof.Machine

/-- Element `j` of a w register (R177). -/
def elemOf (w : BitVec 4096) (j : Nat) : Word := w.extractLsb' (32 * j) 32

/-- A w register from its first `n` elements, above those given. -/
def ofElems (f : Nat → Word) : Nat → Nat
  | 0 => 0
  | n + 1 => ofElems f n + (f n).toNat * 2 ^ (32 * n)

/-- A w register from its 128 elements. -/
def longOf (f : Nat → Word) : BitVec 4096 := BitVec.ofNat 4096 (ofElems f 128)

/-- One level of the tree of `wred`: adjacent results are combined (R177). -/
def treeLevel (op : Word → Word → Word) : List Word → List Word
  | a :: b :: r => op a b :: treeLevel op r
  | r => r

/-- The seven levels of the tree. -/
def treeGo (op : Word → Word → Word) : Nat → List Word → Word
  | 0, l => (l[0]?).getD 0#32
  | n + 1, l => treeGo op n (treeLevel op l)

/-- A reduction of 128 elements (R177). -/
def tree128 (op : Word → Word → Word) (w : BitVec 4096) : Word := treeGo op 7 ((upFrom 0 128).map (elemOf w))

/-- A w register of a task. -/
def Task.getW (t : Task) (n : BitVec 6) : BitVec 4096 := t.w[n.toNat % 8]'(Nat.mod_lt _ (by decide))

/-- Writes a w register of a task. -/
def Task.putW (t : Task) (n : BitVec 6) (v : BitVec 4096) : Task :=
  { t with w := t.w.set (n.toNat % 8) v (Nat.mod_lt _ (by decide)) }

/-- The tile's queue to the quad unit has room: it holds 8 commands (R178). -/
def roomLong (s : State) : Bool := (curTile s).longq.length < 8

/-- Pushes a command to the quad unit with the scalar values it captured (R178). -/
def pushLong (s : State) (x : Instr) (va vb : Vec) : State :=
  let tl := curTile s
  setCurTile s { tl with longq := tl.longq ++ [⟨x, va.setWidth 32, vb.setWidth 32, tl.task.rm⟩] }

/-- A long form that returns nothing: it pushes its command (R178). -/
def longForm (s : State) (pg : BitVec 3) (a b : Operand) (x : Instr) : State :=
  inLong s (runX s pg a b none roomLong fun s1 va vb => pushLong s1 x va vb)

/-- A long form on w registers only. -/
def long3 (s : State) (f : FXR) (x : Instr) : State :=
  longForm s f.p (.field .long f.a) (.field .long f.b) x

/-- `wext` and `wred`: pushes the command, waits for its value, and delivers it (R178). -/
def longValue (s : State) (pg : BitVec 3) (d : BitVec 6) (b : Operand) (x : Instr) : State :=
  inLong s <|
    match takeSources s .absent b with
    | .waits s1 => s1
    | .trap c ea => xTrap s c ea
    | .got s1 va vb =>
      let tl := curTile s1
      let stall := bankStall s .absent b none
      if !(curTask s1).getP pg then xDone s1 stall
      else
        match tl.longWait with
        | .none =>
          let s2 := keepTaken s1 [va, vb]
          if roomLong s2 then
            let s3 := pushLong s2 x va vb
            setCurTile s3 { curTile s3 with longWait := .sent }
          else s2
        | .sent => keepTaken s1 [va, vb]
        | .back w =>
          if roomScalar s1 d then
            let s2 := writeScalar s1 d w
            xDone (setCurTile s2 { curTile s2 with longWait := .none }) stall
          else keepTaken s1 [va, vb]

/-- `vmode`: a change of mode waits for the tile's queue to the quad unit to empty; entry clears w0-w7, leaving loses them
(R66, R176). -/
def execVmode (f : FVmode) (s : State) : Out := .next (
    let k := curTask s
    let long := f.m == 1#1
    if !(k.getP f.p) || long == k.long then xDone s 0
    else if !(curTile s).longq.isEmpty then s
    else xDone (setCurTask s { k with long := long, w := Vector.replicate 8 0#4096 }) 0)

/-- `wadd.f32` (R177). -/
def execWaddF32 (f : FXR) (s : State) : Out := .next (long3 s f (.waddF32 f))

/-- `wsub.f32` (R177). -/
def execWsubF32 (f : FXR) (s : State) : Out := .next (long3 s f (.wsubF32 f))

/-- `wmul.f32` (R177). -/
def execWmulF32 (f : FXR) (s : State) : Out := .next (long3 s f (.wmulF32 f))

/-- `wfma.f32` (R177). -/
def execWfmaF32 (f : FXR) (s : State) : Out := .next (long3 s f (.wfmaF32 f))

/-- `wmin.f32` (R177). -/
def execWminF32 (f : FXR) (s : State) : Out := .next (long3 s f (.wminF32 f))

/-- `wmax.f32` (R177). -/
def execWmaxF32 (f : FXR) (s : State) : Out := .next (long3 s f (.wmaxF32 f))

/-- `wbcast.f32` (R177). -/
def execWbcastF32 (f : FXR1) (s : State) : Out := .next (longForm s f.p (.field .scalar f.a) .absent (.wbcastF32 f))

/-- `wins` (R177). -/
def execWins (f : FXR) (s : State) : Out := .next (longForm s f.p (.field .scalar f.a) (.field .scalar f.b) (.wins f))

/-- `wext` (R177, R178). -/
def execWext (f : FXR) (s : State) : Out := .next (longValue s f.p f.d (.field .scalar f.b) (.wext f))

/-- `wred.add.f32` (R177, R178). -/
def execWredAddF32 (f : FXR1) (s : State) : Out := .next (longValue s f.p f.d .absent (.wredAddF32 f))

/-- `wred.max.f32` (R177, R178). -/
def execWredMaxF32 (f : FXR1) (s : State) : Out := .next (longValue s f.p f.d .absent (.wredMaxF32 f))

/-- Applies a rule element by element and writes a w register. -/
def longWrite (k : Task) (d : BitVec 6) (f : Nat → Word) : Task := k.putW d (longOf f)

/-- What the quad unit does with one long command: w registers, and the value it returns (R177). -/
def runLong (k : Task) (c : LongCmd) : Task × Option Word :=
  let m := modeOf c.rm
  let two (f : FXR) (op : Word → Word → Word) : Task × Option Word :=
    (longWrite k f.d fun j => op (elemOf (k.getW f.a) j) (elemOf (k.getW f.b) j), none)
  match c.x with
  | .waddF32 f => two f (f32Add m)
  | .wsubF32 f => two f (f32Sub m)
  | .wmulF32 f => two f (f32Mul m)
  | .wfmaF32 f =>
    (longWrite k f.d fun j => f32Fma m false false (elemOf (k.getW f.a) j) (elemOf (k.getW f.b) j) (elemOf (k.getW f.d) j), none)
  | .wminF32 f => two f (f32MinMax false)
  | .wmaxF32 f => two f (f32MinMax true)
  | .wbcastF32 f => (longWrite k f.d fun _ => c.a, none)
  | .wins f => (longWrite k f.d fun j => if j == c.b.toNat % 128 then c.a else elemOf (k.getW f.d) j, none)
  | .wext f => (k, some (elemOf (k.getW f.a) (c.b.toNat % 128)))
  | .wredAddF32 f => (k, some (tree128 (f32Add m) (k.getW f.a)))
  | .wredMaxF32 f => (k, some (tree128 (f32MinMax true) (k.getW f.a)))
  | _ => (k, none)

/-- The quad unit runs the oldest long command of a tile (R177, R178). -/
def runLongHead (s : State) (t : Nat) : State :=
  let tl := tileOf s t
  match tl.longq with
  | [] => s
  | c :: r =>
    let v := runLong tl.task c
    setTile s t { tl with
      longq := r
      task := v.1
      longWait := match v.2 with
        | some w => .back w
        | none => tl.longWait }


end Sys2Proof.Machine
end

