-- ==== Sys2Proof/Machine/Matrix.lean ====
section
/-! DEFINITION. Descriptors, the matrix array, bl and the Ringway, power tokens (R180-R196). -/

namespace Sys2Proof.Machine

/-! ## Issue of engine commands (R180, R186) -/

/-- An entry of the tensor-identifier table. -/
def entryAt (s : State) (n : BitVec 6) : TEntry := (curTile s).tt[n.toFin]

def TEntry.isPending : TEntry → Bool
  | .pending _ => true
  | _ => false

/-- The first poisoned entry among those named. -/
def firstPoisoned (s : State) : List (BitVec 6) → Option (Code × DWord)
  | [] => none
  | n :: r =>
    match entryAt s n with
    | .poisoned c ea => some (c, ea)
    | _ => firstPoisoned s r

/-- The descriptor of a valid entry. -/
def descAt (s : State) (n : BitVec 6) : Desc :=
  match entryAt s n with
  | .valid d => d
  | _ => ⟨1, 1, 0, 0, .sp, 0, 4, 0⟩

/-- The first two rows of Table 13-4, after the waits of R180. -/
def entryGate (s : State) (ts : List (BitVec 6)) : Option State :=
  if ts.any fun n => (entryAt s n).isPending then some (holdBundle s)
  else if ts.any fun n => entryAt s n == .invalid then some (preciseTrap s .tensorUndefined 0#64 0#64)
  else (firstPoisoned s ts).map fun p => preciseTrap s p.1 p.2 0#64

/-- Everything that keeps a command from issuing: registers, acquires, guards, and the entries it names. -/
def commandGate (s : State) (g : BitVec 3) (reads : List (BitVec 4)) (ts : List (BitVec 6)) : Option State :=
  (issueGate s g reads []).orElse fun _ => entryGate s ts

/-- The command as captured at issue (R180). -/
def newCmd (s : State) (g : BitVec 3) (body : Instr) (descs : List Desc) (regs : List DWord) : Cmd :=
  { id := s.nextId, issued := s.nextId, act := (curTask s).act, gtid := (curTask s).gtid, pc := s.cur.pc, guard := bindGuard s g, body, descs,
    regs }

/-- COMMAND_INVALID at the bundle (Table 13-4). -/
def invalidCommand (s : State) : State := preciseTrap s .commandInvalid 0#64 0#64

/-- Pushes a command into the matrix array's queue of 16 (R180). -/
def pushMatrix (s : State) (c : Cmd) : State :=
  let tl := curTile s
  if 16 ≤ tl.matq.length then waitBundle s
  else if c.guard == .discarded then finish s
  else finish (setCurTile { s with nextId := s.nextId + 1 } { tl with matq := tl.matq ++ [c] })

/-- The low word of a register. -/
def lowWord (s : State) (n : BitVec 4) : Word := (rdA s n).setWidth 32

/-- k register `n` of the task. -/
def kReg (s : State) (n : Nat) : Word := (curTask s).k[n % 4]'(Nat.mod_lt _ (by decide))

/-! ## Descriptors (R184, R185) -/

/-- Drops the KIND 10 entries that the running task logged for entry `n` (R184). -/
def clearPoison (s : State) (n : Nat) : State :=
  let tl := curTile s
  setCurTile s { tl with replay := tl.replay.filter fun e => !(e.kind == 10#8 && e.slot == n && e.gtid == tl.task.gtid) }

def setEntry (s : State) (n : BitVec 6) (v : TEntry) : State :=
  let tl := curTile s
  setCurTile s { tl with tt := tl.tt.set n.toFin v }

/-- `tdef`: the entry is pending until its descriptor arrives (R184). -/
def execTdef (f : FTdef) (s : State) : Out :=
  .next <|
    let b : BitVec 4 := f.b.setWidth 4
    match issueGate s 0#3 [b] [] with
    | some s' => s'
    | none =>
      let ea := rdA s b
      if misaligned ea 32 then preciseTrap s .align ea 0#64
      else if (entryAt s f.n).isPending then holdBundle s
      else
        let s1 := setEntry (clearPoison s f.n.toNat) f.n (.pending s.nextId)
        finish (addAccess s1 { newAccess s1 .tdef (spaceOf f.s.toNat) ea 32 with dest := .tensor f.n })

/-- `tinv`: the entry becomes invalid, after any pending `tdef` of it (R185). -/
def execTinv (f : FTinv) (s : State) : Out :=
  .next <| match orderGate s with
    | some s' => s'
    | none =>
      if (entryAt s f.n).isPending then holdBundle s
      else finish (setEntry (clearPoison s f.n.toNat) f.n .invalid)

/-- `tinv.all`: every entry becomes invalid (R185). -/
def execTinvAll (s : State) : Out :=
  .next <| match orderGate s with
    | some s' => s'
    | none =>
      if (curTile s).tt.toList.any (·.isPending) then holdBundle s
      else
        let s1 := (upFrom 0 64).foldl clearPoison s
        finish (setCurTile s1 { curTile s1 with tt := Vector.replicate 64 .invalid })

/-! ## Matrix commands at issue -/

/-- `mmz` (R189). -/
def execMmz (f : FMmz) (s : State) : Out :=
  .next <| match commandGate s f.g [] [] with
    | some s' => s'
    | none => pushMatrix s (newCmd s f.g (.mmz f) [] [])

/-- The checks of an `mma` on its operands (Table 13-4): the trap, if any. -/
def mmaInvalid (a b : Desc) : Bool := a.space != .sp || b.space != .sp || (pairShape a.format b.format).isNone

/-- K of a pair that R114 allows; 1 where it does not, so that only the pair's own check fails. -/
def pairK (a b : Desc) : Nat := ((pairShape a.format b.format).map (·.1)).getD 1

/-- `mma` (R186, R190). -/
def execMma (f : FMma) (s : State) : Out :=
  .next <| match commandGate s f.g [f.k] [f.a, f.b] with
    | some s' => s'
    | none =>
      let a := descAt s f.a
      let b := descAt s f.b
      let k := lowWord s f.k
      if k.toNat % pairK a b != 0 then preciseTrap s .align (k.setWidth 64) 0#64
      else if mmaInvalid a b then invalidCommand s
      else pushMatrix s (newCmd s f.g (.mma f) [a, b] [k.setWidth 64])

/-- `mma.bl` (R190, R191): the pair's B is known only when the slab is read. -/
def execMmaBl (f : FMmaBl) (s : State) : Out :=
  .next <| match commandGate s f.g [] [f.a] with
    | some s' => s'
    | none =>
      let a := descAt s f.a
      if a.space != .sp then invalidCommand s else pushMatrix s (newCmd s f.g (.mmaBl f) [a] [])

/-- `mma.r` (R192). -/
def execMmaR (f : FMmaR) (s : State) : Out :=
  .next <| match commandGate s f.g [] [f.a] with
    | some s' => s'
    | none =>
      let a := descAt s f.a
      if a.space != .sp then invalidCommand s else pushMatrix s (newCmd s f.g (.mmaR f) [a] [])

/-- `mld` (R186, R189). -/
def execMld (f : FMld) (s : State) : Out :=
  .next <| match commandGate s f.g [] [f.s] with
    | some s' => s'
    | none =>
      let d := descAt s f.s
      if d.space != .sp || d.format != 0 then invalidCommand s else pushMatrix s (newCmd s f.g (.mld f) [d] [])

/-- The depth that a depth code names (R191, Table 13-1). -/
def blDepth (code : Nat) (d : Desc) : Nat :=
  match code with
  | 0 => (fmt d.format).slabK
  | 1 => 16
  | 2 => 32
  | _ => 64

/-- `mld.bl` (R186, R191). -/
def execMldBl (f : FMldBl) (s : State) : Out :=
  .next <|
    let r : BitVec 4 := f.k.setWidth 4
    match commandGate s f.g [r] [f.b] with
    | some s' => s'
    | none =>
      let d := descAt s f.b
      let k := lowWord s r
      let depth := blDepth f.p.toNat d
      if k.toNat % depth != 0 then preciseTrap s .align (k.setWidth 64) 0#64
      else if d.space != .sp || fp32Class d.format || (fmt d.format).slabK < depth then invalidCommand s
      else pushMatrix s (newCmd s f.g (.mldBl f) [d] [k.setWidth 64])

/-- Formats with A4 blocks. -/
def isA4 (format : Nat) : Bool := format == 0x14 || format == 0x15

/-- `mst`: the scale factor, the generator and the mode are captured at issue; under RS the task's generator advances once
(R193), also where a guard that is not yet resolved then discards the command, and not where it is discarded at issue (log 97). -/
def execMst (f : FMst) (s : State) : Out :=
  .next <| match commandGate s f.g [] [f.d] with
    | some s' => s'
    | none =>
      let d := descAt s f.d
      if inputOnly d.format || (f.t != 0#2 && !isA4 d.format) then invalidCommand s
      else
        let k := curTask s
        let rm := if f.r == 6#3 then k.rm else f.r
        let c := newCmd s f.g (.mst f) [d] [k.k[2].setWidth 64, k.lfsr.setWidth 64, rm.setWidth 64]
        let full := 16 ≤ (curTile s).matq.length
        let s1 := if f.r == 5#3 && !full && c.guard != .discarded then setCurTask s { k with lfsr := lfsrNext k.lfsr } else s
        pushMatrix s1 c

/-! ## Slabs in bl (R191) -/

/-- The bytes of 32 rows as bl keeps them: 32 bytes of elements and 4 of scales for each row, and the tensor scale. -/
def slabMem (rows : List RawRow) (head : Nat) : Mem :=
  let put (m : Mem) (p : Nat × RawRow) : Mem :=
    memWrite (memWrite m (32 * p.1) p.2.el) (1024 + 4 * p.1) p.2.sc
  memWrite (((upFrom 0 rows.length).zip rows).foldl put []) 1152 (leBytes head 4)

/-- A row of a slab in bl, as it was read. -/
def slabRow (b : Slab) (i : Nat) : RawRow := ⟨memRead b.bytes (32 * i) 32, memRead b.bytes (1024 + 4 * i) 4⟩

/-- The ring buffer's slab moves into bl when bl is empty (R192 item 4). -/
def refill (k : Task) : Task :=
  match k.bl, k.ring with
  | none, some b => { k with bl := some b, ring := none }
  | _, _ => k

/-! ## Power tokens (R194) -/

/-- The instruction is one of the `mma` forms. -/
def isMma (i : Instr) : Bool :=
  match i with
  | .mma _ | .mmaBl _ | .mmaR _ => true
  | _ => false

/-- A tile's array has an `mma` at the head of its queue that no guard holds; an array whose halt is complete starts none (R196). -/
def mmaAtHead (s : State) (t : Nat) : Bool :=
  (tileOf s t).halt != .preempt true &&
    match (tileOf s t).matq with
    | c :: _ => isMma c.body && c.guard == .free
    | [] => false

/-- The tokens a burst of a cluster needs: 4 while a quad that runs `mma` has f0 or f1, else 3 (R194). -/
def burstNeed (s : State) (c : Nat) : Nat :=
  if (upFrom (64 * c) 64).any fun q => (quadAt s q).fid ≤ 1 && (upFrom 0 4).any fun i => mmaAtHead s (tileAt q i) then 4
  else 3

/-- A cluster that has the tokens runs its burst; otherwise it files its claim with its clk (R194, R278). -/
def tokensHeld (s : State) (c : Nat) : Bool × State :=
  let cl := clusterAt s c
  if burstNeed s c ≤ cl.tokens then
    (true, setCluster s c { cl with burst := true, ran := s.clk, claim := if cl.burst then cl.claim else none })
  else (false, if cl.claim.isSome then s else setCluster s c { cl with claim := some s.clk })

/-! ## What the array does with the head of its queue -/

/-- The command leaves the head of the queue. -/
def popMatrix (s : State) (t : Nat) : State :=
  let tl := tileOf s t
  setTile s t { tl with matq := tl.matq.drop 1 }

def setAcc (k : Task) (d : Nat) (m : SMap Word) : Task := { k with m := k.m.set (d % 4) m (Nat.mod_lt _ (by decide)) }
def accOf (k : Task) (d : Nat) : SMap Word := k.m[d % 4]'(Nat.mod_lt _ (by decide))

/-- The element is a finite one and not zero. -/
def Elem.live (x : Elem) : Bool :=
  match x.v with
  | .fin _ m _ => m != 0
  | _ => false

/-- The products of a slab for which the array computes columns: those of two elements that are not zero (R120). -/
def liveProducts (k : Nat) (a b : List (List Elem)) : Nat :=
  let at_ (rows : List (List Elem)) (j : Nat) : Nat := (rows.filter fun r => ((r[j]?).map Elem.live).getD false).length
  ((upFrom 0 k).map fun j => at_ a j * at_ b j).sum

/-- Detections of one slab, of whose `products` products `live` compute columns: at f1 a detection replays the slab, which is then
exact; at f2 it is only counted (R119, R120). -/
def detect (s : State) (t fid c products live : Nat) : State × Slices :=
  if (fid == 1 || fid == 2) && c != 0 then
    let n := min live (Config.detections s.freeIdx)
    let s0 := { s with freeIdx := s.freeIdx + 1 + products }
    let site := siteOf s (clusterOf t)
    let s1 := if n == 0 then s0
      else if fid == 1 then bumpLife (bumpLife s0 (.det site) 1) (.rep site) 1
      else bumpLife s0 (.det site) n
    let tl := tileOf s1 t
    if fid == 1 then
      if n == 0 then (s1, ⟨1, true, s.freeIdx + 1⟩)
      else (countEvent (setTile s1 t { tl with det := satAdd tl.det 1, rep := satAdd tl.rep 1 }) t 0x0e 1, ⟨1, false, 0⟩)
    else (countEvent (setTile s1 t { tl with det := satAdd tl.det n }) t 0x0e n, ⟨2, true, s.freeIdx + 1⟩)
  else (s, ⟨fid, false, 0⟩)

/-- The passes of a pair: one, or six of part-products in the order of R112. -/
def passesOf (fp32 : Bool) : List (Option (Nat × Nat)) :=
  if fp32 then [some (2, 0), some (1, 1), some (0, 2), some (1, 0), some (0, 1), some (0, 0)] else [none]

/-- The elements of 32 rows for one pass. -/
def passRows (d : Desc) (rows : List RawRow) (head k0 k : Nat) (part : Option Nat) : List (List Elem) :=
  ((upFrom 0 rows.length).zip rows).map fun p => (upFrom 0 k).map fun j =>
    match part with
    | none => elemOfRow d p.2 head p.1 k0 j
    | some n => partOfRow d p.2 p.1 k0 n j

/-- Adds a k-slab of A x B to accumulator `d` (R112, R115, R190). -/
def runSlab (s : State) (t d : Nat) (a b : Desc) (ra rb : List RawRow) (ha hb k0 k c : Nat) : State :=
  (passesOf (fp32Class a.format)).foldl (fun s p =>
    let xa := passRows a ra ha k0 k (p.map (·.1))
    let xb := passRows b rb hb k0 k (p.map (·.2))
    let dt := detect s t (quadAt s (quadOf t)).fid c (1024 * k) (liveProducts k xa xb)
    let tl := tileOf dt.1 t
    let m := slabPass dt.2 c xa xb (accOf tl.task d)
    setTile dt.1 t { tl with task := setAcc tl.task d m }) s

/-- The `mma` form with operands in memory. -/
def runMma (s : State) (t : Nat) (cmd : Cmd) (f : FMma) (a b : Desc) : State :=
  let tk := tokensHeld s (clusterOf t)
  if !tk.1 then markWait tk.2 t 8
  else
    let k0 := ((cmd.regs[0]?).getD 0#64).toNat % 2 ^ 32
    let (k, c) := (pairShape a.format b.format).getD (1, 0)
    let e0 := engHead (engStart tk.2 t cmd) a
    let e1 := engHead e0.2 b
    let ra := engRows e1.2 a k0 k 32
    let rb := engRows ra.2 b k0 k 32
    if engHolds rb.2 then s
    else
      let s1 := runSlab rb.2.s t f.d.toNat a b ra.1 rb.1 e0.1 e1.1 k0 k c
      popMatrix (engFinish { rb.2 with s := countEvent s1 t 7 1 }) t

/-- The Ringway successor of `mma.r` with log2 L (R192). -/
def ringwayNext (t l : Nat) : Nat :=
  let n := 2 ^ l
  let x := tileX t
  tileY t * 256 + (x / n * n + (x + 1) % n)

/-- The forward of the `mma.r` at the head cannot start: its successor's buffer is full or no task runs there, or its failure cannot
be logged (R135, R192). -/
def forwardWaits (s : State) (t : Nat) : Bool :=
  match (tileOf s t).forwarding, (tileOf s t).matq with
  | some (_, u), c :: _ =>
    if !sameCohort s t u then taskStopped s t c || 256 ≤ (tileOf s t).replay.length
    else (tileOf s u).run == .idle || (tileOf s u).ringNet.isSome || (tileOf s u).task.ring.isSome
  | _, _ => false

/-- Sends the slab that an `mma.r` has read, once its successor's buffer is empty and a task runs there; the array starts
nothing meanwhile (R192). -/
def forwardSlab (s : State) (t : Nat) (cmd : Cmd) (b : Slab) (u : Nat) : State :=
  let done (s : State) : State := popMatrix (setTile s t { tileOf s t with forwarding := none }) t
  if forwardWaits s t then s
  else if !sameCohort s t u then done (failCommand s t cmd 0x02#8)
  else done (setTile s u { tileOf s u with ringNet := some b })

/-- The slab leaves bl, which takes the ring buffer's slab (R190, R191). -/
def takeBl (s : State) (t : Nat) : State :=
  let tl := tileOf s t
  setTile s t { tl with task := refill { tl.task with bl := none } }

/-- A bl form: it waits for a slab, fails on a wrong depth before any token wait, and otherwise runs; `next` is the
Ringway successor of `mma.r` (R190-R192). -/
def runMmaBl (s : State) (t : Nat) (cmd : Cmd) (d : Nat) (a : Desc) (next : Option Nat) : State :=
  match (tileOf s t).task.bl with
  | none => s
  | some b =>
    match pairShape a.format b.desc.format with
    | some (k, c) =>
      if b.depth != k then
        if taskStopped s t cmd || 256 ≤ (tileOf s t).replay.length then s
        else popMatrix (failCommand (takeBl s t) t cmd 0x01#8) t
      else
        let tk := tokensHeld s (clusterOf t)
        if !tk.1 then markWait tk.2 t 8
        else
          let e0 := engHead (engStart tk.2 t cmd) a
          let ra := engRows e0.2 a b.k0 k 32
          if engHolds ra.2 then s
          else
            let rb := (upFrom 0 32).map (slabRow b)
            let s1 := runSlab ra.2.s t d a b.desc ra.1 rb e0.1 (leNat (memRead b.bytes 1152 4)) b.k0 k c
            let s2 := takeBl (engFinish { ra.2 with s := countEvent s1 t 7 1 }) t
            match next with
            | none => popMatrix s2 t
            | some u => setTile s2 t { tileOf s2 t with forwarding := some (b, u) }
    | none =>
      if taskStopped s t cmd || 256 ≤ (tileOf s t).replay.length then s
      else popMatrix (failCommand (takeBl s t) t cmd 0x01#8) t

/-- `mld` reads an FP32 image (R189). -/
def runMld (s : State) (t : Nat) (cmd : Cmd) (d : Nat) (a : Desc) : State :=
  let r := engRows (engStart s t cmd) a 0 32 32
  if engHolds r.2 then s
  else
    let w (k : Nat) : Word :=
      let i := k / 32
      let j := k % 32
      if a.rows ≤ i || a.cols ≤ j then 0#32 else BitVec.ofNat 32 (codeAt 32 (((r.1[i]?).getD ⟨[], []⟩).el) j)
    let m := ((upFrom 0 1024).map fun k => (k, w k)).filter fun e => e.2 != 0#32
    let tl := tileOf r.2.s t
    popMatrix (engFinish { r.2 with s := setTile r.2.s t { tl with task := setAcc tl.task d m } }) t

/-- `mld.bl` waits for bl to be empty and latches a slab (R191). -/
def runMldBl (s : State) (t : Nat) (cmd : Cmd) (depth : Nat) (b : Desc) : State :=
  if (tileOf s t).task.bl.isSome then s
  else
    let k0 := ((cmd.regs[0]?).getD 0#64).toNat % 2 ^ 32
    let e0 := engHead (engStart s t cmd) b
    let r := engRows e0.2 b k0 depth 32
    if engHolds r.2 then s
    else
      let tl := tileOf r.2.s t
      let slab : Slab := ⟨b, k0, depth, slabMem r.1 e0.1⟩
      popMatrix (engFinish { r.2 with s := setTile r.2.s t { tl with task := { tl.task with bl := some slab } } }) t

/-- The rounding mode of a command's captured mode code. -/
def commandMode (rm : Nat) : RMode := if rm == 5 then .rs 0 else modeOf (BitVec.ofNat 3 rm)

/-- The rows that an `mst` writes, the captured generator running through them (R193). -/
def mstRows (e : Eng) (m : SMap Word) (d : Desc) (f : FMst) (scale : Num) (rm : Nat) : Nat → Nat → Word → Eng
  | 0, _, _ => e
  | n + 1, i, g =>
    let cols := min 32 d.cols
    let md := rowModes (commandMode rm) (rm == 5) cols g
    let xs := (upFrom 0 cols).map fun j =>
      let x := f32 (smGet 0#32 (32 * i + j) m)
      if f.c == 1#1 then x.mul scale else x
    mstRows (engPutRow e d f.t.toNat i (xs.zip md.1)) m d f scale rm n (i + 1) md.2

/-- `mst` converts and writes an accumulator (R193). -/
def runMst (s : State) (t : Nat) (cmd : Cmd) (f : FMst) (d : Desc) : State :=
  let reg (n : Nat) : Nat := ((cmd.regs[n]?).getD 0#64).toNat
  let e := mstRows (engStart s t cmd) (accOf (tileOf s t).task f.s.toNat) d f (decodeF fF32 (reg 0 % 2 ^ 32)) (reg 2)
    (min 32 d.rows) 0 (BitVec.ofNat 32 (reg 1))
  if engHolds e then s
  else
    match engAwaitsHost (engStart s t cmd) d with
    | some line => askBack s line
    | none => popMatrix (engFinish e) t

/-- What the array does with the command at the head of a tile's queue. -/
def runMatrix (s : State) (t : Nat) (c : Cmd) : State :=
  match c.body, c.descs with
  | .mmz f, _ =>
    let tl := tileOf s t
    popMatrix (setTile s t { tl with task := setAcc tl.task f.d.toNat [] }) t
  | .mma f, [a, b] => runMma s t c f a b
  | .mmaBl f, [a] => runMmaBl s t c f.d.toNat a none
  | .mmaR f, [a] => runMmaBl s t c f.d.toNat a (some (ringwayNext t f.l.toNat))
  | .mld f, [a] => runMld s t c f.d.toNat a
  | .mldBl f, [b] => runMldBl s t c (blDepth f.p.toNat b) b
  | .mst f, [d] => runMst s t c f d
  | _, _ => popMatrix s t

/-- MATRIX_COMMAND_COMPLETE: the array carries out the command at the head of its queue, or waits (R188-R194); on a tile whose halt
is complete it starts none (R196). -/
def execMatrixCommandComplete (t : Nat) (s0 : State) : Out :=
  .next <|
    let s := clearWaits s0 t [8]
    let tl := tileOf s t
    if tl.halt == .preempt true then s else
    match tl.matq with
    | [] => s
    | c :: _ =>
      match tl.forwarding with
      | some (b, u) => forwardSlab s t c b u
      | none =>
        match c.guard with
        | .bound .. => s
        | .discarded => popMatrix s t
        | .free => if pushSeen s t c then runMatrix s t c else s

/-- RINGWAY_FORWARD_LANDING: a slab lands in the ring buffer, and enters bl when that is empty (R192). -/
def execRingwayForwardLanding (t : Nat) (s : State) : Out :=
  .next <|
    let tl := tileOf s t
    match tl.ringNet with
    | none => s
    | some b =>
      if tl.task.ring.isSome then s
      else
        let k := { tl.task with ring := some b }
        setTile s t { tl with ringNet := none, task := if tl.run == .idle then k else refill k }

/-- An array of the cluster has an `mma` at the head of its queue. -/
def mmaWaits (s : State) (c : Nat) : Bool := (upFrom (64 * c) 64).any fun q => (upFrom 0 4).any fun i => mmaAtHead s (tileAt q i)

/-- A cluster's tokens return to the die's ring, all at once, and its claim ends (R278). -/
def freeTokens (s : State) (c : Nat) : State :=
  let cl := clusterAt s c
  let d := dieAt s (dieOfCluster c)
  setDie (setCluster s c { cl with burst := false, tokens := 0, claim := none }) (dieOfCluster c)
    { d with tokens := d.tokens + cl.tokens }

/-- BURST_END: once no array of the cluster has run an `mma` for 2 µs, its tokens return to the die's ring; so do those that it has
gathered for a claim which no `mma` waits for any more (R194, R278). -/
def execBurstEnd (c : Nat) (s : State) : Out :=
  .next <|
    let cl := clusterAt s c
    if if cl.burst then cl.ran + 2 * clkPerUs ≤ s.clk else !mmaWaits s c then freeTokens s c else s

/-- The oldest claim among the clusters of a die, in the order the ring visits them (R278). -/
def oldestClaim (s : State) (die : Nat) : Option Nat :=
  let order := match clustersOfDie die with
    | [a, b, c, d] => [a, b, d, c]
    | l => l
  (order.foldl (fun (best : Option (Nat × Nat)) c =>
    match (clusterAt s c).claim with
    | none => best
    | some k =>
      match best with
      | some (k', _) => if k < k' then some (k, c) else best
      | none => some (k, c)) none).map (·.2)

/-- TOKEN_CIRCULATION: the free tokens of a die go to its oldest claim, up to what its burst needs (R278). -/
def execTokenCirculation (die : Nat) (s : State) : Out :=
  .next <| match oldestClaim s die with
    | none => s
    | some c =>
      let cl := clusterAt s c
      let d := dieAt s die
      let n := min d.tokens (burstNeed s c - cl.tokens)
      let have' := cl.tokens + n
      setDie (setCluster s c { cl with tokens := have', claim := if burstNeed s c ≤ have' then none else cl.claim }) die
        { d with tokens := d.tokens - n }

end Sys2Proof.Machine
end

