-- ==== Sys2Proof/Machine/Copies.lean ====
section
/-! DEFINITION. The stream engine: copies, multicasts, follow-ons, weight streams and drains (R197-R205, R226, R317). -/

namespace Sys2Proof.Machine

/-! ## Ranges, charges and overlap (R197-R200) -/

/-- The path of a destination: a pr tensor of the issuing tile counts as sp (R136, R197). -/
def pathOf (t : Nat) (d : Desc) : Space := if d.space == .pr && descTile d == t then .sp else d.space

/-- A space with the memory it names, so that two ranges can be compared: a tile's scratchpad, the quad's memory, gl. -/
def memoryOf (t : Nat) (d : Desc) : Space × Nat :=
  match d.space with
  | .sp => (.sp, t)
  | .pr => (.sp, descTile d)
  | x => (x, 0)

/-- Ranges with pr addresses reduced to scratchpad offsets. -/
def offsets (d : Desc) (rs : List (Nat × Nat)) : List (Nat × Nat) :=
  if d.space == .pr then rs.map fun r => (r.1 % 2 ^ 32, r.2) else rs

/-- Two lists of ranges share a byte. -/
def rangesShare (a b : List (Nat × Nat)) : Bool := a.any fun x => b.any fun y => rangesMeet x.1 x.2 y.1 y.2

/-- A source and a destination lie in one memory and share a byte (R200). -/
def overlaps (t : Nat) (src : Desc) (srs : List (Nat × Nat)) (dst : Desc) (dm : List (Space × Nat)) : Bool :=
  dm.contains (memoryOf t src) && rangesShare (offsets src srs) (offsets dst (tensorRanges dst))

/-- Bytes of every range. -/
def totalBytes (rs : List (Nat × Nat)) : Nat := rs.foldl (fun n r => n + r.2) 0

/-- The bytes that a copy into a tensor can write (R199). -/
def chargeOf (d : Desc) : Nat := totalBytes (tensorRanges d)

/-- The bytes of the first `n` indices of an index tensor (R198). -/
def indexRanges (d : Desc) (n : Nat) : List (Nat × Nat) := [(rowAddr d 0, 2 * n)]

/-! ## Copies at issue -/

/-- Copies and subscriptions of a tile that are in flight (R180, R197). -/
def copiesInFlight (tl : Tile) : Nat := (tl.copies.filter fun c => !c.landed && c.cmd.guard != .discarded).length

/-- Pushes a copy: a charge is added to the barrier that k3 names at issue (R180, R197, R199). -/
def pushCopy (s : State) (c : Cmd) (charged : BitVec 1) (bytes : Nat) (follow : Option Cmd) : State :=
  let t := s.cur.tile
  if 1024 ≤ copiesInFlight (curTile s) then waitBundle s
  else if c.guard == .discarded then finish s
  else
    let bar := (kReg s 3).toNat % 32
    let s1 := if charged == 1#1 then addPend s t bar (BitVec.ofNat 56 bytes) else s
    let tl := tileOf s1 t
    let e : Copy := ⟨c, if charged == 1#1 then some bar else none, bytes, 0, [], [], follow, false⟩
    finish (setTile { s1 with nextId := s1.nextId + 1 } t { tl with copies := tl.copies ++ [e] })

/-- `cpy` (R198). -/
def execCpy (f : FCpy) (s : State) : Out :=
  .next <| match commandGate s f.g [] [f.d, f.s] with
    | some s' => s'
    | none =>
      let t := s.cur.tile
      let d := descAt s f.d
      let r := descAt s f.s
      if d.format != r.format || d.rows != r.rows || d.cols != r.cols || overlaps t r (tensorRanges r) d [memoryOf t d] then
        invalidCommand s
      else pushCopy s (newCmd s f.g (.cpy f) [d, r] []) f.c (chargeOf d) none

/-- `cpy.t` moves elements stored in 8, 16 or 32 bits without blocks (R198). -/
def transposable (format : Nat) : Bool :=
  let f := fmt format
  f.scale == .none && (f.bits == 8 || f.bits == 16 || f.bits == 32)

/-- `cpy.t` (R198). -/
def execCpyT (f : FCpy) (s : State) : Out :=
  .next <| match commandGate s f.g [] [f.d, f.s] with
    | some s' => s'
    | none =>
      let t := s.cur.tile
      let d := descAt s f.d
      let r := descAt s f.s
      if d.format != r.format || !transposable d.format || d.rows != r.cols || d.cols != r.rows ||
          overlaps t r (tensorRanges r) d [memoryOf t d] then invalidCommand s
      else pushCopy s (newCmd s f.g (.cpyT f) [d, r] []) f.c (chargeOf d) none

/-- The requirements of `cpy.g` and `cpy.s` on `n` indices, with the overlap of the index tensor (R198, R200). -/
def indexedInvalid (t : Nat) (d r i : Desc) (n : Nat) : Bool :=
  d.format != r.format || d.cols != r.cols || i.format != 0x1b || i.cols < n ||
    overlaps t r (tensorRanges r) d [memoryOf t d] || overlaps t i (indexRanges i n) d [memoryOf t d]

/-- `cpy.g` (R198). -/
def execCpyG (f : FCpyI) (s : State) : Out :=
  .next <| match commandGate s f.g [] [f.d, f.s, f.i] with
    | some s' => s'
    | none =>
      let d := descAt s f.d
      let r := descAt s f.s
      let i := descAt s f.i
      if indexedInvalid s.cur.tile d r i d.rows then invalidCommand s
      else pushCopy s (newCmd s f.g (.cpyG f) [d, r, i] []) f.c (chargeOf d) none

/-- `cpy.s`: its charge is every source row (R198, R199). -/
def execCpyS (f : FCpyI) (s : State) : Out :=
  .next <| match commandGate s f.g [] [f.d, f.s, f.i] with
    | some s' => s'
    | none =>
      let d := descAt s f.d
      let r := descAt s f.s
      let i := descAt s f.i
      if indexedInvalid s.cur.tile d r i r.rows then invalidCommand s
      else pushCopy s (newCmd s f.g (.cpyS f) [d, r, i] []) f.c (chargeOf r) none

/-- `cpy.m` (R201). -/
def execCpyM (f : FCpyM) (s : State) : Out :=
  .next <|
    let reg : BitVec 4 := f.r.setWidth 4
    match commandGate s f.g [reg] [f.d, f.s] with
    | some s' => s'
    | none =>
      let t := s.cur.tile
      let d := descAt s f.d
      let r := descAt s f.s
      match rectangle t (rdA s reg) with
      | none => invalidCommand s
      | some tiles =>
        if d.space != .sp || d.format != r.format || d.rows != r.rows || d.cols != r.cols ||
            overlaps t r (tensorRanges r) d (tiles.map fun u => (Space.sp, u)) then invalidCommand s
        else pushCopy s (newCmd s f.g (.cpyM f) [d, r] [rdA s reg]) f.c (chargeOf d * tiles.length) none

/-- The follow-on body in k[N] bits 29:0, where it is one that `cpy.mma` may carry (R202). -/
def followBody (k : Word) : Option Instr :=
  match decodeABody (k &&& 0x3fffffff#32) with
  | some (.mma f) => if f.g == 0#3 && staticOk (.mma f) then some (.mma f) else none
  | some (.mmaBl f) => if f.g == 0#3 && staticOk (.mmaBl f) then some (.mmaBl f) else none
  | some (.mmaR f) => if f.g == 0#3 && staticOk (.mmaR f) then some (.mmaR f) else none
  | _ => none

/-- The registers and entries that a follow-on names. -/
def followNames (i : Instr) : List (BitVec 4) × List (BitVec 6) :=
  match i with
  | .mma f => ([f.k], [f.a, f.b])
  | .mmaBl f => ([], [f.a])
  | .mmaR f => ([], [f.a])
  | _ => ([], [])

/-- The checks of a follow-on at issue, after those of its entries: the trap it raises. -/
def followTrap (s : State) (i : Instr) : Option State :=
  match i with
  | .mma f =>
    let k := lowWord s f.k
    if k.toNat % pairK (descAt s f.a) (descAt s f.b) != 0 then some (preciseTrap s .align (k.setWidth 64) 0#64)
    else if mmaInvalid (descAt s f.a) (descAt s f.b) then some (invalidCommand s)
    else none
  | .mmaBl f => if (descAt s f.a).space != .sp then some (invalidCommand s) else none
  | .mmaR f => if (descAt s f.a).space != .sp then some (invalidCommand s) else none
  | _ => none

/-- `cpy.mma` captures its follow-on at issue (R202). -/
def execCpyMma (f : FCpyMma) (s : State) : Out :=
  .next <|
    let body := followBody (kReg s f.n.toNat)
    let names := (body.map followNames).getD ([], [])
    match commandGate s f.g names.1 ([f.d, f.s] ++ names.2) with
    | some s' => s'
    | none =>
      let t := s.cur.tile
      let d := descAt s f.d
      let r := descAt s f.s
      match body with
      | none => invalidCommand s
      | some i =>
        match followTrap s i with
        | some s' => s'
        | none =>
          if d.format != r.format || d.rows != r.rows || d.cols != r.cols ||
              overlaps t r (tensorRanges r) d [memoryOf t d] then invalidCommand s
          else
            let follow := newCmd s 0#3 i (names.2.map (descAt s)) (names.1.map fun n => (lowWord s n).setWidth 64)
            pushCopy s (newCmd s f.g (.cpyMma f) [d, r] [(kReg s f.n.toNat).setWidth 64]) f.c (chargeOf d) (some follow)

/-- The bytes of a tensor's stored rows. -/
def rowSpan (d : Desc) : Nat := d.rows * rowBytes d.format d.cols

/-- `strm`: the byte count is 1 to the span of tD, and tD lies in sp or ql (R203); another one is refused at issue (log 98). -/
def execStrm (f : FCpy) (s : State) : Out :=
  .next <|
    let reg : BitVec 4 := f.s.setWidth 4
    match commandGate s f.g [reg] [f.d] with
    | some s' => s'
    | none =>
      let d := descAt s f.d
      let n := ((rdA s reg).extractLsb' 32 32).toNat
      if (d.space != .sp && d.space != .ql) || n == 0 || rowSpan d < n then invalidCommand s
      else pushCopy s (newCmd s f.g (.strm f) [d] [rdA s reg]) f.c (chargeOf d) none

/-! ## What a copy does (R198, R201) -/

/-- Copies bytes from one address to another; what is read with an uncorrectable error is not written (R344). -/
def moveBytes (e : Eng) (src : Space) (sa : Nat) (dst : Space) (da n : Nat) : Eng :=
  (pieces (engUnit e src sa) n sa n).foldl (fun e p =>
    let r := engReadPiece { e with bad := false } src p.1 p.2
    if r.2.bad then r.2 else engWrite { r.2 with bad := e.bad } dst (da + (p.1 - sa)) r.1) e

/-- Copies a row with its scale row. -/
def moveRow (e : Eng) (d r : Desc) (i j : Nat) : Eng :=
  let e1 := moveBytes e r.space (rowAddr r j) d.space (rowAddr d i) (rowBytes d.format d.cols)
  let n := scaleRow d.format d.cols
  if n == 0 then e1 else moveBytes e1 r.space (scaleAddr r j) d.space (scaleAddr d i) n

/-- Writes a row of zeros, and its scale row with zero bytes (R198; DEDUCED, log 118). -/
def zeroRow (e : Eng) (d : Desc) (i : Nat) : Eng :=
  let e1 := engWrite e d.space (rowAddr d i) (List.replicate (rowBytes d.format d.cols) 0#8)
  let n := scaleRow d.format d.cols
  if n == 0 then e1 else engWrite e1 d.space (scaleAddr d i) (List.replicate n 0#8)

def moveRows (e : Eng) (d r : Desc) : Eng := (upFrom 0 d.rows).foldl (fun e i => moveRow e d r i i) e

/-- The first `n` indices, read as unsigned (R198). -/
def readIndices (e : Eng) (i : Desc) (n : Nat) : List Nat × Eng :=
  let r := engRead e i.space (rowAddr i 0) (2 * n)
  ((upFrom 0 n).map fun k => codeAt 16 r.1 k, r.2)

def gatherRows (e : Eng) (d r i : Desc) : Eng :=
  let ix := readIndices e i d.rows
  ((upFrom 0 d.rows).zip ix.1).foldl (fun e p => if p.2 < r.rows then moveRow e d r p.1 p.2 else zeroRow e d p.1) ix.2

def scatterRows (e : Eng) (d r i : Desc) : Eng :=
  let ix := readIndices e i r.rows
  ((upFrom 0 r.rows).zip ix.1).foldl (fun e p => if p.2 < d.rows then moveRow e d r p.2 p.1 else e) ix.2

/-- Transposes elements of whole bytes; an uncorrectable error leaves the destination unwritten (R344). -/
def transposeRows (e : Eng) (d r : Desc) : Eng :=
  let w := (fmt d.format).bits / 8
  let rows := (upFrom 0 r.rows).foldl (fun (acc : List (List Byte) × Eng) i =>
    let x := engRead acc.2 r.space (rowAddr r i) (rowBytes r.format r.cols)
    (acc.1 ++ [x.1], x.2)) ([], e)
  if rows.2.bad then rows.2
  else (upFrom 0 d.rows).foldl (fun e j =>
    engWrite e d.space (rowAddr d j) (rows.1.flatMap fun b => (b.drop (j * w)).take w)) rows.2

/-- The tensor of a multicast as it lies in the scratchpad of a tile. -/
def atTile (d : Desc) (u : Nat) : Desc := { d with space := .pr, base := u * 2 ^ 32 + d.base, scale := u * 2 ^ 32 + d.scale }

/-- A multicast writes nothing when a tile of its rectangle lies outside the cohort (R201). -/
def multicast (e : Eng) (d r : Desc) (tiles : List Nat) : Eng :=
  match tiles.find? fun u => !sameCohort e.s e.tile u with
  | some u => e.note .peerGone .pr (u * 2 ^ 32 + d.base)
  | none => tiles.foldl (fun e u => moveRows e (atTile d u) r) e

/-- What the command of a copy does to memory. -/
def runCopy (e : Eng) (c : Cmd) : Eng :=
  match c.body, c.descs with
  | .cpy _, [d, r] => moveRows e d r
  | .cpyMma _, [d, r] => moveRows e d r
  | .cpyT _, [d, r] => transposeRows e d r
  | .cpyG _, [d, r, i] => gatherRows e d r i
  | .cpyS _, [d, r, i] => scatterRows e d r i
  | .cpyM _, [d, r] => multicast e d r ((rectangle e.tile ((c.regs[0]?).getD 0#64)).getD [])
  | _, _ => e

/-! ## Streams (R203, R226, R317) -/

/-- An entry of the stream table as it lies in edge memory: the manual names its fields and not their places (log 19). -/
structure Grant where
  valid : Bool
  tag : Nat
  stream : Nat
  prods : List Nat
  deriving DecidableEq, Repr

def grantAt (s : State) (stream : Nat) : Grant :=
  let a := s.streamTable + 64 * (stream % 4096)
  let w := memDWord s.edge a
  let n := (w.extractLsb' 0 4).toNat
  ⟨w.msb, (w.extractLsb' 48 8).toNat, (w.extractLsb' 8 20).toNat,
    (upFrom 0 n).map fun i => leNat (memRead s.edge (a + 16 + 4 * i) 4)⟩

/-- The stream is granted to a tag: a valid entry of that tag whose STREAM field matches (R317). -/
def streamGranted (s : State) (stream tag : Nat) : Bool :=
  let g := grantAt s stream
  g.valid && g.tag == tag && g.stream == stream / 4096

/-- The producer word of a tile (log 19). -/
def tileProducer (t : Nat) : Nat := 2 ^ 30 + t

/-- The stream and byte count of a subscription. -/
def strmStream (c : Copy) : Nat := (((c.cmd.regs[0]?).getD 0#64).extractLsb' 0 32).toNat
def strmCount (c : Copy) : Nat := (((c.cmd.regs[0]?).getD 0#64).extractLsb' 32 32).toNat

def isStrm (i : Instr) : Bool :=
  match i with
  | .strm _ => true
  | _ => false

/-- Bytes `got` to `got + n - 1` of a subscription land in tD's rows, each row up to its length (R203). -/
def landStream (e : Eng) (d : Desc) (got : Nat) (bs : List Byte) : Eng :=
  let len := rowBytes d.format d.cols
  (pieces len bs.length got bs.length).foldl (fun e p =>
    engWrite e d.space (rowAddr d (p.1 / len) + p.1 % len) ((bs.drop (p.1 - got)).take p.2)) e

/-- Every registered producer's token is in. -/
def allEnded (s : State) (c : Copy) : Bool := (grantAt s (strmStream c)).prods.all fun p => c.ended.contains p

/-- A span port, or the peer module behind it, is lost (R314). -/
def peerLost (s : State) (port module : Nat) : Bool :=
  (smGet (Span.mk 8 false) (port % 32) s.spans).lanes == 0 || s.lostModules.contains (module % 65536)

/-- A producer's span port or module is lost (R314): producer words of kind 2 name the port in bits 4:0 and the module in bits
20:5 (log 19). -/
def lostProducer (s : State) (p : Nat) : Bool := p / 2 ^ 30 == 2 && peerLost s p (p / 32)

/-! ## Completion (R197, R199, R202) -/

/-- A copy of the list at a position, when nothing ahead of it in the engine's queue holds it: an earlier held command, or
an earlier copy of its path. A subscription in progress holds back only a copy that writes the same bytes. -/
def copyMay (tl : Tile) (t i : Nat) (c : Copy) : Bool :=
  (tl.copies.take i).all fun b =>
    b.landed || b.cmd.guard == .discarded ||
      (!b.cmd.guard.isBound &&
        match b.cmd.descs, c.cmd.descs with
        | d :: _, d' :: _ =>
          pathOf t d != pathOf t d' ||
            (isStrm b.cmd.body && !rangesShare (offsets d (tensorRanges d)) (offsets d' (tensorRanges d')))
        | _, _ => true)

/-- Replaces or removes the copy at a position. -/
def setCopy (s : State) (t i : Nat) (c : Option Copy) : State :=
  let tl := tileOf s t
  setTile s t { tl with copies := tl.copies.take i ++ c.toList ++ tl.copies.drop (i + 1) }

/-- The bytes still charged are taken back (R199); of a copy that did not land whole, as it completes (DEDUCED, log 120). -/
def settle (s : State) (t : Nat) (c : Copy) : State :=
  match c.charge with
  | some bar => if c.left == 0 then s else addPend s t bar (-(BitVec.ofNat 56 c.left))
  | none => s

/-- The follow-on may be pushed now: its task runs and the matrix queue has room (R202, R291). -/
def followMay (s : State) (t : Nat) (f : Cmd) : Bool :=
  let tl := tileOf s t
  tl.run == .running && tl.task.act == f.act && tl.matq.length < 16

/-- The task of a follow-on has ended: it runs on its tile no more and stands in no frame, and the accumulators that the follow-on would
act on have ended with it (R64, R202, R292). -/
def followGone (s : State) (t : Nat) (f : Cmd) : Bool :=
  !((tileOf s t).run != .idle && (tileOf s t).task.act == f.act) && !s.frames.any fun e => e.2.task.act == f.act

/-- Pushes a follow-on at the tail of the matrix queue (R202). -/
def pushFollow (s : State) (t : Nat) (f : Cmd) : State :=
  let tl := tileOf s t
  setTile { s with nextId := s.nextId + 1 } t { tl with matq := tl.matq ++ [{ f with id := s.nextId }] }

/-- A copy has completed: its charge is settled, and its follow-on is pushed or kept (R197, R199, R202, R334). -/
def copyDone (s : State) (t i : Nat) (c : Copy) : State :=
  let s1 := countEvent (settle s t c) t 0x0a 1
  match c.follow with
  | none => setCopy s1 t i none
  | some f =>
    if followMay s1 t f then pushFollow (setCopy s1 t i none) t f
    else if followGone s1 t f then setCopy s1 t i none
    else setCopy s1 t i (some { c with landed := true, left := 0, charge := none })

/-- A multicast through the Crossing, whose completion notice comes back on channel 3 (R62, Table 1-10). -/
def isMulticast (i : Instr) : Bool :=
  match i with
  | .cpyM _ => true
  | _ => false

/-- The completion notice of a command stands at its tile's input (R62). -/
def noticed (tl : Tile) (id : Nat) : Bool :=
  tl.efWait.any fun b => match b with
    | .notice n _ => n == id
    | .word _ => false

/-- The notice of a command waits behind the results at its tile's input (R62). -/
def addNotice (s : State) (t id : Nat) (p : Space) : State :=
  setTile s t { tileOf s t with efWait := (tileOf s t).efWait ++ [.notice id p] }

/-- A copy whose bytes have landed completes; a multicast's notice waits behind the results at its tile's input (R62, R197). -/
def finishCopy (s : State) (t i : Nat) (c : Copy) : State :=
  if isMulticast c.cmd.body && !(tileOf s t).efWait.isEmpty then addNotice s t c.cmd.id .sp else copyDone s t i c

/-- A line that a host may hold among the destinations of a copy (R256). -/
def copyAwaitsHost (s : State) (t : Nat) (c : Copy) : Option Nat :=
  match c.cmd.descs with
  | d :: _ => engAwaitsHost (engStart s t c.cmd) d
  | [] => none

/-- The end of a subscription, if it has come: an unknown stream or a lost peer fails it (R203, R314, R317). -/
def endStrm (s : State) (t i : Nat) (c : Copy) : State :=
  let fail (reason : Byte) : State :=
    if taskStopped s t c.cmd || 256 ≤ (tileOf s t).replay.length then s
    else copyDone (failCommand s t c.cmd reason) t i c
  if !streamGranted s (strmStream c) (tagOf s t) then fail 0x05#8
  else if c.got == strmCount c || allEnded s c then copyDone s t i c
  else if (grantAt s (strmStream c)).prods.any fun p => !c.ended.contains p && lostProducer s p then fail 0x04#8
  else s

/-- The ranges of bytes that a copy reads, by space: its element rows, their scale rows, and the indices of `cpy.g` and `cpy.s`, which
it reads as it runs (R198, R200). -/
def sourceRanges (e : Eng) (c : Cmd) : List (Space × Nat × Nat) :=
  let tag (d : Desc) (rs : List (Nat × Nat)) : List (Space × Nat × Nat) := rs.map fun r => (d.space, r)
  let row (d : Desc) (i : Nat) : List (Nat × Nat) :=
    let n := scaleRow d.format d.cols
    (rowAddr d i, rowBytes d.format d.cols) :: if n == 0 then [] else [(scaleAddr d i, n)]
  match c.body, c.descs with
  | .cpy _, [_, r] | .cpyT _, [_, r] | .cpyM _, [_, r] | .cpyMma _, [_, r] => tag r (tensorRanges r)
  | .cpyG _, [d, r, i] =>
    tag i (indexRanges i d.rows) ++
      tag r (((readIndices e i d.rows).1.filter (· < r.rows)).flatMap (row r))
  | .cpyS _, [d, r, i] =>
    tag i (indexRanges i r.rows) ++
      tag r ((((upFrom 0 r.rows).zip (readIndices e i r.rows).1).filter (·.2 < d.rows)).flatMap fun p => row r p.1)
  | _, _ => []

/-- A place of global memory as one number: edge memory, then the host ports. -/
def physNumber : Phys → Nat
  | .edge pa => pa
  | .host port a => (port + 1) * 2 ^ 64 + a
  | .nowhere => 0

/-- A range joins a list of ranges that rise and do not touch. -/
def joinRange (x : Nat × Nat) : List (Nat × Nat) → List (Nat × Nat)
  | [] => [x]
  | y :: r =>
    if x.2 < y.1 then x :: y :: r
    else if y.2 < x.1 then y :: joinRange x r
    else joinRange (min x.1 y.1, max x.2 y.2) r

/-- Where a byte of global memory lies, if it is ordinary memory. -/
def ordinaryAt (e : Eng) (ea : Nat) : Option Nat :=
  match (engReach e (engAccess e .load .gl ea 1)).2 with
  | .ok (.gl ph ty) => if ty.ult 2#2 then some (physNumber ph) else none
  | _ => none

/-- The bytes of global memory that a copy reads, as rising ranges of physical addresses; none where one of them is not ordinary
memory (R201). -/
def globalBytes (e : Eng) (c : Cmd) : Option (List (Nat × Nat)) :=
  (((sourceRanges e c).filter (·.1 == .gl)).flatMap fun r => pieces 4096 r.2.2 r.2.1 r.2.2).foldl (fun l p =>
    match l, ordinaryAt e p.1 with
    | some l, some a => some (joinRange (a, a + p.2) l)
    | _, _ => none) (some [])

/-- The bytes that the Crossing would read for a copy, where it can merge it with other requests (R201). -/
def mergeBytes (s : State) (t : Nat) (c : Cmd) : Option (List (Nat × Nat)) :=
  if ((c.descs.drop 1).any fun d => d.space == .gl) then (globalBytes (engStart s t c) c).filter fun l => !l.isEmpty else none

/-- A copy may do its work now. -/
def copyReady (s : State) (t i : Nat) (c : Copy) : Bool :=
  !c.landed && c.cmd.guard == .free && !noticed (tileOf s t) c.cmd.id && copyMay (tileOf s t) t i c && pushSeen s t c.cmd &&
    !isStrm c.cmd.body

/-- The copies of other commands of the cluster that read the same bytes at the same moment, by tile and number: the Crossing serves
them with one read (R10, R201; log 44). -/
def copiesWith (s : State) (t : Nat) (c : Cmd) : List (Nat × Nat) :=
  match mergeBytes s t c with
  | none => []
  | some l =>
    s.tiles.flatMap fun e =>
      if clusterOf e.1 != clusterOf t || tagOf s e.1 != tagOf s t then []
      else
        (((upFrom 0 e.2.copies.length).zip e.2.copies).filter fun p =>
          p.2.cmd.id != c.id && copyReady s e.1 p.1 p.2 && (copyAwaitsHost s e.1 p.2).isNone &&
            mergeBytes s e.1 p.2.cmd == some l).map fun p => (e.1, p.2.cmd.id)

/-- The relaxed gl loads of the cluster that read the very bytes of a copy at the same moment (R201; log 44). -/
def loadsWith (s : State) (t : Nat) (c : Cmd) : List (Access × Place) :=
  match mergeBytes s t c with
  | some [x] =>
    s.accs.filterMap fun a =>
      match reach s a with
      | .at (.gl ph ty) =>
        let p : Place := .gl ph ty
        if clusterOf a.tile == clusterOf t && mergeable a p && a.guard != .discarded && mayPerform s a && !portBusy s a p &&
            (physNumber ph, physNumber ph + a.n) == x then some (a, p) else none
      | _ => none
  | _ => []

/-- A merged copy does its work and is counted (R201, R213). -/
def mergeCopy (s : State) (x : Nat × Nat) : State :=
  let l := (tileOf s x.1).copies
  match ((upFrom 0 l.length).zip l).find? fun p => p.2.cmd.id == x.2 with
  | none => s
  | some (i, c) =>
    let e := runCopy (engStart s x.1 c.cmd) c.cmd
    if engHolds e then s else countMerged (finishCopy (engFinish e) x.1 i c) x.1

/-- A merged load takes the value that it would have read alone and is counted (R201, R213). -/
def mergeLoad (s : State) (x : Access × Place) : State :=
  let r := performAt s x.1 x.2
  countMerged (setResult r.2 x.1.id r.1) x.1.tile

/-- The Crossing serves with the read of a copy what it has merged with it, loads first (R201). -/
def serveMerged (s : State) (loads : List (Access × Place)) (copies : List (Nat × Nat)) : State :=
  copies.foldl mergeCopy (loads.foldl mergeLoad s)

/-- COPY_COMPLETE: copy `i` of a tile's stream engine moves its bytes and completes, or a discarded one leaves (R197-R202,
R55). -/
def execCopyComplete (t i : Nat) (s : State) : Out :=
  .next <|
    let tl := tileOf s t
    match tl.copies[i]? with
    | none => s
    | some c =>
      if c.landed then
        match c.follow with
        | some f =>
          if followMay s t f then pushFollow (setCopy s t i none) t f
          else if followGone s t f then setCopy s t i none
          else s
        | none => setCopy s t i none
      else
        match c.cmd.guard with
        | .bound .. => s
        | .discarded => setCopy (settle s t c) t i none
        | .free =>
          if noticed tl c.cmd.id || !copyMay tl t i c || !pushSeen s t c.cmd then s
          else if isStrm c.cmd.body then endStrm s t i c
          else
            match copyAwaitsHost s t c with
            | some line => askBack s line
            | none =>
              let e := runCopy (engStart s t c.cmd) c.cmd
              if engHolds e then s
              else serveMerged (finishCopy (engFinish e) t i c) (loadsWith s t c.cmd) (copiesWith s t c.cmd)

/-- What a streamer still has for a subscriber of a producer's data: the item's place, and the bytes or the token. -/
def nextItem (s : State) (t stream prod : Nat) : Option (Nat × StreamItem × Nat) :=
  (((upFrom 0 s.streamQ.length).zip s.streamQ).find? fun p =>
    p.2.stream == stream && p.2.prod == prod && smGet 0 t p.2.given < p.2.bytes.length + (if p.2.eos then 1 else 0)).map
    fun p => (p.1, p.2, smGet 0 t p.2.given)

/-- The subscriber has had `n` bytes of an item. -/
def giveItem (s : State) (k t n : Nat) : State :=
  { s with streamQ := s.streamQ.modify k fun it => { it with given := smSet t n it.given } }

/-- What a subscription has had of the streamer's items, when it takes more of item `k`. -/
def nowTook (c : Copy) (k had : Nat) : List (Nat × Nat) := if c.took.any (·.1 == k) then c.took else c.took ++ [(k, had)]

/-- A tile that has halted, or whose team moves, takes no stream data (R21, R205). -/
def streamStops (tl : Tile) : Bool := tl.halt == .preempt true || tl.halt == .migrate

/-- Stream data land in an open subscription (R199, R203). -/
def streamLands (s : State) (t i : Nat) (c : Copy) (d : Desc) (bs : List Byte) : State :=
  let e := landStream (engStart s t c.cmd) d c.got bs
  if engHolds e then s
  else
    let n := min bs.length c.left
    let s1 := engFinish e
    let s2 := setCopy s1 t i (some { c with got := c.got + bs.length, left := if c.charge.isSome then c.left - n else c.left })
    match c.charge with
    | some bar => addPend s2 t bar (-(BitVec.ofNat 56 n))
    | none => s2

/-- STREAM_DATA_ARRIVAL: data of a registered producer, from what its tile sent or from outside, arrive at subscription
`i` of a tile; what exceeds its count waits for a later one (R203, R226, R317). -/
def execStreamDataArrival (t i prod : Nat) (bytes : List Byte) (s : State) : Out :=
  .next <| match (tileOf s t).copies[i]? with
    | none => s
    | some c =>
      match c.cmd.body, c.cmd.descs with
      | .strm _, [d] =>
        let stream := strmStream c
        let room := strmCount c - c.got
        if streamStops (tileOf s t) || c.landed || c.cmd.guard != .free || !copyMay (tileOf s t) t i c || !pushSeen s t c.cmd || !streamGranted s stream (tagOf s t) ||
            !(grantAt s stream).prods.contains prod || c.ended.contains prod || lostProducer s prod || room == 0 then s
        else if prod / 2 ^ 30 == 1 then
          match nextItem s t stream prod with
          | some (k, it, had) =>
            let bs := ((it.bytes.drop had).take room)
            if bs.isEmpty then s else streamLands (giveItem s k t (had + bs.length)) t i { c with took := nowTook c k had } d bs
          | none => s
        else if bytes.length ≤ room then streamLands s t i c d bytes
        else s
      | _, _ => s

/-- END_OF_STREAM_TOKEN: a producer's token reaches subscription `i`, after all its data (R203, R226). -/
def execEndOfStreamToken (t i prod : Nat) (s : State) : Out :=
  .next <| match (tileOf s t).copies[i]? with
    | none => s
    | some c =>
      let stream := strmStream c
      if streamStops (tileOf s t) || !isStrm c.cmd.body || c.landed || c.cmd.guard != .free || !streamGranted s stream (tagOf s t) ||
          !(grantAt s stream).prods.contains prod || c.ended.contains prod || lostProducer s prod then s
      else
        let c' := { c with ended := c.ended ++ [prod] }
        if prod / 2 ^ 30 == 1 then
          match nextItem s t stream prod with
          | some (k, it, had) =>
            if it.eos && had == it.bytes.length then
              giveItem (setCopy s t i (some { c' with took := nowTook c k had })) k t (had + 1)
            else s
          | none => s
        else setCopy s t i (some c')

/-- A subscription that a halt finds unfinished starts again in full after it: the bytes it has taken are charged again, and its
streamer gives them, and the tokens, once more (R205; log 113). -/
def restartStrm (t : Nat) (s : State) (x : Nat × Copy) : State :=
  let c := x.2
  let all := match c.charge, c.cmd.descs with
    | some _, d :: _ => chargeOf d
    | _, _ => c.left
  let s1 := match c.charge with
    | some bar => if all == c.left then s else addPend s t bar (BitVec.ofNat 56 (all - c.left))
    | none => s
  let s2 := c.took.foldl (fun s k => giveItem s k.1 t k.2) s1
  setCopy s2 t x.1 (some { c with got := 0, left := all, ended := [], took := [] })

/-- The copies of a tile that has halted: what is not complete is done in full after the halt (R205). -/
def restartCopies (s : State) (t : Nat) : State :=
  let l := (tileOf s t).copies
  let open_ := ((upFrom 0 l.length).zip l).filter fun x => isStrm x.2.cmd.body && !x.2.landed
  open_.reverse.foldl (restartStrm t) s

/-- The launch that sent a stream message to a stream it may not feed: an ENGINE_FAIL with reason STREAM_UNKNOWN (R226). It waits
while the task is stopped or its replay queue full (R135, R296). -/
def rejectStream (s : State) (m : Msg) (word : Word) (reg : DWord) : State :=
  if gtidStopped s m.src m.gtid || framed s m.gtid || 256 ≤ (tileOf s m.src).replay.length then s
  else engineFail (dropMsg s m.id) m.src m.launch m.gtid m.pc 0x05#8 word reg

/-- A streamer appends what a tile sent for its stream. -/
def feedStream (s : State) (m : Msg) (stream : Nat) (bytes : List Byte) (eos : Bool) (word : Word) (reg : DWord) : State :=
  if !streamGranted s stream m.tag || !(grantAt s stream).prods.contains (tileProducer m.src) then rejectStream s m word reg
  else
    let s1 := dropMsg s m.id
    { s1 with streamQ := s1.streamQ ++ [⟨stream, tileProducer m.src, bytes, eos, []⟩] }

/-- The endpoint a message names is an edge streamer that exists (R16, R17). -/
def streamerExists (d : BitVec 20) : Bool := d.extractLsb' 8 8 == 0#8 && d.extractLsb' 0 3 == 2#3

/-- STREAMER_SEND_ARRIVAL: a `send` or `send.eos` reaches its edge streamer, or the Kerb refuses it (R17, R226, R304). The bytes that
a payload of fewer than 4 lacks count as zeros in the stream's number (log 98). -/
def execStreamerSendArrival (id : Nat) (s : State) : Out :=
  .next <| match msgOf s id with
    | none => s
    | some m =>
      if m.guard == .discarded then dropMsg s id
      else if !msgMay s m || !earlierDone s m.src m.gtid m.id 5#3 then s
      else
        let refused := !streamerExists m.dst || !granted s m.tag (m.dst.extractLsb' 0 8).toNat
        match m.body with
        | .streamer bytes word reg =>
          if refused then refuseMsg s m .kerbRefused 0#3 0#3 (payloadData bytes)
          else feedStream s m (leNat (bytes.take 4)) (bytes.drop 4) false word reg
        | .eos stream word reg =>
          if refused then refuseMsg s m .kerbRefused 0#3 0#3 0#256 else feedStream s m stream.toNat [] true word reg
        | _ => s

/-! ## Drains (R204) -/

/-- A command of the matrix array, the chain queue or the collective engine writes to a path. -/
def writesPath (t : Nat) (p : Space) (c : Cmd) : Bool :=
  match c.body, c.descs with
  | .mst _, d :: _ => pathOf t d == p
  | .chain _, d :: _ => pathOf t d == p
  | .coll _, d :: _ => pathOf t d == p
  | .collRed _, d :: _ => pathOf t d == p
  | _, _ => false

/-- The tile that a `ksend` updates (R208). -/
def ksendTarget (s : State) (t : Nat) (c : Cmd) : Nat :=
  let k := ((c.regs[0]?).getD 0#64).toNat % 2 ^ 32
  match cohortOf s t with
  | none => t
  | some (_, co, _) =>
    let serial := match c.body with
      | .ksend f => if f.h == 1#1 then (k * 0x9e3779b1 % 2 ^ 32) / 2 ^ 16 % cohortTasks co else k / 2 ^ 16
      | _ => 0
    tileOfSerial co serial

/-- An earlier operation of the tile on a path is still to be done (R204). -/
def drainWaits (s : State) (t : Nat) (p : Space) : Bool :=
  let tl := tileOf s t
  (s.accs.any fun a => a.tile == t && effSpace a == p && a.guard != .discarded) ||
    (tl.copies.any fun c => !c.landed && c.cmd.guard != .discarded &&
      match c.cmd.descs with
      | d :: _ => pathOf t d == p
      | [] => false) ||
    (tl.matq.any fun c => c.guard != .discarded && writesPath t p c) ||
    (tl.chainq.any fun c => c.guard != .discarded && writesPath t p c) ||
    (tl.efWait.any fun b => match b with
      | .notice _ q => q == p
      | .word _ => false) ||
    s.net.any fun m => m.src == t && m.guard != .discarded &&
      match m.body with
      | .coll c => writesPath t p c
      | .ksend c => (if ksendTarget s t c == t then Space.sp else .pr) == p
      | _ => false

/-- `drain` waits for its path and is then a report point (R135, R204). -/
def execDrain (f : FDrain) (s : State) : Out :=
  .next <| match orderGate s with
    | some s' => s'
    | none =>
      if drainWaits s s.cur.tile (spaceOf f.p.toNat) then waitBundle s
      else
        match reportTrap s with
        | some s' => s'
        | none => finish s

end Sys2Proof.Machine
end

