-- ==== Sys2Proof/Machine/Engines.lean ====
section
/-! DEFINITION. Chains, key-routed sends, collectives, the generic engine command and its replies, and the quad unit's
events (R206-R214, R178, R277, R315, R316). -/

namespace Sys2Proof.Machine

/-! ## Chains (R206) -/

/-- A step of a chain. -/
inductive ChainStep where
  | addT | mulT | maxT | minT | addS | mulS | maxS
  | neg | abs | rcp | sqrt | rsq | ex2 | lg2 | tanh
  | store (ty rm : Nat)
  | reserved
  deriving DecidableEq, Repr

/-- A step byte (R206). -/
def stepOf (b : Nat) : ChainStep :=
  match b with
  | 0x10 => .addT | 0x20 => .mulT | 0x30 => .maxT | 0x40 => .minT | 0x50 => .addS | 0x60 => .mulS | 0x70 => .maxS
  | 0x80 => .neg | 0x81 => .abs | 0x82 => .rcp | 0x83 => .sqrt | 0x84 => .rsq | 0x85 => .ex2 | 0x86 => .lg2 | 0x87 => .tanh
  | _ => if 0xc0 ≤ b && b / 8 % 2 == 0 && b % 8 != 7 then .store (b / 16 % 4) (b % 8) else .reserved

/-- The steps up to the store step, with its A4 type and mode; `none` where a reserved byte comes first, a t-step has no
tT, or no step stores (R206). -/
def chainSteps (hasT : Bool) : List Nat → Option (List ChainStep × Nat × Nat)
  | [] => none
  | b :: r =>
    match stepOf b with
    | .reserved => none
    | .store ty rm => some ([], ty, rm)
    | x =>
      if !hasT && (x == .addT || x == .mulT || x == .maxT || x == .minT) then none
      else (chainSteps hasT r).map fun p => (x :: p.1, p.2)

/-- One step on x, rounding by RNE. -/
def runStep (x t c : Word) (k : ChainStep) : Word :=
  match k with
  | .addT => f32Add .rne x t
  | .mulT => f32Mul .rne x t
  | .maxT => f32MinMax true x t
  | .minT => f32MinMax false x t
  | .addS => f32Add .rne x c
  | .mulS => f32Mul .rne x c
  | .maxS => f32MinMax true x c
  | .neg => signForm (fun a => a ^^^ 0x80000000#32) x
  | .abs => signForm (fun a => a &&& 0x7fffffff#32) x
  | .rcp => f32Rcp .rne x
  | .sqrt => f32Sqrt .rne x
  | .rsq => f32Rsq .rne x
  | .ex2 => f32Ex2 .rne x
  | .lg2 => f32Lg2 .rne x
  | .tanh => f32Tanh .rne x
  | .store _ _ => x
  | .reserved => x

/-- The eight step bytes of k0 and k1. -/
def stepBytes (k0 k1 : Word) : List Nat :=
  (leBytes k0.toNat 4 ++ leBytes k1.toNat 4).map (·.toNat)

/-- `chain`: k0 to k2, the generator and the default mode are captured at issue (R186, R206). -/
def execChain (f : FChain) (s : State) : Out :=
  .next <| match commandGate s f.g [] ([f.d, f.s] ++ if f.f == 1#1 then [f.t] else []) with
    | some s' => s'
    | none =>
      let d := descAt s f.d
      let r := descAt s f.s
      let u := if f.f == 1#1 then [descAt s f.t] else []
      let k := curTask s
      let tl := curTile s
      match chainSteps (f.f == 1#1) (stepBytes k.k[0] k.k[1]) with
      | none => invalidCommand s
      | some (_, _, rm) =>
        if (r :: u).any (fun x => x.rows != d.rows || x.cols != d.cols) || inputOnly d.format then invalidCommand s
        else if 16 ≤ tl.chainq.length then waitBundle s
        else
          let mode := if rm == 6 then k.rm.toNat else rm
          let c := newCmd s f.g (.chain f) ([d, r] ++ u)
            [k.k[0].setWidth 64, k.k[1].setWidth 64, k.k[2].setWidth 64, k.lfsr.setWidth 64, BitVec.ofNat 64 mode]
          if c.guard == .discarded then finish s
          else
            let task := if rm == 5 then { k with lfsr := lfsrNext k.lfsr } else k
            finish (setCurTile { s with nextId := s.nextId + 1 } { tl with chainq := tl.chainq ++ [c], task := task })

/-- Elements of a row that are written together: a block, or the elements of one byte. -/
def writeGroup (format : Nat) : Nat :=
  let f := fmt format
  if f.block != 0 then f.block else if f.bits < 8 then 8 / f.bits else 1

/-- Writes values at columns from `a` on of row `i`, with the scales of their blocks; `a` begins a group (R113). -/
def engPutPart (e : Eng) (d : Desc) (ty i a : Nat) (xs : List (Num × RMode)) : Eng :=
  let f := fmt d.format
  let b := encodeRow d.format ty xs
  let e1 := engWrite e d.space (rowAddr d i + a * f.bits / 8) b.1
  if b.2.isEmpty then e1 else engWrite e1 d.space (scaleAddr d i + a / f.block) b.2

/-- What a chain command fixes: its tensors, its steps, the A4 type and mode of its store step, the scalar s, the captured
generator, the tensor scales. -/
structure ChainJob where
  d : Desc
  r : Desc
  u : Option Desc
  steps : List ChainStep
  ty : Nat
  rm : Nat
  c : Word
  gen : Word
  hr : Nat
  hu : Nat

/-- Row `i` of a unit that ends with the elements `lo` to `hi - 1` of the row: every group of elements that ends among them is
computed and written; what was read with an uncorrectable error is not (R206, R277, R344). -/
def chainRow (j : ChainJob) (e : Eng) (i lo hi : Nat) : Eng :=
  let g := writeGroup j.d.format
  let a := lo / g * g
  let b := if hi == j.d.cols then hi else hi / g * g
  if b ≤ a then e
  else
    let x := engRow { e with bad := false } j.r i a (b - a)
    let y := match j.u with
      | some t => engRow x.2 t i a (b - a)
      | none => (⟨[], []⟩, x.2)
    let word (d : Desc) (row : RawRow) (head k : Nat) : Word :=
      let v := elemOfRow d row head i a k
      toF32 .rne (v.v.mul v.sc)
    let md := rowModes (commandMode j.rm) (j.rm == 5) (b - a) (Nat.repeat lfsrNext (i * j.d.cols + a) j.gen)
    let vs := (upFrom 0 (b - a)).map fun k =>
      let v := word j.r x.1 j.hr k
      let t := match j.u with
        | some d => word d y.1 j.hu k
        | none => v
      f32 (j.steps.foldl (fun v k => runStep v t j.c k) v)
    let e1 := { y.2 with bad := e.bad || y.2.bad }
    if y.2.bad then e1 else engPutPart e1 j.d j.ty i a (vs.zip md.1)

/-- A unit of a chain: elements `n` to `n' - 1` of tD in row-major order (R206, R277). -/
def chainUnit (j : ChainJob) (e : Eng) (n n' : Nat) : Eng :=
  (upFrom (n / j.d.cols) ((n' - 1) / j.d.cols + 1 - n / j.d.cols)).foldl (fun e i =>
    chainRow j e i (n - i * j.d.cols) (min j.d.cols (n' - i * j.d.cols))) e

/-- Up to 128 elements of a chain command, from where it stands; the answer is how far it then is. -/
def runChain (e : Eng) (c : Cmd) (n : Nat) : Nat × Eng :=
  let reg (n : Nat) : Word := ((c.regs[n]?).getD 0#64).setWidth 32
  match c.descs with
  | d :: r :: u =>
    match chainSteps (!u.isEmpty) (stepBytes (reg 0) (reg 1)) with
    | some (steps, ty, _) =>
      let h := engHead e r
      let hu := match u with
        | t :: _ => engHead h.2 t
        | [] => (0, h.2)
      let n' := min (n + 128) (d.rows * d.cols)
      (n', chainUnit ⟨d, r, u.head?, steps, ty, (reg 4).toNat, reg 2, reg 3, h.1, hu.1⟩ hu.2 n n')
    | none => (0, e)
  | _ => (0, e)

/-- The elements of a chain command. -/
def chainTotal (c : Cmd) : Nat :=
  match c.descs with
  | d :: _ => d.rows * d.cols
  | [] => 0

/-- The engine at work on the chain at the head of a tile's queue, with what its earlier units met. -/
def chainStart (s : State) (t : Nat) (c : Cmd) : Eng :=
  let p := (tileOf s t).chainRun
  { engStart s t c with fault := p.fault, bad := p.bad }

/-- The chain at the head of a tile's queue is done or discarded. -/
def popChain (s : State) (t : Nat) : State :=
  setTile s t { tileOf s t with chainq := (tileOf s t).chainq.drop 1, chainRun := ⟨0, none, false⟩ }

/-- The end of a chain; its notice waits behind the results at its tile's input (R62). -/
def endChain (s : State) (t : Nat) (c : Cmd) : State :=
  let s1 := popChain s t
  match c.descs with
  | d :: _ => if (tileOf s1 t).efWait.isEmpty then s1 else addNotice s1 t c.id (pathOf t d)
  | [] => s1

/-- One unit of the chain at the head of a tile's queue; `none` while an entry of it has no room (R277). -/
def stepChain (s : State) (t : Nat) (c : Cmd) : Option State :=
  let x := runChain (chainStart s t c) c (tileOf s t).chainRun.done
  if x.1 < chainTotal c then some (setTile x.2.s t { tileOf x.2.s t with chainRun := ⟨x.1, x.2.fault, x.2.bad⟩ })
  else if engHolds x.2 then none
  else some (endChain (engFinish x.2) t c)

/-! ## The binding of lane groups (R277) -/

/-- A tile has a unit that the quad unit can bind: of its chain queue, or a long form; none where its halt is complete (R279). -/
def unitReady (s : State) (t : Nat) (chain : Bool) : Bool :=
  let tl := tileOf s t
  if tl.halt == .preempt true then false
  else if chain then
    match tl.chainq with
    | c :: _ => c.guard == .free && pushSeen s t c
    | [] => false
  else !tl.longq.isEmpty

/-- A tile has a queued unit. -/
def unitQueued (s : State) (t : Nat) : Bool := !(tileOf s t).longq.isEmpty || !(tileOf s t).chainq.isEmpty

/-- The deficits of a quad after one more pass has credited its tiles. -/
def creditPass (s : State) (q : Nat) : Vector Nat 4 :=
  Vector.ofFn fun i =>
    let t := tileAt q i.val
    if unitQueued s t then (quadAt s q).deficit[i] + 8 * (tileOf s t).vshare.toNat else 0

/-- Binds a unit of a tile: it has 8 group-clk of credit, or the next pass gives them once no other tile of the quad with a unit
ready has credit left. `none` where another tile comes first. -/
def bindUnit (s : State) (t : Nat) : Option State :=
  let q := quadOf t
  let i : Fin 4 := Fin.ofNat 4 (qidx t)
  let def' := (quadAt s q).deficit
  let take (v : Vector Nat 4) : State := setQuad s q { quadAt s q with deficit := v.set i (v[i] - 8) }
  if 8 ≤ def'[i] then some (take def')
  else if (List.finRange 4).any fun j => j != i && 8 ≤ def'[j] &&
      (unitReady s (tileAt q j.val) true || unitReady s (tileAt q j.val) false) then none
  else if 8 ≤ (creditPass s q)[i] then some (take (creditPass s q))
  else none

/-- The tile's share alternates between its two queues while both have a unit ready (R277). -/
def turnOf (s : State) (t : Nat) (chain : Bool) : Bool := !(unitReady s t (!chain)) || (tileOf s t).lastChain != chain

/-- A line that the host may hold of what the chain at the head writes (R256). -/
def chainAwaits (s : State) (t : Nat) : Option Nat :=
  match (tileOf s t).chainq with
  | c :: _ =>
    match c.descs with
    | d :: _ => engAwaitsHost (engStart s t c) d
    | [] => none
  | [] => none

/-- The quad unit carries out the unit that it has bound. -/
def runUnit (s : State) (t : Nat) (chain : Bool) : Option State :=
  let s1 := setTile s t { tileOf s t with lastChain := chain }
  if chain then
    match (tileOf s t).chainq with
    | c :: _ => stepChain s1 t c
    | [] => none
  else some (runLongHead s1 t)

/-- QUAD_UNIT_COMMAND: the quad unit binds a unit of a tile's long queue or chain queue, a long form or up to 128 elements of a
chain, and carries it out; a discarded chain leaves its queue (R178, R206, R277). -/
def execQuadUnitCommand (t : Nat) (chain : Bool) (s : State) : Out :=
  .next <|
    if chain && (((tileOf s t).chainq.head?).map (·.guard) == some .discarded) then popChain s t
    else if !unitReady s t chain || !turnOf s t chain then s
    else
      match if chain then chainAwaits s t else none with
      | some line => askBack s line
      | none => ((bindUnit s t).bind fun s1 => runUnit s1 t chain).getD s

/-! ## Key-routed sends (R207-R209) -/

/-- The key-accumulate unit of the acting tile takes a bin table (R180, R207). -/
def bindBins (s : State) (body : Instr) (d : Desc) (mode : Option Nat) : State :=
  setCurTile s { curTile s with bins := some (d, mode), binder := some (newCmd s 0#3 body [d] []) }

/-- The key-accumulate unit of tile `u` sees every store made before the `kbin` that bound its bins (R250). -/
def binsSeen (s : State) (u : Nat) : Bool :=
  match (tileOf s u).binder with
  | some c => pushSeen s u c
  | none => true

/-- `kbin.add` binds an FP32 tensor of the tile's scratchpad (R207; log 18). -/
def execKbinAdd (f : FKbinAdd) (s : State) : Out :=
  .next <| match commandGate s 0#3 [] [f.b] with
    | some s' => s'
    | none =>
      let d := descAt s f.b
      if d.space != .sp || d.format != 0 then invalidCommand s
      else finish (bindBins s (.kbinAdd f) d none)

/-- `kbin.app` (R207). -/
def execKbinApp (f : FKbinApp) (s : State) : Out :=
  .next <| match commandGate s 0#3 [] [f.b] with
    | some s' => s'
    | none =>
      let d := descAt s f.b
      if d.space != .sp then invalidCommand s
      else finish (bindBins s (.kbinApp f) d (some f.n.toNat))

/-- `kbin.off` (R207). -/
def execKbinOff (s : State) : Out :=
  .next <| match orderGate s with
    | some s' => s'
    | none => finish (setCurTile s { curTile s with bins := none, binder := none })

/-- `ksend`: the target is settled at issue; a direct serial must be below N (R186, R208). -/
def execKsend (f : FKsend) (s : State) : Out :=
  .next <|
    let ka : BitVec 4 := f.k.setWidth 4
    let ra : BitVec 4 := f.r.setWidth 4
    match commandGate s f.g [ka, ra] [f.s] with
    | some s' => s'
    | none =>
      let d := descAt s f.s
      let key := lowWord s ka
      let n := match cohortOf s s.cur.tile with
        | some (_, c, _) => cohortTasks c
        | none => 0
      if 2048 < rowBytes d.format d.cols || d.space != .sp || (f.h == 0#1 && n ≤ key.toNat / 2 ^ 16) then invalidCommand s
      else
        let c := newCmd s f.g (.ksend f) [d] [key.setWidth 64, (lowWord s ra).setWidth 64]
        finish (if c.guard == .discarded then s
          else addMsg s (BitVec.ofNat 20 (3 * 2 ^ 16 + ksendTarget s s.cur.tile c)) c.guard (.ksend { c with id := s.nextId }))

/-- DROP counts one more dropped update of a tile's unit (R208). -/
def dropUpdate (e : Eng) (u : Nat) : Eng :=
  let tl := tileOf e.s u
  { e with s := setTile e.s u { tl with drop := satAdd tl.drop 1 } }

/-- Adds a payload of words into a bin (R208). -/
def binAdd (e : Eng) (u addr : Nat) (ws : List Word) : Eng :=
  let ea := u * 2 ^ 32 + addr
  let r := engRead e .pr ea (4 * ws.length)
  let new := ((upFrom 0 ws.length).zip ws).flatMap fun p =>
    leBytes (f32Add .rne (BitVec.ofNat 32 (codeAt 32 r.1 p.1)) p.2).toNat 4
  engWrite r.2 .pr ea new

/-- Appends a payload to a bin of slots of 32n bytes (R207, R208). -/
def binAppend (e : Eng) (u addr n stride : Nat) (bs : List Byte) : Eng :=
  let ea := u * 2 ^ 32 + addr
  let r := engRead e .pr ea 4
  let c := leNat r.1
  if c < (stride - 32) / (32 * n) && bs.length ≤ 32 * n then
    let e1 := engWrite r.2 .pr (ea + 32 + c * (32 * n)) (bs ++ List.replicate (32 * n - bs.length) 0#8)
    engWrite e1 .pr ea (leBytes (c + 1) 4)
  else dropUpdate r.2 u

/-- The key-accumulate unit of tile `u` takes a payload (R208). -/
def binUpdate (e : Eng) (u bin : Nat) (d : Desc) (bs : List Byte) : Eng :=
  match (tileOf e.s u).bins with
  | none => dropUpdate e u
  | some (b, mode) =>
    if b.rows ≤ bin then dropUpdate e u
    else
      match mode with
      | none =>
        if d.format == 0 && d.cols ≤ b.cols then
          binAdd e u (rowAddr b bin) ((upFrom 0 d.cols).map fun j => BitVec.ofNat 32 (codeAt 32 bs j))
        else dropUpdate e u
      | some n => binAppend e u (rowAddr b bin) n b.stride bs

/-- The bin a `ksend` names: the low half of its key (R208). -/
def ksendBin (c : Cmd) : Nat := ((c.regs[0]?).getD 0#64).toNat % 2 ^ 16

/-- The stored row that a `ksend` sends. -/
def ksendRow (c : Cmd) : Nat := ((c.regs[1]?).getD 0#64).toNat % 2 ^ 32

/-- The payload of a `ksend`: a row beyond the tensor reads as zeros (R183). -/
def ksendPayload (e : Eng) (d : Desc) (row : Nat) : List Byte × Eng :=
  let n := rowBytes d.format d.cols
  if d.rows ≤ row then (List.replicate n 0#8, e) else engRead e d.space (rowAddr d row) n

/-- KSEND_ARRIVAL: a key-routed payload updates the bin it names at its target (R208, R209). -/
def execKsendArrival (id : Nat) (s : State) : Out :=
  .next <| match msgOf s id with
    | none => s
    | some m =>
      match m.body with
      | .ksend c =>
        if m.guard == .discarded then dropMsg s id
        else if !msgMay s m || !pushSeen s m.src c || !binsSeen s (m.dst.extractLsb' 0 16).toNat then s
        else
          match c.descs with
          | [d] =>
            let u := (m.dst.extractLsb' 0 16).toNat
            let p := ksendPayload (engStart (dropMsg s id) m.src c) d (ksendRow c)
            let e := if p.2.bad then p.2 else binUpdate p.2 u (ksendBin c) d p.1
            if engHolds e then s else engFinish e
          | _ => dropMsg s id
      | _ => s

/-! ## Collectives (R210, R315, R316) -/

/-- The two words of a collective group's entry, as they lie in the table (Table 23-4). -/
def groupEntry (s : State) (g : Nat) : DWord × DWord :=
  (memDWord s.edge (s.collTable + 16 * g), memDWord s.edge (s.collTable + 16 * g + 8))

/-- The words of a group's entry for its round in flight, which a later change does not meet (R316; log 99). -/
def groupWords (s : State) (g : Nat) : DWord × DWord := (smFind g s.rounds).getD (groupEntry s g)

/-- Word 0 of a collective group's entry (Table 23-4). -/
def groupWord (s : State) (g : Nat) : DWord := (groupWords s g).1

/-- A round of a group is in flight from its first `coll` on (R316; log 99). -/
def openRound (s : State) (g : Nat) : State :=
  if (smFind g s.rounds).isSome then s else { s with rounds := smSet g (groupEntry s g) s.rounds }

/-- The fields of a[G] that a `coll` captured. -/
def collField (c : Cmd) (lo len : Nat) : Nat := (((c.regs[0]?).getD 0#64).extractLsb' lo len).toNat

/-- A `coll` of a group is on its way. -/
def collLeft (s : State) (g : Nat) : Bool :=
  s.net.any fun m =>
    match m.body with
    | .coll c => m.guard != .discarded && collField c 0 16 == g
    | _ => false

/-- A `coll` has left: without another of its group, no round of it is in flight. -/
def closeRound (s : State) (g : Nat) : State := if collLeft s g then s else { s with rounds := smErase g s.rounds }

/-- A round has ended: what is left of the group's belongs to the next one, which takes the entry as it now stands. -/
def nextRound (s : State) (g : Nat) : State :=
  if collLeft s g then { s with rounds := smSet g (groupEntry s g) s.rounds } else { s with rounds := smErase g s.rounds }

/-- A `coll` that a guard has discarded is gone. -/
def dropColls (s : State) (g : Nat) : State :=
  closeRound { s with
    net := s.net.filter fun m => !(m.guard == .discarded && match m.body with
      | .coll c => collField c 0 16 == g
      | _ => false) } g

/-- An entry's first word grants its group to a tag: valid, with an algorithm that is not reserved (R315). -/
def wordGrants (w : DWord) (tag : Nat) : Bool := w.msb && (w.extractLsb' 48 8).toNat == tag && (w.extractLsb' 61 2).toNat < 2

/-- The group is granted to the tag. -/
def groupGranted (s : State) (g tag : Nat) : Bool := wordGrants (groupWord s g) tag

/-- Participants that an entry's first word names. -/
def wordParts (w : DWord) : Nat := w.toNat % 256 + 1

/-- Participants of a group, on this module and its peers (R210, R315; log 99). -/
def groupParts (s : State) (g : Nat) : Nat := wordParts (groupWord s g)

/-- Issue of `coll` and `coll.red` (R186, R210). -/
def issueColl (s : State) (f : FColl) (body : Instr) : State :=
  let ga : BitVec 4 := f.r.setWidth 4
  match commandGate s f.g [ga] [f.d, f.s] with
  | some s' => s'
  | none =>
    let d := descAt s f.d
    let r := descAt s f.s
    let g := rdA s ga
    if 1 < (g.extractLsb' 24 8).toNat || d.format != 0 || r.format != 0 || d.rows * d.cols != r.rows * r.cols then
      invalidCommand s
    else
      let c := newCmd s f.g body [d, r] [g]
      finish (if c.guard == .discarded then s
        else openRound (addMsg s (BitVec.ofNat 20 (10 * 2 ^ 16 + s.cur.tile % 2 ^ 16)) c.guard (.coll { c with id := s.nextId }))
          (g.extractLsb' 0 16).toNat)

/-- `coll` (R210). -/
def execColl (f : FColl) (s : State) : Out := .next (issueColl s f (.coll f))

/-- `coll.red` (R210). -/
def execCollRed (f : FColl) (s : State) : Out := .next (issueColl s f (.collRed f))

/-- Peer modules of a group. -/
def groupPeers (s : State) (g : Nat) : Nat := ((groupWord s g).extractLsb' 40 8).toNat

/-- A span port or module of the group's route list is lost (R314). -/
def groupLost (s : State) (g : Nat) : Bool :=
  let list := (groupWords s g).2.toNat
  (upFrom 0 (groupPeers s g)).any fun i =>
    let w := leNat (memRead s.edge (list + 4 * i) 4)
    peerLost s w (w / 2 ^ 16)

/-- The `coll` messages of a group that have arrived, oldest first. -/
def collsOf (s : State) (g : Nat) : List (Msg × Cmd) :=
  s.net.filterMap fun m =>
    match m.body with
    | .coll c => if m.guard == .free && collField c 0 16 == g && msgMay s m && pushSeen s m.src c then some (m, c) else none
    | _ => none

/-- The oldest `coll` of each participant. -/
def firstOf : List (Msg × Cmd) → List (Msg × Cmd)
  | [] => []
  | p :: r => p :: (firstOf r).filter fun q => collField q.2 16 8 != collField p.2 16 8

/-- Two contributions combined, word by word (R97, R210). -/
def combineTwo (op : Nat) (x y : List Word) : List Word :=
  (x.zip y).map fun p => if op == 0 then f32Add .rne p.1 p.2 else f32MinMax true p.1 p.2

/-- Combines contributions two at a time in an order that the manual leaves open (R117, R210; log 7): in a tree any two are next, in a
ring the running sum meets one more. -/
def combine (op : Nat) (tree : Bool) (draw : Nat) : Nat → List (List Word) → List Word
  | 0, l => (l[0]?).getD []
  | fuel + 1, l =>
    match l with
    | [] => []
    | [x] => x
    | l =>
      let i := if tree then Config.combineOrder (draw + 2 * fuel) % l.length else 0
      let r := l.eraseIdx i
      let j := Config.combineOrder (draw + 2 * fuel + 1) % r.length
      combine op tree draw fuel (combineTwo op ((l[i]?).getD []) ((r[j]?).getD []) :: r.eraseIdx j)

/-- The words of an FP32 tensor in row-major order. -/
def tensorWords (e : Eng) (d : Desc) : List Word × Eng :=
  (upFrom 0 d.rows).foldl (fun (acc : List Word × Eng) i =>
    let r := engRead acc.2 d.space (rowAddr d i) (4 * d.cols)
    (acc.1 ++ (upFrom 0 d.cols).map fun j => BitVec.ofNat 32 (codeAt 32 r.1 j), r.2)) ([], e)

/-- Writes words over an FP32 tensor in row-major order. -/
def putTensor (e : Eng) (d : Desc) (ws : List Word) : Eng :=
  (upFrom 0 d.rows).foldl (fun e i =>
    engWrite e d.space (rowAddr d i) (((ws.drop (i * d.cols)).take d.cols).flatMap fun w => leBytes w.toNat 4)) e

/-- Reads the contribution of every participant of this module: the contributions, whether one could not be read, and the
state with the faults logged; `none` while one must wait. -/
def readColls : List (Msg × Cmd) → State → Option (List (List Word) × Bool × State)
  | [], s => some ([], false, s)
  | (m, c) :: r, s =>
    match c.descs with
    | [_, src] =>
      let x := tensorWords (engStart s m.src c) src
      if engHolds x.2 then none
      else (readColls r (engFinish { x.2 with bad := false })).map fun p => (x.1 :: p.1, x.2.bad || p.2.1, p.2.2)
    | _ => readColls r s

/-- Writes the result of a round where it goes: everywhere, or at the root (R210). -/
def writeColls (ws : List Word) : List (Msg × Cmd) → State → Option State
  | [], s => some s
  | (m, c) :: r, s =>
    match c.descs with
    | [d, _] =>
      let toRoot := match c.body with
        | .collRed _ => true
        | _ => false
      if toRoot && collField c 16 8 != collField c 32 8 then writeColls ws r (dropMsg s m.id)
      else
        let e := putTensor (engStart (dropMsg s m.id) m.src c) d ws
        if engHolds e then none else writeColls ws r (engFinish e)
    | _ => writeColls ws r (dropMsg s m.id)

/-- Every `coll` of a list fails with a reason, and no tD is written (R210). -/
def failColls (reason : Byte) : List (Msg × Cmd) → State → Option State
  | [], s => some s
  | (m, c) :: r, s =>
    if taskStopped s m.src c || 256 ≤ (tileOf s m.src).replay.length then none
    else failColls reason r (failCommand (dropMsg s m.id) m.src c reason)

/-- The group's ALG is 1, a tree of partials, and not 0, a ring of them (Table 23-4). -/
def groupTree (s : State) (g : Nat) : Bool := (groupWord s g).extractLsb' 61 2 == 1#2

/-- How many free values a round draws. -/
def roundDraws (xs : List (List Word)) (peers : List Partial) : Nat := 2 * xs.length + 2 * peers.length + 3

/-- The words that a round gives: this module's contributions combined first, then its partial with those of the peers by ALG, from
any of them on, so that no module's partial has a place of its own and every module can reach the same sum (R316; log 7). -/
def roundWords (op : Nat) (tree : Bool) (draw : Nat) (xs : List (List Word)) (peers : List Partial) : List Word :=
  let all := combine op true draw xs.length xs :: peers.map (·.words)
  let k := Config.combineOrder (draw + 2 * xs.length) % all.length
  combine op tree (draw + 2 * xs.length + 1) all.length (all.drop k ++ all.take k)

/-- A line that a host agent may hold of what a round writes (R256). -/
def roundAwaits (s : State) (ps : List (Msg × Cmd)) : Option Nat :=
  ps.findSome? fun p =>
    match p.2.descs with
    | d :: _ => engAwaitsHost (engStart s p.1.src p.2) d
    | [] => none

/-- The notice of a `coll` that has completed waits behind the results at its tile's input (R62). -/
def noticeColl (s : State) (p : Msg × Cmd) : State :=
  match p.2.descs with
  | d :: _ => if (tileOf s p.1.src).efWait.isEmpty then s else addNotice s p.1.src p.2.id (pathOf p.1.src d)
  | [] => s

/-- A round whose participants are all there (R316). -/
def runRound (s : State) (g : Nat) (ps : List (Msg × Cmd)) (peers : List Partial) : State :=
  match roundAwaits s ps with
  | some line => askBack s line
  | none =>
    match readColls ps s with
    | none => s
    | some (xs, bad, s1) =>
      if bad then ((failColls 0x06#8 ps s1).map fun s2 => nextRound s2 g).getD s
      else
        let op := match ps with
          | (_, c) :: _ => collField c 24 8
          | [] => 0
        let ws := roundWords op (groupTree s g) s1.freeIdx xs peers
        ((writeColls ws ps { s1 with freeIdx := s1.freeIdx + roundDraws xs peers }).map fun s2 => nextRound (ps.foldl noticeColl s2) g).getD s

/-- The participants that have issued, on this module and behind the partials of its peers. -/
def roundCount (ps : List (Msg × Cmd)) (peers : List Partial) : Nat := ps.length + (peers.map (·.parts)).sum

/-- COLLECTIVE_ROUND_COMPLETE: a round of a group completes with the partials that its peer modules sent, once every participant
has issued, or a `coll` that may not join one fails (R210, R314-R316). -/
def execCollectiveRoundComplete (g : Nat) (peers : List Partial) (s : State) : Out :=
  .next <|
    let s0 := dropColls s g
    let all := collsOf s0 g
    match all.find? fun p => !groupGranted s0 g p.1.tag || groupParts s0 g ≤ collField p.2 16 8 with
    | some p => ((failColls 0x03#8 [p] s0).map fun s1 => closeRound s1 g).getD s0
    | none =>
      let ps := firstOf all
      if ps.isEmpty then s0
      else if groupLost s0 g then ((failColls 0x04#8 ps s0).map fun s1 => nextRound s1 g).getD s0
      else if peers.length == groupPeers s0 g && roundCount ps peers == groupParts s0 g then runRound s0 g ps peers
      else s0

/-! ## Generic engine commands (R211-R214) -/

/-- `eng.k` (R211). -/
def execEngK (f : FEngK) (s : State) : Out :=
  .next <|
    let sa : BitVec 4 := f.s.setWidth 4
    match (regGate s [sa] []).orElse fun _ => orderGate s with
    | some s' => s'
    | none =>
      let v := rdA s sa
      let w : Word := if f.h == 1#1 then v.extractLsb' 32 32 else v.setWidth 32
      let k := curTask s
      finish (setCurTask s { k with k := k.k.set (f.n.toNat % 4) w (Nat.mod_lt _ (by decide)) })

/-- The destination names an engine that `eng.go` may address (R212). -/
def engGoTarget (d : BitVec 20) : Bool :=
  let sel := (d.extractLsb' 16 4).toNat
  (1 ≤ sel && sel ≤ 5) || sel == 9 || sel == 10 || (sel == 15 && (d.extractLsb' 0 3 == 2#3 || d.extractLsb' 0 3 == 3#3))

/-- `eng.go` sends k0-k3 to an engine (R212). -/
def execEngGo (f : FEngGo) (s : State) : Out :=
  .next <|
    let da : BitVec 4 := f.d.setWidth 4
    match commandGate s f.g [da] [] with
    | some s' => s'
    | none =>
      let dst : BitVec 20 := (rdA s da).setWidth 20
      if !engGoTarget dst then invalidCommand s
      else
        let g := bindGuard s f.g
        let k := (curTask s).k
        finish (if g == .discarded then s else addMsg s dst g (.engGo k[0] k[1] k[2] k[3] (f.r == 1#1)))

/-- The opcode that each selector's engine accepts (Table 13-9). DEDUCED (log 119): an edge collective engine, selector 15 function 3,
accepts what the collective engine does. -/
def acceptsOp (dst : BitVec 20) (op : Nat) : Bool :=
  match (dst.extractLsb' 16 4).toNat with
  | 1 => op == 0xc0
  | 2 => op == 0xc8 || op == 0xc9
  | 3 => op == 0xd0 || op == 0xd1
  | 4 => op == 0xd8
  | 5 => op == 0xe0
  | 9 => op == 0xe8
  | 10 => op == 0xf0
  | _ => if dst.extractLsb' 0 3 == 2#3 then op == 0xf8 else op == 0xf0

/-- An `eng.go` message meets the cohort rule or the Kerb (R16, R17, R212, R304): the refusal, if any. -/
def engGoRefused (s : State) (m : Msg) : Option Code :=
  let sel := (m.dst.extractLsb' 16 4).toNat
  let u := (m.dst.extractLsb' 0 16).toNat
  if sel == 4 then
    if (upFrom 0 4).any fun i => sameCohort s m.src (tileAt (quadOf u) i) then none else some .peerGone
  else if sel ≤ 3 then (if u == m.src || sameCohort s m.src u then none else some .peerGone)
  else if sel == 15 then
    let ep := u % 256
    let present := m.dst.extractLsb' 8 8 == 0#8 && (ep % 8 != 3 || ep / 8 % 2 == 1)
    if present && granted s m.tag ep then none else some .kerbRefused
  else if kerbTile s m.tag u || (8 ≤ sel && kerbDie s m.tag (dieOf u)) then none
  else some .kerbRefused

/-- The reply words travel to the issuing tile's ef (R62, R212). -/
def sendReply (s : State) (t : Nat) (reply : Bool) (ws : List Word) : State :=
  if reply then
    let tl := tileOf s t
    setTile s t { tl with efWait := tl.efWait ++ ws.map .word }
  else s

/-- An `eng.go` message with one of these opcodes reaches its engine, which acts and replies (R212, R213). -/
def engGoArrives (s : State) (id : Nat) (op : Nat) (act : State → Msg → Nat → Word → Word → List Word × State) : State :=
  match msgOf s id with
  | none => s
  | some m =>
    match m.body with
    | .engGo k0 k1 k2 _ reply =>
      if k0.toNat % 256 != op || !acceptsOp m.dst op then s
      else if m.guard == .discarded then dropMsg s id
      else if !msgMay s m then s
      else
        match engGoRefused s m with
        | some c => refuseMsg s m c 0#3 0#3 0#256
        | none =>
          let r := act (dropMsg s id) m (m.dst.extractLsb' 0 16).toNat k1 k2
          sendReply r.2 m.src reply r.1
    | _ => s

/-- Copies in flight on a path. -/
def pathCount (tl : Tile) (t : Nat) (p : Space) : Nat :=
  (tl.copies.filter fun c => !c.landed && c.cmd.guard != .discarded &&
    match c.cmd.descs with
    | d :: _ => pathOf t d == p
    | [] => false).length

/-- STREAM_ENGINE_QUERY: copies in flight on sp, pr, ql, gl (R213). -/
def execStreamEngineQuery (id : Nat) (s : State) : Out :=
  .next (engGoArrives s id 0xc0 fun s _ u _ _ =>
    ([Space.sp, .pr, .ql, .gl].map fun p => BitVec.ofNat 32 (pathCount (tileOf s u) u p), s))

/-- CTR_READ: DET, then REP (R195, R213). -/
def execCtrRead (id : Nat) (s : State) : Out :=
  .next (engGoArrives s id 0xc8 fun s _ u _ _ => ([(tileOf s u).det, (tileOf s u).rep], s))

/-- CTR_CLEAR (R213). -/
def execCtrClear (id : Nat) (s : State) : Out :=
  .next (engGoArrives s id 0xc9 fun s _ u _ _ => ([0#32], setTile s u { tileOf s u with det := 0#32, rep := 0#32 }))

/-- DROP_READ (R213). -/
def execDropRead (id : Nat) (s : State) : Out :=
  .next (engGoArrives s id 0xd0 fun s _ u _ _ => ([(tileOf s u).drop], s))

/-- DROP_CLEAR (R213). -/
def execDropClear (id : Nat) (s : State) : Out :=
  .next (engGoArrives s id 0xd1 fun s _ u _ _ => ([0#32], setTile s u { tileOf s u with drop := 0#32 }))

/-- QUAD_UNIT_QUERY: the issuing tile's queued long and chain commands (R213). -/
def execQuadUnitQuery (id : Nat) (s : State) : Out :=
  .next (engGoArrives s id 0xd8 fun s m _ _ _ =>
    let tl := tileOf s m.src
    ([BitVec.ofNat 32 (tl.longq.length + (tl.chainq.filter (·.guard != .discarded)).length)], s))

/-- What the Crossing of cluster `cl` has merged since cohort start: of the asking tile's cohort at its own Crossing, of every cohort
of its cluster at another one (R213; log 100). -/
def mergedAt (s : State) (t cl : Nat) : Nat :=
  if cl == clusterOf t then
    match cohortOf s t with
    | some (_, c, _) => c.merged
    | none => 0
  else ((s.cohorts.filter fun e => e.2.cluster == cl).map fun e => e.2.merged).sum

/-- MERGE_READ: requests that the Crossing named has merged since cohort start (R15, R213). -/
def execMergeRead (id : Nat) (s : State) : Out :=
  .next (engGoArrives s id 0xe0 fun s m u _ _ => ([BitVec.ofNat 32 (mergedAt s m.src (clusterOf u))], s))

/-- The PROBE word of a translation (R214). -/
def probeWord (e : TlbEntry) : Word :=
  let b (x : Bool) (i : Nat) : Nat := if x then 2 ^ i else 0
  BitVec.ofNat 32 (1 + b e.r 1 + b e.w 2 + b e.x 3 + e.size * 16 + e.ty.toNat * 256)

/-- PROBE: the translation that the issuing task's accesses would use, in run B of a replica launch that of the shadow; it fills the
TLB as a walk does (R214, R282). -/
def execProbe (id : Nat) (s : State) : Out :=
  .next (engGoArrives s id 0xe8 fun s m u k1 k2 =>
    let said : DWord := ((k2.setWidth 25 : BitVec 25) ++ k1).setWidth 64
    let va := replicaVa (replicaOf s m.src said) said
    match tlbFind s (dieOf u) m.tag va with
    | some e => ([probeWord e], s)
    | none =>
      match walk s m.tag va with
      | some e => ([probeWord e], tlbPut s (dieOf u) e)
      | none => ([0#32], s))

/-- GROUP_INFO: participants of a group, 0 where it is not granted (R213). -/
def execGroupInfo (id : Nat) (s : State) : Out :=
  .next (engGoArrives s id 0xf0 fun s m _ k1 _ =>
    let g := k1.toNat % 65536
    let w := (groupEntry s g).1
    ([if k1.toNat < 65536 && wordGrants w m.tag then BitVec.ofNat 32 (wordParts w) else 0#32], s))

/-- STREAM_INFO: bytes queued of a stream, all ones where it is not granted (R213; log 19 where producers lie outside the
tiles). -/
def execStreamInfo (id : Nat) (s : State) : Out :=
  .next (engGoArrives s id 0xf8 fun s m _ k1 _ =>
    let stream := k1.toNat
    if !streamGranted s stream m.tag then ([0xffffffff#32], s)
    else if (grantAt s stream).prods.any fun p => p / 2 ^ 30 != 1 then
      ([Config.streamQueued s.freeIdx], { s with freeIdx := s.freeIdx + 1 })
    else
      let left (it : StreamItem) : Nat := if it.stream == stream then it.bytes.length - smGet 0 m.src it.given else 0
      ([BitVec.ofNat 32 ((s.streamQ.map left).foldl (· + ·) 0)], s))

/-- ENG_GO_UNACCEPTED: an engine answers any other opcode with all ones where a reply is asked for (R213). -/
def execEngGoUnaccepted (id : Nat) (s : State) : Out :=
  .next <| match msgOf s id with
    | none => s
    | some m =>
      match m.body with
      | .engGo k0 _ _ _ reply =>
        if acceptsOp m.dst (k0.toNat % 256) then s
        else if m.guard == .discarded then dropMsg s id
        else if !msgMay s m then s
        else
          match engGoRefused s m with
          | some c => refuseMsg s m c 0#3 0#3 0#256
          | none => sendReply (dropMsg s id) m.src reply [0xffffffff#32]
      | _ => s

/-- The notice of a command completes it: a multicast ends, and what else waited for the notice need wait no longer (R62, R197). -/
def takeNotice (s : State) (t id : Nat) : State :=
  let l := (tileOf s t).copies
  match ((upFrom 0 l.length).zip l).find? fun p => p.2.cmd.id == id with
  | some (i, c) => copyDone s t i c
  | none => s

/-- ENGINE_REPLY: the oldest result waiting at a tile's input enters ef, where ef has room, or the oldest notice there completes
its command (R62). A reply to a task that has been suspended meanwhile stays at the input and enters ef when it can, whichever
task then runs (log 101). -/
def execEngineReply (t : Nat) (s : State) : Out :=
  .next <|
    let tl := tileOf s t
    match tl.efWait with
    | .word w :: r => if tl.ef.length < 16 then setTile s t { tl with efWait := r, ef := tl.ef ++ [w] } else s
    | .notice id _ :: r => takeNotice (setTile s t { tl with efWait := r }) t id
    | [] => s

end Sys2Proof.Machine
end

