-- ==== Sys2Proof/Machine/Image.lean ====
section
/-! DEFINITION. The bytes of replay entries, frames and context save areas as edge memory holds them (Tables 1-9, 21-2 and 21-4,
R286, R291, R297), and the fields of a frame that system software may rewrite there (R292). Where a table gives a block and not
the places of its fields, they are packed in the order in which it lists them (log 29). -/

namespace Sys2Proof.Machine

/-! ## Fields -/

/-- A field of an image: its offset, its bytes, its value. -/
structure Field where
  at_ : Nat
  len : Nat
  val : Nat

/-- Fields of one length that follow one another from an offset, `step` bytes apart. -/
def fieldRow (at_ step len : Nat) (vs : List Nat) : List Field := ((upFrom 0 vs.length).zip vs).map fun p => ⟨at_ + step * p.1, len, p.2⟩

/-- Moves fields up by `n` bytes. -/
def shiftFields (n : Nat) (fs : List Field) : List Field := fs.map fun f => { f with at_ := f.at_ + n }

/-- A memory with fields written. -/
def putFields (m : Mem) (fs : List Field) : Mem := fs.foldl (fun m f => memWrite m f.at_ (leBytes f.val f.len)) m

/-- A bit of an image. -/
def bitAt (b : Bool) (i : Nat) : Nat := if b then 2 ^ i else 0

/-- A number whose bits are those of a list, the first lowest. -/
def bitsNat (l : List Bool) : Nat := (((upFrom 0 l.length).zip l).map fun p => bitAt p.2 p.1).sum

/-! ## Records (Tables 1-9, 13-3, 21-2) -/

/-- The 64 bytes of a replay entry, as doublewords and DATA (Table 21-2). -/
def entryFields (e : ReplayEntry) : List Field :=
  [⟨0x00, 8, e.ea.toNat⟩,
    ⟨0x08, 8, e.action.toNat * 2 ^ 56 + e.info.toNat * 2 ^ 48 + e.slot % 256 * 2 ^ 40 + e.dest.toNat * 2 ^ 35 + e.width.toNat * 2 ^ 32 +
      spaceNum e.space * 2 ^ 28 + e.op.toNat * 2 ^ 16 + e.kind.toNat * 2 ^ 8 + codeNum e.code⟩,
    ⟨0x10, 8, e.pc.toNat⟩, ⟨0x18, 32, e.data.toNat⟩, ⟨0x38, 8, e.data2.toNat⟩]

/-- The 64 bytes of a replay entry. -/
def entryImage (e : ReplayEntry) : List Byte := (entryFields e).flatMap fun f => leBytes f.val f.len

/-- The offset of replay entry `i` in a frame: the queue of 32, then the overflow of 224 (Table 21-4). -/
def entryPlace (i : Nat) : Nat := if i < 32 then 0x900 + 64 * i else 0xc200 + 64 * (i - 32)

/-- The replay entries of a frame or tile block. -/
def replayFields (es : List ReplayEntry) : List Field :=
  (((upFrom 0 256).zip es).map fun p => shiftFields (entryPlace p.1) (entryFields p.2)).flatten

/-- The 64 bytes of a continuation record at an offset (Table 1-9). -/
def recField (at_ : Nat) (r : Rec) : Field := ⟨at_, 64, leNat (recBytes r)⟩

/-- The 32 bytes of a descriptor (Table 13-3), with a state code in bits 6:5 of the first doubleword, which the table reserves. -/
def descImage (d : Desc) (state : Nat) : Nat :=
  (d.cols % 65536 * 2 ^ 48 + d.rows % 65536 * 2 ^ 32 + d.block % 256 * 2 ^ 24 + state * 2 ^ 5 + d.format % 32) +
    (spaceNum d.space % 4 * 2 ^ 62 + d.base % 2 ^ 62) * 2 ^ 64 + (d.stride % 2 ^ 32) * 2 ^ 128 + (d.scale % 2 ^ 62) * 2 ^ 192

/-- An entry of the tensor-identifier table: 0 invalid, 1 valid, 2 pending, 3 poisoned. -/
def tensorImage (e : TEntry) : Nat :=
  match e with
  | .invalid => 0
  | .valid d => descImage d 1
  | .pending _ => 2 * 2 ^ 5
  | .poisoned _ ea => 3 * 2 ^ 5 + ea.toNat % 2 ^ 62 * 2 ^ 64

/-- A guard: its slot and generation, with bit 15 set while it is bound. -/
def guardImage (g : Guard) : Nat :=
  match g with
  | .bound slot gen => 2 ^ 15 + gen % 4096 * 8 + slot % 8
  | _ => 0

/-- The 128 bytes of a command: its word, its guard, its bundle, three descriptors, and its registers: two doublewords, or four words
where it captured more. -/
def cmdFields (c : Cmd) : List Field :=
  [⟨0, 4, (encode c.body).toNat⟩, ⟨4, 2, guardImage c.guard⟩, ⟨6, 2, ((c.regs[4]?).getD 0#64).toNat⟩, ⟨8, 8, c.pc.toNat⟩] ++
    fieldRow 16 32 32 ((c.descs.take 3).map fun d => descImage d 1) ++
    if c.regs.length ≤ 2 then fieldRow 112 8 8 (c.regs.map (·.toNat)) else fieldRow 112 4 4 ((c.regs.take 4).map (·.toNat))

/-- Commands that follow one another from an offset. -/
def cmdRow (at_ : Nat) (cs : List Cmd) : List Field :=
  (((upFrom 0 cs.length).zip cs).map fun p => shiftFields (at_ + 128 * p.1) (cmdFields p.2)).flatten

/-- A slab of bl or the ring buffer: its bytes, its descriptor, k0, its depth, and whether it is there. -/
def slabFields (at_ : Nat) (b : Option Slab) : List Field :=
  match b with
  | none => []
  | some b =>
    (b.bytes.map fun c => ⟨at_ + c.1 % 1280, 1, c.2.toNat⟩) ++
      [⟨at_ + 1280, 32, descImage b.desc 1⟩, ⟨at_ + 1312, 4, b.k0⟩, ⟨at_ + 1316, 4, b.depth⟩, ⟨at_ + 1320, 1, 1⟩]

/-! ## A task's part of a block (Table 21-4), by offsets from 0x3_0000 -/

/-- Status bits of an lq entry: reserved, arrived, poisoned. -/
def lqStatus (f : LqFill) : Nat :=
  match f with
  | .waiting _ => 1
  | .data _ => 3
  | .poisoned _ _ => 7

/-- Contents of an lq entry. -/
def lqValue (f : LqFill) : Nat :=
  match f with
  | .data v => v.toNat
  | _ => 0

/-- The entries of lq0 or lq1, each at its index: 32 bytes and 4 of status. -/
def lqFields (at_ : Nat) (q : List LqEntry) : List Field :=
  q.flatMap fun e => [⟨at_ + 36 * (e.idx % 8), 32, lqValue e.fill⟩, ⟨at_ + 36 * (e.idx % 8) + 32, 4, lqStatus e.fill⟩]

/-- The registers and queues of a task. -/
def taskFields (k : Task) (logged : Nat) : List Field :=
  let regs := k.a.toList
  let loop (at_ : Nat) (l : Loop) : List Field :=
    [⟨at_, 8, l.start.toNat / 8 * 8 + bitAt l.active 0⟩, ⟨at_ + 8, 8, l.last.toNat⟩, ⟨at_ + 16, 4, l.count.toNat⟩, ⟨at_ + 20, 4, l.val.toNat⟩]
  [⟨0x000, 8, k.gtid.toNat⟩, ⟨0x008, 1, k.slip⟩, ⟨0x009, 1, bitAt k.long 0⟩, ⟨0x00a, 1, bitAt k.xpushed 0⟩, ⟨0x00c, 2, logged⟩,
      ⟨0x014, 2, bitsNat (regs.map fun r => r.st.isPending)⟩,
      ⟨0x016, 2, bitsNat (regs.map fun r => match r.st with
        | .poisoned _ _ => true
        | _ => false)⟩] ++
    fieldRow 0x048 8 8 ((regs.drop 1).map (·.val.toNat)) ++ fieldRow 0x0c0 4 4 (k.k.toList.map (·.toNat)) ++
    loop 0x0d0 k.lc[0] ++ loop 0x0e8 k.lc[1] ++ fieldRow 0x104 4 4 ((k.g.toList.drop 1).map (·.toNat)) ++
    [⟨0x1c0, 1, bitsNat (true :: k.p.toList.drop 1)⟩, ⟨0x1c4, 4, k.acc.toNat⟩, ⟨0x1c8, 8, k.pc.toNat⟩, ⟨0x1d0, 8, k.slip % 32 * 2 ^ 8 + bitAt k.long 6 + k.rm.toNat⟩,
      ⟨0x1dc, 4, k.redq.toNat⟩, ⟨0x1e0, 4, k.lfsr.toNat⟩] ++
    [⟨0x200, 32, k.latchA.v.toNat⟩, ⟨0x220, 32, k.latchB.v.toNat⟩] ++ fieldRow 0x240 32 32 (k.v.toList.map (·.toNat)) ++
    fieldRow 0x440 8 8 ((k.xinstr.take 16).map fun e =>
      (encode e.x).toNat % 2 ^ 30 + bitAt e.hb 30 + bitAt e.ha 31 + e.ext.toNat * 2 ^ 32) ++
    lqFields 0x4c0 k.lq0 ++ lqFields 0x5e0 k.lq1 ++ fieldRow 0x700 32 32 (k.sq.map (·.toNat)) ++
    fieldRow 0x800 8 8 (k.xq.map (·.toNat)) ++ [⟨0x820, 1, k.sq.length⟩, ⟨0x821, 1, k.xq.length⟩] ++
    slabFields 0x2800 k.bl ++ slabFields 0x3000 k.ring ++
    ((upFrom 0 4).zip k.m.toList).flatMap (fun p => p.2.map fun e => ⟨0x4000 + 4096 * p.1 + 4 * (e.1 % 1024), 4, e.2.toNat⟩) ++
    fieldRow 0x8000 512 512 (k.w.toList.map (·.toNat))

/-- The generations of a guard slot: its newest, and the resolved and the true ones of its last ten. -/
def slotFields (at_ : Nat) (g : GuardSlot) : List Field :=
  [⟨at_, 4, g.newest⟩, ⟨at_ + 4, 2, bitsNat (g.hist.map (·.isSome))⟩, ⟨at_ + 6, 2, bitsNat (g.hist.map fun x => x == some true)⟩]

/-- The bytes of fields that end before offset `n`. -/
def fieldBytes (n : Nat) (fs : List Field) : List Byte := memRead (putFields [] fs) 0 n

/-- The 64 bytes of a held access: its address, space, width, order, guard, bundle and operands. -/
def accBytes (a : Access) : List Byte :=
  fieldBytes 64 [⟨0, 8, a.ea.toNat⟩, ⟨8, 1, spaceNum a.space⟩, ⟨9, 1, a.n⟩, ⟨10, 1, a.ord.toNat⟩, ⟨12, 2, guardImage a.guard⟩,
    ⟨16, 8, a.pc.toNat⟩, ⟨24, 32, a.data.toNat⟩, ⟨56, 8, a.data2.toNat⟩]

/-- What a message carries. -/
def bodyBytes (b : Body) : List Byte :=
  match b with
  | .inbox bs => bs
  | .streamer bs w r => bs ++ leBytes w.toNat 4 ++ leBytes r.toNat 8
  | .eos st w r => leBytes st.toNat 4 ++ leBytes w.toNat 4 ++ leBytes r.toNat 8
  | .put r v => leBytes r 1 ++ leBytes v.toNat 4
  | .ksend c | .coll c => fieldBytes 128 (cmdFields c)
  | .engGo k0 k1 k2 k3 reply => [k0, k1, k2, k3].flatMap (fun w => leBytes w.toNat 4) ++ leBytes (bitAt reply 0) 1
  | .wake x a => leBytes (spaceNum x) 1 ++ leBytes a.toNat 8

/-- A held message: its destination, channel, length, guard and bundle, and what it carries. -/
def msgBytes (m : Msg) : List Byte :=
  let bs := bodyBytes m.body
  fieldBytes 24 [⟨0, 8, m.dst.toNat⟩, ⟨8, 1, m.chan⟩, ⟨10, 2, bs.length⟩, ⟨12, 2, guardImage m.guard⟩, ⟨16, 8, m.pc.toNat⟩] ++ bs

/-- A held copy, and its follow-on after it. -/
def copyBytes (c : Copy) : List Byte :=
  fieldBytes 128 (cmdFields c.cmd) ++ match c.follow with
    | some f => fieldBytes 128 (cmdFields f)
    | none => []

/-- The guard slots, and what a guard holds of accesses, messages and copies, one after the other as far as the block reaches
(log 29). -/
def heldFields (k : Task) (accs : List Access) (msgs : List Msg) (copies : List Copy) : List Field :=
  let bs := (accs.flatMap accBytes ++ msgs.flatMap msgBytes ++ copies.flatMap copyBytes).take 0x1fc0
  ((upFrom 0 8).zip k.gd.toList).flatMap (fun p => slotFields (0xa000 + 8 * p.1) p.2) ++ [⟨0xa040, bs.length, leNat bs⟩]

/-! ## Frames (R291, R292) -/

/-- Bytes of a frame. -/
def frameSize : Nat := 0x10000

/-- The fields of a frame but for its CRC-32C; what Table 21-4 marks as cohort state or tile state is zero. -/
def frameFields (f : Frame) : List Field :=
  taskFields f.task f.replay.length ++ replayFields f.replay ++ cmdRow 0x3800 (f.matq.take 16) ++ cmdRow 0x9400 (f.chainq.take 16) ++
    heldFields f.task f.held f.heldMsgs f.copies ++ [⟨0x1d8, 4, f.vshare.toNat⟩]

/-- A frame with every editable field at one value, over which its CRC-32C is taken (R292). -/
def unedited (f : Frame) : Frame :=
  let k := f.task
  { f with
    task := { k with
      a := k.a.map fun r => { r with val := 0#64 }
      g := Vector.replicate 48 0#32
      p := Vector.replicate 8 false
      acc := 0#32, rm := 0#3, lfsr := 0#32, pc := 0#64 }
    replay := f.replay.map fun e => { e with action := 0#4, data := if e.action == 2#4 then 0#256 else e.data } }

/-- The CRC-32C that the tile keeps of a frame. -/
def frameCrc (f : Frame) : Word := crc32c (memRead (putFields [] (frameFields (unedited f))) 0 frameSize)

/-- The bytes of a frame. -/
def frameImage (f : Frame) : Mem := putFields [] (⟨0x010, 4, f.crc.toNat⟩ :: frameFields f)

/-- The bytes that edge memory holds from an address on, by their offsets. -/
def regionMem (s : State) (addr n : Nat) : Mem := (memSlice s.edge addr n).map fun c => (c.1 - addr, c.2)

/-- Writes an image over a region of edge memory, whose granules make their checks anew (R342, R343). -/
def putRegion (s : State) (addr n : Nat) (img : Mem) : State :=
  { (dropResv s addr n) with
    edge := img.foldl (fun m c => memSet m (addr + c.1 % n) c.2) (memClear s.edge addr n)
    damage := s.damage.filter fun d => !meetsGranule (.gl (.edge addr) 0#2) n d }

/-- A line of a region that keeps a write back at its home (R256). -/
def regionHeld (s : State) (addr n : Nat) : Option Nat :=
  if (s.ports.all fun p => p.2.cached.isEmpty) && s.homeQ.isEmpty then none else homeLine s addr n

/-- The number that `n` bytes of an image hold. -/
def numAt (m : Mem) (o n : Nat) : Nat := leNat (memRead m o n)

/-- A task with a1-a15, g1-g47, p1-p7, acc, the low bits of cr.mode, cr.lfsr and the PC as an image holds them. -/
def readTask (m : Mem) (k : Task) : Task :=
  let ps := numAt m 0x1c0 1
  { k with
    a := Vector.ofFn fun i : Fin 16 => if i == 0 then k.a[i] else { k.a[i] with val := BitVec.ofNat 64 (numAt m (0x40 + 8 * i.val) 8) }
    g := Vector.ofFn fun i : Fin 48 => if i == 0 then k.g[i] else BitVec.ofNat 32 (numAt m (0x100 + 4 * i.val) 4)
    p := Vector.ofFn fun i : Fin 8 => if i == 0 then k.p[i] else ps.testBit i.val
    acc := BitVec.ofNat 32 (numAt m 0x1c4 4)
    rm := BitVec.ofNat 3 (numAt m 0x1d0 1)
    lfsr := BitVec.ofNat 32 (numAt m 0x1e0 4)
    pc := BitVec.ofNat 64 (numAt m 0x1c8 8) }

/-- A frame with its editable fields as edge memory holds them: those of `readTask`, the ACTION of each replay entry, and DATA of
those to be supplied (R292; log 27). -/
def readFrame (m : Mem) (f : Frame) : Frame :=
  { f with
    task := readTask m f.task
    replay := ((upFrom 0 f.replay.length).zip f.replay).map fun p =>
      let o := entryPlace p.1
      let act := BitVec.ofNat 4 (numAt m (o + 0x0f) 1)
      { p.2 with action := act, data := if act == 2#4 then BitVec.ofNat 256 (numAt m (o + 0x18) 32) else p.2.data } }

/-- Every byte of a frame but the editable ones is as the tile wrote it, the CRC-32C in the header among them: the check of the
CRC-32C then holds (R292; log 30). -/
def frameIntact (m : Mem) (f : Frame) : Bool := frameImage (readFrame m f) == m

/-- A frame of edge memory as it stands there, with its editable fields. -/
def frameNow (s : State) (addr : DWord) (f : Frame) : Frame := readFrame (regionMem s addr.toNat frameSize) f

/-- The frame at an address cannot be trusted: it fails its CRC-32C, or a granule of it is damaged (R292, R344). -/
def frameSpoilt (s : State) (addr : DWord) (f : Frame) : Bool :=
  !f.crcOk || !frameIntact (regionMem s addr.toNat frameSize) f || s.damage.contains (.frame addr.toNat) ||
    damaged s (.gl (.edge addr.toNat) 0#2) frameSize

/-! ## Context save areas (R297) -/

/-- A resident record with its wait cause, in 80 bytes: the record, a cause code with the ready bit, and what the cause names. -/
def residentFields (at_ : Nat) (r : Resident) : List Field :=
  let cause : Nat × Nat := match r.cause with
    | .none => (0, 0)
    | .msg => (1, 0)
    | .join space ea => (2 + 16 * spaceNum space, ea.toNat)
    | .nbar t b p => (3, t % 65536 + b * 2 ^ 16 + p.toNat * 2 ^ 32)
    | .version t o v => (4, t % 65536 + o * 2 ^ 16 + v.toNat * 2 ^ 48)
  [recField at_ r.r, ⟨at_ + 64, 2, cause.1 + bitAt r.ready 15⟩, ⟨at_ + 72, 8, cause.2⟩]

/-- A barrier (Table 15-5). -/
def barImage (b : NBar) : Nat :=
  b.exp.toNat + b.arr.toNat * 2 ^ 16 + b.pend.toNat * 2 ^ 32 + b.phase.toNat * 2 ^ 88 + b.sdet.toNat * 2 ^ 120 + b.srep.toNat * 2 ^ 152 +
    b.lsdet.toNat * 2 ^ 184 + b.lsrep.toNat * 2 ^ 216

/-- A tile's part of its block, by offsets from 0x3_0000: ring channel, landing registers, ef, records, inbox, barriers, counters,
tensor table, queues. -/
def tileFields (tl : Tile) (serial : Nat) : List Field :=
  fieldRow 0x840 4 4 (tl.ri.map (·.toNat)) ++ fieldRow 0x850 4 4 (tl.riNet.map fun v => v.2.toNat) ++
    fieldRow 0x860 4 4 (tl.e.toList.map fun x => (x.getD 0#32).toNat) ++ fieldRow 0x880 4 4 (tl.ef.map (·.toNat)) ++
    [⟨0x8c0, 1, bitsNat (tl.e.toList.map (·.isSome))⟩, ⟨0x8c1, 1, tl.ri.length⟩, ⟨0x8c2, 1, tl.riNet.length⟩, ⟨0x8c3, 1, tl.ef.length⟩,
      ⟨0x1d8, 4, tl.vshare.toNat⟩] ++
    ((upFrom 0 8).zip tl.resident).flatMap (fun p => residentFields (0x1100 + 80 * p.1) p.2) ++
    ((upFrom 0 16).zip tl.deque).map (fun p => recField (0x1380 + 64 * p.1) p.2) ++
    fieldRow 0x1780 8 8 (tl.inbox.toList.map fun x => match x with
      | some m => m.src % 65536 + m.n * 2 ^ 16 + m.order % 2 ^ 28 * 2 ^ 32 + bitAt m.consumed 62 + 2 ^ 63
      | none => 0) ++
    fieldRow 0x17c0 32 32 (tl.nbar.toList.map barImage) ++
    fieldRow 0x1bc0 4 4 ([tl.det, tl.rep, tl.drop, tl.detSnap, tl.repSnap].map (·.toNat) ++ [serial]) ++
    fieldRow 0x2000 32 32 (tl.tt.toList.map tensorImage) ++ replayFields tl.replay ++ cmdRow 0x3800 (tl.matq.take 16) ++
    fieldRow 0x9000 128 16 (tl.longq.map fun c => (encode c.x).toNat + c.a.toNat * 2 ^ 32 + c.b.toNat * 2 ^ 64 + c.rm.toNat * 2 ^ 96) ++
    cmdRow 0x9400 (tl.chainq.take 16) ++ [⟨0x9c00, 8, tl.chainRun.done⟩, ⟨0xc000, 384, tl.guards.toNat⟩]

/-- The block of a tile: scratchpad, task, tile, versions, copies to be reissued. A trapped task has left it for its frame, which the
block names, as far as its header has room. -/
def blockFields (tl : Tile) (serial : Nat) (frames : List Nat) (accs : List Access) (msgs : List Msg) : List Field :=
  (tl.sp.map fun c => (⟨c.1 % 0x30000, 1, c.2.toNat⟩ : Field)) ++
    shiftFields 0x30000 (taskFields tl.task tl.replay.length ++ tileFields tl serial ++ heldFields tl.task accs msgs [] ++
      fieldRow 0x018 8 8 (frames.take 5)) ++
    (tl.ver.map fun c => (⟨0x40000 + c.1 % 0xc000, 1, c.2.toNat⟩ : Field)) ++ cmdRow 0x60000 ((tl.copies.take 1024).map (·.cmd))

/-- The first doubleword of an area: GTID bits 63:16 of its cohort (R297). -/
def headerWord (c : Cohort) : Nat := c.launch % 65536 * 2 ^ 48 + c.index % 2 ^ 32 * 2 ^ 16

/-- The task belongs to the cohort. -/
def inCohort (c : Cohort) (gtid : DWord) : Bool := gtid.toNat / 2 ^ 16 * 2 ^ 16 == headerWord c

/-- The header of an area: GTID bits 63:16 of the cohort, T and S, cluster and quads, the count of logged copies, and the sums of its
open barrier phases (R297, R335). -/
def headerFields (a : Area) : List Field :=
  let c := a.cohort
  [⟨0, 8, headerWord c⟩, ⟨8, 2, c.quads.length⟩, ⟨10, 2, c.size⟩, ⟨12, 2, c.cluster⟩,
      ⟨16, 4, (a.tiles.map fun e => e.2.copies.length).sum⟩] ++
    fieldRow 0x40 1 1 c.quads ++
    ((upFrom 0 32).zip a.sums).flatMap fun p =>
      ⟨0x100 + 68 * p.1, 4, p.2.1⟩ :: fieldRow (0x104 + 68 * p.1) 4 4 (p.2.2.toList.map (·.toNat))

/-- The offset of the first quad image of a cohort of `n` tiles: after its tile blocks, aligned on 1 MiB. -/
def quadImages (n : Nat) : Nat := (0x1000 + n * 0x80000 + 0xfffff) / 0x100000 * 0x100000

/-- Bytes of the area of a cohort. -/
def areaSize (c : Cohort) : Nat := quadImages (cohortTasks c) + c.quads.length * 0x100000

/-- The bytes of an area, the tile blocks in the order of serials, the quad images in team order. -/
def areaImage (s : State) (a : Area) : Mem :=
  let c := a.cohort
  let framesFor (t : Nat) : List Nat := (s.frames.filter fun f => f.2.tile == t && inCohort c f.2.task.gtid).map (·.1)
  let blocks := ((upFrom 0 (cohortTasks c)).zip (cohortTiles c)).flatMap fun p =>
    let tl := smGet Tile.idle p.2 a.tiles
    shiftFields (0x1000 + p.1 * 0x80000) (blockFields tl c.serial (framesFor p.2) (a.accs.filter fun x => x.tile == p.2)
      (a.msgs.filter fun m => m.src == p.2))
  let images := ((upFrom 0 c.quads.length).zip c.quads).flatMap fun p =>
    (smGet [] (c.cluster * 64 + p.2) a.ql).map fun x => (⟨quadImages (cohortTasks c) + p.1 * 0x100000 + x.1 % 0x100000, 1, x.2.toNat⟩ : Field)
  putFields [] (headerFields a ++ blocks ++ images)

/-- A part of an image as a memory of its own. -/
def partOf (m : Mem) (at_ n : Nat) : Mem := (memSlice m at_ n).map fun c => (c.1 - at_, c.2)

/-- A saved tile with its scratchpad, versions, guard bitmap and registers as its block at an offset of the area holds them. -/
def readTile (m : Mem) (at_ : Nat) (tl : Tile) : Tile :=
  { tl with
    sp := partOf m at_ 0x30000
    ver := partOf m (at_ + 0x40000) 0xc000
    guards := BitVec.ofNat 3072 (numAt m (at_ + 0x3c000) 384)
    task := readTask (partOf m (at_ + 0x30000) 0x10000) tl.task }

/-- An area as edge memory holds it: a restore reads the bytes of the scratchpads, versions, guard bitmaps, registers and quad
images there; of the rest it reads what the save wrote (R297; log 29). -/
def areaNow (s : State) (addr : Nat) (a : Area) : Area :=
  let c := a.cohort
  let m := regionMem s addr (areaSize c)
  { a with
    tiles := ((upFrom 0 (cohortTasks c)).zip (cohortTiles c)).foldl (fun ts p =>
      smSet p.2 (readTile m (0x1000 + p.1 * 0x80000) (smGet Tile.idle p.2 ts)) ts) a.tiles
    ql := ((upFrom 0 c.quads.length).zip c.quads).foldl (fun qs p =>
      smSet (c.cluster * 64 + p.2) (partOf m (quadImages (cohortTasks c) + p.1 * 0x100000) 0x100000) qs) a.ql }

end Sys2Proof.Machine
end

