-- ==== Sys2Proof/Machine/Frames.lean ====
section
/-! DEFINITION. Frames: when the execute side has stopped (R69, R70, R175), the writing of a frame and its record (R287,
R288, R291), and the restoring of a task with its replay entries (R184, R292). -/

namespace Sys2Proof.Machine

/-! ## The execute side at a stop -/

/-- The head of a tile's X instruction queue as the acting instruction. -/
def curX (s : State) (t : Nat) (x : XEntry) : State :=
  { s with cur := { tile := t, pc := x.pc, ext := x.ext, opened := 0, pushed := false, went := false, ha := x.ha, hb := x.hb } }

/-- A source position of an X instruction by its shape. -/
def operandOf (k : OperandKind) (c : Option (BitVec 6)) : Operand :=
  match k, c with
  | .none, _ => .absent
  | .imm, _ => .imm 0#32
  | k, some c => .field k c
  | _, none => .absent

/-- What a `vredq.f32` meets that still has elements to add; `none` once cr.redq has reached its count (R175). -/
def vredqMeets (s : State) (f : FVredq) : Option Element :=
  match takeSources s .absent (.field .vreg f.b) with
  | .got s1 _ vb =>
    if (curTask s1).redq.ult (laneOf vb 0) then some (nextElement s1 f.a (f.m == 1#1) (defaultMode s1)).1 else none
  | _ => some .waits

/-- A `vredq.f32` goes no further under a halt: nothing to pop, or a poisoned entry, whose trap is put off (R158, R298). -/
def vredqStands (s : State) (f : FVredq) : Bool :=
  match vredqMeets s f with
  | some .waits | some (.poisoned ..) => true
  | _ => false

/-- The X instruction's mode check fails (R66). -/
def modeFails (k : Task) (i : Instr) : Bool :=
  let sh := xShape i
  let long := sh.d == .long || sh.a == .long || sh.b == .long
  let short := sh.d == .vec || sh.a == .vec || sh.a == .vecAcc || sh.b == .vec || sh.b == .vreg
  (long && !k.long) || (short && k.long)

/-- The destination field of an X instruction (Table 5-3). -/
def destCode (i : Instr) : BitVec 6 := (encode i).extractLsb' 13 6

/-- The guard predicate of an X instruction; `sel` has none (R165). -/
def guardCode (i : Instr) : BitVec 3 :=
  match i with
  | .sel _ => 0#3
  | i => (encode i).extractLsb' 19 3

/-- The destination that an X instruction writes has no room. -/
def destFull (s : State) (i : Instr) : Bool :=
  match (xShape i).d with
  | .scalar => !roomScalar s (destCode i)
  | .vec => !roomVector s (destCode i)
  | .long => !roomLong s
  | _ => false

/-- The X instruction at the head of a tile's queue cannot complete now: a source or its destination keeps it waiting, or
it would trap (R70, R175). -/
def xStands (s : State) (t : Nat) : Bool :=
  match (tileOf s t).task.xinstr with
  | [] => true
  | x :: _ =>
    let s1 := curX s t x
    let k := (tileOf s t).task
    if modeFails k x.x then true
    else
      match x.x with
      | .vredqF32 f => vredqStands s1 f
      | .vmode _ => false
      | i =>
        match takeSources s1 (operandOf (xShape i).a (codeA i)) (operandOf (xShape i).b (codeB i)) with
        | .waits _ => true
        | .trap .. => true
        | .got s2 _ _ => (curTask s2).getP (guardCode i) && destFull s2 i

/-- The execute side has completed the X instructions that run before an access-side trap, or stands at a `vredq.f32` that waits on
an empty source and raises no trap of its own (R69, R155, R175, R285). -/
def trapSettled (s : State) (t : Nat) (i : TrapInfo) : Bool :=
  i.xside ||
    match (tileOf s t).task.xinstr with
    | [] => true
    | x :: _ =>
      match x.x with
      | .vredqF32 f => !modeFails (tileOf s t).task x.x && vredqMeets (curX s t x) f == some .waits
      | _ => false

/-! ## Writing a frame (R291) -/

/-- An `ldv` that has not been performed. -/
def ldvWaits (a : Access) : Bool := isLdv a.op && a.res.isNone

/-- An access that cannot go before what is kept: a guard holds it, or it is an `ldv` whose version has not come, or it stands
behind something kept, or it is a release with something kept before it (R136, R137, R139). -/
def keptAcc (s : State) (kept : List Nat) (a : Access) : Bool :=
  let after (id u : Nat) (h : DWord) : Bool := (releaseScope s a).isSome && id < a.id && sameTask s a.tile a.gtid u h
  a.res.isNone && a.guard != .discarded &&
    (a.guard.isBound || ldvWaits a ||
      (s.accs.any fun b => kept.contains b.id && (holdsBack s a b || after b.id b.tile b.gtid)) ||
      s.net.any fun m => kept.contains m.id && ((chan5 a && msgAhead a m) || after m.id m.src m.gtid))

/-- An access that stands on channel 5 behind a message at the input of its target, or behind a value on the ring (R8, R224). -/
def accStands (s : State) (a : Access) : Bool :=
  a.res.isNone && a.guard != .discarded && chan5 a &&
    (inputBusy s (prTile a.ea) a.id || wordAhead s a.tile (prTile a.ea) a.id)

/-- A message has no room at its target: its inbox is full or closed, its landing register holds a value or takes none (R60, R63,
R224). -/
def noRoom (s : State) (m : Msg) : Bool :=
  let u := (m.dst.extractLsb' 0 16).toNat
  inputBusy s u m.id ||
    match m.body with
    | .inbox _ =>
      match meetInbox s u m.launch with
      | .wait | .full => true
      | _ => placedAway s u m.launch
    | .put reg _ =>
      sameCohort s m.src u && !(takesWords s u && ((tileOf s u).e[reg % 8]'(Nat.mod_lt _ (by decide))).isNone)
    | _ => false

/-- The message comes from a `send`, a release (R223). -/
def isSend (b : Body) : Bool :=
  match b with
  | .inbox _ | .streamer .. | .eos .. => true
  | _ => false

/-- A message that cannot go before what is kept (R55, R139). -/
def keptMsg (s : State) (kept : List Nat) (m : Msg) : Bool :=
  let after (id u : Nat) (h : DWord) : Bool := isSend m.body && id < m.id && sameTask s m.src m.gtid u h
  m.guard != .discarded &&
    (m.guard.isBound ||
      (s.net.any fun b => kept.contains b.id && (msgBehind m b || after b.id b.src b.gtid)) ||
      s.accs.any fun a => kept.contains a.id && (accBehind m a || after a.id a.tile a.gtid))

/-- What cannot go any further, by number: what a frame or a save keeps, to be sent again at the resume, and, under a halt, the messages
that stand in the network for want of room at their targets, or behind such a one. -/
structure Stopped where
  kept : List Nat
  stuck : List Nat
  deriving DecidableEq, Repr

/-- One more access or message, of a number above those looked at, joins what cannot go any further. -/
def Stopped.join (s : State) (halt : Bool) (x : Stopped) (i : Nat) : Stopped :=
  let all := x.kept ++ x.stuck
  if s.accs.any fun a => a.id == i && (keptAcc s all a || (halt && accStands s a)) then { x with kept := i :: x.kept }
  else if s.net.any fun m => m.id == i && keptMsg s x.kept m then { x with kept := i :: x.kept }
  else if halt && s.net.any fun m => m.id == i && (noRoom s m || keptMsg s all m) then { x with stuck := i :: x.stuck }
  else x

/-- What cannot go any further among what is in flight of the tasks that `mine` names by tile and GTID: what a guard holds, and what
stands behind it (R137, R139, R291); under a halt, what stands behind a message without room too (R70). -/
def stoppedOf (s : State) (halt : Bool) (mine : Nat → DWord → Bool) : Stopped :=
  let ids := (s.accs.filter fun a => mine a.tile a.gtid).map (·.id) ++ (s.net.filter fun m => mine m.src m.gtid).map (·.id)
  (sortBy (fun a b : Nat => a ≤ b) ids).foldl (Stopped.join s halt) ⟨[], []⟩

/-- What the frame of a tile's task keeps. -/
def frameKeeps (s : State) (t : Nat) : List Nat := (stoppedOf s false fun u g => sameTask s t (tileOf s t).task.gtid u g).kept

/-- What a tile waits for before it writes the frame of its stopped task (R69, R291): its execute side, its matrix queue
but for held commands, its long queue, a `wext` or `wred` in progress, a slab on its way to the task (R192), and the task's
accesses in flight. -/
def frameReady (s : State) (t : Nat) (i : TrapInfo) : Bool :=
  let tl := tileOf s t
  let kept := frameKeeps s t
  trapSettled s t i && tl.longq.isEmpty && tl.longWait == .none && tl.forwarding.isNone && tl.ringNet.isNone &&
    (match tl.matq with
     | [] => true
     | c :: _ => c.guard.isBound) &&
    !(s.accs.any fun a => sameTask s t tl.task.gtid a.tile a.gtid && !kept.contains a.id)

/-- Splits a queue at the first command of a task that a guard holds: what stays, and what the frame takes. -/
def splitHeld (act : Nat) (cmd : α → Cmd) (q : List α) : List α × List α :=
  let n := (q.takeWhile fun c => !((cmd c).act == act && (cmd c).guard.isBound)).length
  (q.take n ++ (q.drop n).filter fun c => (cmd c).act != act, (q.drop n).filter fun c => (cmd c).act == act)

/-- The frame of a tile's stopped task. -/
def frameOf (s : State) (t : Nat) (i : TrapInfo) : Frame :=
  let tl := tileOf s t
  let k := tl.task
  let kept := frameKeeps s t
  let f : Frame := {
    tile := t
    trap := i
    task := { k with pc := i.rpc, xpushed := i.xpushed, stepping := .no, skipbp := false, xbusy := false }
    replay := tl.replay.filter fun e => e.gtid == k.gtid
    held := s.accs.filter fun a => kept.contains a.id
    heldMsgs := s.net.filter fun m => kept.contains m.id
    matq := tl.matq
    copies := (splitHeld k.act (·.cmd) tl.copies).2
    chainq := (splitHeld k.act id tl.chainq).2
    vshare := tl.vshare
    crc := 0#32
    crcOk := true
    answer := none }
  { f with crc := frameCrc f }

/-- The tile without its stopped task; ri, the landing registers and ef stay (R291). -/
def tileWithout (tl : Tile) : Tile :=
  let k := tl.task
  { tl with
    run := .idle
    task := Task.zero
    replay := tl.replay.filter fun e => e.gtid != k.gtid
    matq := []
    copies := (splitHeld k.act (·.cmd) tl.copies).1
    chainq := (splitHeld k.act id tl.chainq).1 }

/-- The record of a task's trap (Table 21-3). -/
def trapRecord (s : State) (t : Nat) (f : Frame) (addr : DWord) : TrapRecord :=
  let i := f.trap
  { tag := tagOf s t, tile := t, note := false, xside := i.xside, precise := i.precise, nlog := f.replay.length, info := i.info,
    code := i.code, gtid := f.task.gtid, pc := i.pc, apc := i.apc, arg0 := i.arg0, arg1 := i.arg1, arg2 := i.arg2,
    frame := addr }

/-- Writes the frame at the address, its 64 KiB into edge memory, and queues the record. -/
def writeFrame (s : State) (t : Nat) (i : TrapInfo) (addr : DWord) : State :=
  let f := frameOf s t i
  let kept := frameKeeps s t
  let s1 := { (putRegion s addr.toNat frameSize (frameImage f)) with
    frames := smSet addr.toNat f s.frames
    accs := s.accs.filter fun a => !kept.contains a.id
    net := s.net.filter fun m => !kept.contains m.id }
  queueRecord (setTile s1 t (tileWithout (tileOf s t))) t (trapRecord s t f addr)

/-- FRAME_WRITE: once its queues have settled, a stopped task's state goes to a frame of its die's pool, and its record
joins the tile's records (R285, R287, R288, R291); a host gives up the lines of the frame first (R256). -/
def execFrameWrite (t : Nat) (s : State) : Out :=
  .next <| match (tileOf s t).run with
    | .stopping i =>
      if !frameReady s t i || recordsFull s t then s
      else
        let d := dieAt s (dieOf t)
        match d.fp with
        | [] => s
        | a :: rest =>
          match regionHeld s a.toNat frameSize with
          | some l => askBack s l
          | none => writeFrame (setDie s (dieOf t) { d with fp := rest }) t i a
    | _ => s

/-- TRAP_RECORD_DELIVERY: the oldest record of a tile enters the Plaza mailbox of its die, which holds 256 (R288). -/
def execTrapRecordDelivery (t : Nat) (s : State) : Out :=
  .next <|
    let tl := tileOf s t
    let d := dieAt s (dieOf t)
    match tl.records with
    | r :: rest =>
      if d.mailbox.length < 256 then
        setTile (setDie s (dieOf t) { d with mailbox := d.mailbox ++ [r] }) t { tl with records := rest }
      else s
    | [] => s

/-! ## Replay entries at resume (Table 21-11) -/

/-- The bytes of an entry's access. -/
def entryBytes (e : ReplayEntry) : Nat := widthBytes e.width

/-- The destination of an entry. -/
def entryDest (e : ReplayEntry) : Dest :=
  let n := e.dest.toNat
  if n == 0 then .none
  else if n < 16 then .a (BitVec.ofNat 4 n)
  else .lq (BitVec.ofNat 1 (n - 16)) e.slot

/-- The a-register still holds the poison of the entry. -/
def regPoisoned (k : Task) (e : ReplayEntry) (n : BitVec 4) : Bool := k.a[n.toFin].st == .poisoned e.code e.ea

/-- Puts a value, or a new reservation, where the entry's destination still holds its poison; a destination consumed or
overwritten since receives nothing (R292). -/
def refillDest (k : Task) (e : ReplayEntry) (v : Vec) (wait : Option Nat) : Task :=
  match entryDest e with
  | .a n =>
    if regPoisoned k e n then
      k.putA n (match wait with
        | some id => ⟨0#64, .pending id⟩
        | none => ⟨v.setWidth 64, .ready⟩)
    else k
  | .lq q i =>
    k.mapLq q fun x =>
      if x.idx == i && x.fill == .poisoned e.code e.ea then
        { x with fill := match wait with
            | some id => .waiting id
            | none => .data v }
      else x
  | _ => k

/-- The access of an entry that is performed again (R292). -/
def replayAccess (s : State) (t : Nat) (e : ReplayEntry) (op : AccOp) : Access :=
  { id := s.nextId, tile := t, act := (tileOf s t).task.act, gtid := e.gtid, op, space := e.space, ea := e.ea,
    n := entryBytes e, data := e.data, data2 := e.data2, ord := e.ord, dest := entryDest e, guard := .free, pc := e.pc,
    res := none, again := true, sums := [] }

/-- A `put` that is sent again (R292). -/
def replayPut (s : State) (t : Nat) (e : ReplayEntry) : State :=
  let m : Msg :=
    ⟨s.nextId, 5, t, e.ea.setWidth 20, (tileOf s t).task.act, e.gtid, launchOf s t, tagOf s t, e.pc, .free,
      .put e.ord.toNat (e.data.setWidth 32)⟩
  { s with net := s.net ++ [m], nextId := s.nextId + 1 }

/-- Sets an entry of a tile's tensor table that still holds the poison of a KIND 10 entry. -/
def setPoisonedTensor (s : State) (t : Nat) (e : ReplayEntry) (v : TEntry) : State :=
  let tl := tileOf s t
  let i := e.slot % 64
  if tl.tt[i]'(Nat.mod_lt _ (by decide)) == .poisoned e.code e.ea then
    setTile s t { tl with tt := tl.tt.set i v (Nat.mod_lt _ (by decide)) }
  else s

/-- The poisoned tensor entry is still the one of this replay entry. -/
def tensorPoisoned (s : State) (t : Nat) (e : ReplayEntry) : Bool :=
  (tileOf s t).tt[e.slot % 64]'(Nat.mod_lt _ (by decide)) == .poisoned e.code e.ea

/-- The action on a KIND 10 entry (R184). -/
def replayTensor (s : State) (t : Nat) (e : ReplayEntry) : State :=
  match e.action.toNat with
  | 1 =>
    if tensorPoisoned s t e then
      let a := { replayAccess s t e .tdef with n := 32, dest := .tensor (BitVec.ofNat 6 e.slot) }
      addAccess (setPoisonedTensor s t e (.pending s.nextId)) a
    else s
  | 2 =>
    let r := tensorEntry (.value e.data) e.ea
    let s1 := setPoisonedTensor s t e r.1
    match r.2 with
    | some c => if tensorPoisoned s t e then logEntry s1 t { e with code := c, action := actionFor c } else s1
    | none => s1
  | _ => setPoisonedTensor s t e .invalid

/-- The action on one entry: 1 replay, 2 supply, every other value discard (Tables 21-2 and 21-11). -/
def replayOne (t : Nat) (s : State) (e : ReplayEntry) : State :=
  let k := (tileOf s t).task
  let give (v : Vec) : State := setTask s t (refillDest k e v none)
  if e.kind == 10#8 then replayTensor s t e
  else
    match e.action.toNat with
    | 1 =>
      match e.what with
      | some op => addAccess (setTask s t (refillDest k e 0#256 (some s.nextId))) (replayAccess s t e op)
      | none => if e.kind == 8#8 && e.width == 2#3 then replayPut s t e else give 0#256
    | 2 => give (if e.kind == 7#8 then (e.data.setWidth 32).setWidth 256 else e.data)
    | _ => give 0#256

/-! ## Restoring and ending a framed task (R292) -/

/-- A frame joins the pool of a die: its address takes the next 8-byte entry of the ring in edge memory (R289; log 127). -/
def joinPool (s : State) (d : Nat) (addr : DWord) : State :=
  let v := dieAt s d
  let n := v.fpsize.toNat
  edgeStore (setDie s d { v with fp := v.fp ++ [addr], fpnext := (v.fpnext + 1) % n }) (v.fpbase.toNat + 8 * (v.fpnext % n))
    (leBytes addr.toNat 8)

/-- A frame's address goes back to the pool of a die (R289, R292). -/
def returnFrame (s : State) (d : Nat) (addr : DWord) : State := joinPool { s with frames := smErase addr.toNat s.frames } d addr

/-- The slabs of bl and the ring buffer as a framed task resumes, with one that landed meanwhile: it stands in the task's buffer, or
waits on the Ringway while that is full (R192). -/
def resumeSlabs (k : Task) (landed onWay : Option Slab) : Task × Option Slab :=
  match k.ring, landed with
  | some _, some b => (k, some b)
  | none, some b => (refill { k with ring := some b }, onWay)
  | _, none => (k, onWay)

/-- Restores a frame on its tile, whose fetch buffer is emptied, and acts on its replay entries in log order (R48,
R238, R292; log 128). The tile is open to puts and ring values again (R63). -/
def resumeFrame (s : State) (addr : DWord) (f : Frame) (single skipbp : Bool) : State :=
  let t := f.tile
  let tl := tileOf s t
  let rm := if 5#3 ≤ f.task.rm then 0#3 else f.task.rm
  let k := resumeSlabs { f.task with rm := rm, skipbp := skipbp, stepping := if single then .armed else .no } tl.task.ring tl.ringNet
  let s1 := countEvent (setTile s t { tl with
    run := .running
    task := k.1
    ringNet := k.2
    closed := false
    badFetch := none
    lines := []
    vshare := f.vshare
    matq := f.matq ++ tl.matq
    copies := tl.copies ++ f.copies
    chainq := tl.chainq ++ f.chainq }) t 0x0f 1
  let s2 := returnFrame { s1 with accs := s1.accs ++ f.held, net := s1.net ++ f.heldMsgs } (dieOf t) addr
  f.replay.foldl (replayOne t) s2

/-- Replayed accesses of the running task are still to be done: neither side goes on before them. A replayed `ldv` leaves its
register pending, and holds back what an acquire does (`holding`; R136, R233, R292). -/
def replaying (s : State) (t : Nat) : Bool :=
  s.accs.any fun a => a.tile == t && a.again && a.act == (tileOf s t).task.act && !isLdv a.op

/-- A framed task has ended: its cohort has one task fewer, its inbox slot is free, and what was held for it is gone
(R222, R292). -/
def endFramed (s : State) (addr : DWord) (f : Frame) : State :=
  let t := f.tile
  let s1 := returnFrame (setTile s t (dropEntries (freeSlot (tileOf s t) f.task.inboxSlot) f.task.gtid)) (dieOf t) addr
  match cohortOf s t with
  | some (key, c, _) => setCohort s1 key { c with live := c.live - 1 }
  | none => s1

/-- The launch ends in error with this code: no cohort of it starts any more, and its resident cohorts end (R44, R283). -/
def endLaunchWith (s : State) (ln : Nat) (code : Code) : State :=
  match smFind ln s.launches with
  | some l => setLaunch s ln { failLaunch l code 0#8 with ended := true }
  | none => s

/-- A frame that fails its CRC-32C or is damaged: its task ends with DATA_ERROR, which its launch reports and the
lifetime records count (R292, R341, R344). The record is precise, with the frame's resume PC and without a frame (log 123). -/
def spoilFrame (s : State) (addr : DWord) (f : Frame) : State :=
  let t := f.tile
  let r : TrapRecord :=
    { haltedRecord s t 0#8 f.task.gtid f.task.pc with code := .dataError, nlog := f.replay.length }
  let ln := launchOf s t
  let s1 := markFailed (faultRecord s ln r) ln .dataError 0#8
  bumpLife (queueRecord (endFramed s1 addr f) t r) (.uncorrectable (stackOf addr.toNat)) 1

end Sys2Proof.Machine
end

