-- ==== Sys2Proof/Machine/Select.lean ====
section
/-! DEFINITION. What a free tile runs next (R220, R222, R275, R292, R295) and the steals between the tiles of a cohort
(R276). -/

namespace Sys2Proof.Machine

/-! ## A tile that is free to run a task -/

/-- The launch goes on (R44). -/
def launchGoes (s : State) (ln : Nat) : Bool :=
  match smFind ln s.launches with
  | some l => !l.ended
  | none => false

/-- The tile runs no task and may take one: its record queue has room and no stolen record is on its way (R276, R288). -/
def freeToRun (s : State) (t : Nat) : Bool :=
  let tl := tileOf s t
  tl.run == .idle && haltAllows tl && tl.landing.isNone && !recordsFull s t && (cohortOf s t).isSome && launchGoes s (launchOf s t)

/-- The highest occupied reserved slot (R220). -/
def topReserved (tl : Tile) : Option (Nat × Rec) := tl.reserved.getLast?

/-- The least order among ready resident records. -/
def firstReady (tl : Tile) : Option Nat := ((tl.resident.filter (·.ready)).map (·.order)).min?

/-- A resident place has become free: the first record of the overflow takes it, leaving its place in the general spill, and a
message may be waiting for it (R40, R41). -/
def fillPlace (tl : Tile) (order : Nat) : Tile :=
  match tl.overflow with
  | r :: rest => giveMessage { tl with resident := tl.resident ++ [{ r with place := none }], overflow := rest } order
  | [] => tl

/-- What the tile takes of its own: the state without the record, the record, and the inbox slot it holds (R220, R222,
R275). -/
def takeOwn (s : State) (t : Nat) : Option (State × Rec × Option Nat) :=
  let tl := tileOf s t
  match tl.unplaced with
  | some r => some (setTile s t { tl with unplaced := none }, r, none)
  | none =>
    match topReserved tl with
    | some (d, r) => some (setTile s t { tl with reserved := smErase d tl.reserved }, r, none)
    | none =>
      match firstReady tl with
      | some o =>
        match tl.resident.find? fun r => r.ready && r.order == o with
        | some r =>
          let rest := tl.resident.eraseP fun x => x.ready && x.order == o
          let tl1 := fillPlace { tl with resident := rest } s.nextId
          some (setTile { s with nextId := s.nextId + 1 } t tl1, r.r, r.slot)
        | none => none
      | none =>
        match tl.deque.getLast? with
        | some r => some (setTile s t { tl with deque := tl.deque.dropLast }, r, none)
        | none =>
          match tl.spill.getLast? with
          | some r => some (setTile s t { tl with spill := tl.spill.dropLast, slots := tl.slots.dropLast }, r, none)
          | none => none

/-- A frame of the tile whose RESUME or STEP has come (R292). DESIGN CHOICE (log 121): of several the one at the lowest address. -/
def answered (s : State) (t : Nat) : Option (DWord × Frame × Bool × Bool) :=
  s.frames.findSome? fun f =>
    if f.2.tile == t then
      match f.2.answer with
      | some (.go single skip) => some (BitVec.ofNat 64 f.1, f.2, single, skip)
      | _ => none
    else none

/-! ## Steals (R276) -/

/-- The card forbids steals between the tiles of a cohort. -/
def noSteal (s : State) (t : Nat) : Bool :=
  match launchAt s t with
  | some (_, l) => cardNoSteal l.card
  | none => true

/-- The tile at an offset, within the panel. -/
def neighbour (t : Nat) (dx dy : Int) : Option Nat :=
  let x := (tileX t : Int) + dx
  let y := (tileY t : Int) + dy
  if 0 ≤ x && x < 256 && 0 ≤ y && y < 256 then some (y.toNat * 256 + x.toNat) else none

/-- The victims in the order in which a thief tries them. -/
def victims (s : State) (t : Nat) : List Nat :=
  match cohortOf s t with
  | none => []
  | some (_, c, j) =>
    let near := [neighbour t 0 (-1), neighbour t 1 0, neighbour t 0 1, neighbour t (-1) 0].filterMap id
    let own := j * c.size + qidx t
    let n := cohortTasks c
    let others := (upFrom 1 (n - 1)).map fun i => tileOfSerial c ((own + i) % n)
    (near.filter fun u => sameCohort s t u) ++ others.filter fun u => !near.contains u

/-- A tile has a record that may be stolen (R220). -/
def stealable (s : State) (u : Nat) : Bool := !((tileOf s u).deque.isEmpty && (tileOf s u).spill.isEmpty)

/-- Removes the oldest stealable record of a victim: its general spill first (R220). -/
def takeOldest (tl : Tile) : Option (Rec × Tile) :=
  match tl.spill, tl.deque with
  | r :: rest, _ => some (r, { tl with spill := rest, slots := tl.slots.drop 1 })
  | [], r :: rest => some (r, { tl with deque := rest })
  | [], [] => none

/-- Nothing on the tile is to be run before a steal (R275). -/
def nothingOwn (s : State) (t : Nat) : Bool := (answered s t).isNone && (takeOwn s t).isNone

/-- The record of tile `u` goes to thief `t`, on its way as a message on channel 5, and with it what its task has logged and left
in progress (R18, R135, R276; log 13). -/
def sendStolen (s : State) (t u : Nat) (r : Rec) (victim : Tile) : State :=
  let mine := victim.replay.filter fun e => e.gtid == r.gtid
  let kept := victim.kept.filter fun x => x.1 == r.gtid
  let s1 := setTile s u { dropKept victim r.gtid with replay := victim.replay.filter fun e => e.gtid != r.gtid }
  let tl := tileOf s1 t
  setTile { s1 with nextId := s1.nextId + 1 } t
    { tl with landing := some (u, s1.nextId, r.setTransit true), backoff := false, replay := tl.replay ++ mine, kept := tl.kept ++ kept }

/-- The owner, free to run, takes in this clk the one entry that a claim would take, and is served first (R276). -/
def ownerTakes (s : State) (u : Nat) : Bool :=
  let tl := tileOf s u
  freeToRun s u && (answered s u).isNone && tl.unplaced.isNone && tl.reserved.isEmpty && (firstReady tl).isNone &&
    tl.deque.length + tl.spill.length == 1

/-- A claim finds a record at this victim: one that its owner does not take in the same clk (R220, R276). -/
def claimable (s : State) (u : Nat) : Bool := stealable s u && !ownerTakes s u

/-- Earlier messages on channel 5 from tile `src` reach tile `u` before what `src` sends now, which waits too while `u` is being
moved (R8, R21). -/
def pathClear (s : State) (src u id : Nat) : Bool :=
  !sentBefore s u src id && !wordAhead s src u id && !moving s src u

/-- STEAL_CLAIM: an idle tile's claim takes the oldest record of the first victim that has one for it; with every victim empty
it waits (R220, R276). Earlier messages of the thief on channel 5 reach the victim first (R8). -/
def execStealClaim (t victim : Nat) (s : State) : Out :=
  .next <|
    if !freeToRun s t || noSteal s t || !nothingOwn s t then s
    else
      match (victims s t).find? fun u => claimable s u with
      | none => setTile s t { tileOf s t with backoff := true }
      | some u =>
        if u != victim || !pathClear s t u s.nextId then s
        else
          match takeOldest (tileOf s u) with
          | none => s
          | some (r, tl) =>
            if 256 < (tileOf s t).replay.length + (tl.replay.filter fun e => e.gtid == r.gtid).length then s
            else countEvent (sendStolen s t u r tl) t 0x0b 1

/-- STEAL_LANDING: a stolen record lands at the thief, in its order on channel 5, and the thief resumes it; a tile that has been
halted keeps it in its deque (R8, R38, R276, R279). -/
def execStealLanding (t : Nat) (s : State) : Out :=
  .next <|
    let tl := tileOf s t
    match tl.landing with
    | none => s
    | some (u, n, r) =>
      if !pathClear s u t n then s
      else
        let s1 := setTile s t { tl with landing := none }
        if freeToRun s1 t then startTask s1 t (r.setTransit false) none
        else if haltAllows tl then s
        else setTile s1 t { tileOf s1 t with deque := tl.deque ++ [r.setTransit false] }

/-- STEAL_RETRY: after 256 clk a thief tries its victims again (R276). -/
def execStealRetry (t : Nat) (s : State) : Out := .next (setTile s t { tileOf s t with backoff := false })

/-! ## Selection (R275) -/

/-- A halted cohort's tile that was to step and has nothing to run halts again at once (R295). -/
def stepNothing (s : State) (t : Nat) : State :=
  let s1 := setTile s t { tileOf s t with halt := .held false }
  queueRecord s1 t (haltedRecord s1 t 1#8 0#64 0#64)

/-- TASK_SELECT: a free tile takes the frame it is to resume, as edge memory then holds it, then its own records in the order of
R275 (R256, R275, R292). -/
def execTaskSelect (t : Nat) (s : State) : Out :=
  .next <|
    if !freeToRun s t then s
    else
      match answered s t with
      | some (a, f, single, skip) =>
        match regionHeld s a.toNat frameSize with
        | some l => askBack s l
        | none => if frameSpoilt s a f then spoilFrame s a f else resumeFrame s a (frameNow s a f) single skip
      | none =>
        match takeOwn s t with
        | some (s1, r, slot) => startTask s1 t (r.setTransit false) slot
        | none =>
          if (tileOf s t).halt == .held true && (noSteal s t || !((victims s t).any fun u => stealable s u)) then stepNothing s t
          else s

end Sys2Proof.Machine
end

