-- ==== Sys2Proof/Machine/Resolve.lean ====
section
/-! DEFINITION. Resolutions: what system software answers to a frame or to a halted cohort (R289, R290, R292, R295, R298). -/

namespace Sys2Proof.Machine

/-- A refused panel configuration access, recorded for its core unless one is recorded already (R290). -/
def refuseAccess (s : State) (core off : Nat) (code : Code) : State :=
  let c := coreAt s core
  if c.accValid then s
  else setCore s core { c with accValid := true, accOff := BitVec.ofNat 32 off, accCode := BitVec.ofNat 8 (codeNum code) }

/-- The configuration offset of a die's panel block (R289). -/
def blockBase (die : Nat) : Nat := 0x00800000 + 0x1000 * (die % 64)

/-! ## Edits of a frame (R292) -/

/-- The bytes that the CRC-32C covers have changed unless this holds. -/
def Frame.keep (f : Frame) (same : Bool) : Frame := { f with crcOk := f.crcOk && same }

/-- One edit of a frame: an editable field changes; any other change is caught by the CRC-32C. -/
def editFrame (f : Frame) (e : FrameEdit) : Frame :=
  let k := f.task
  match e with
  | .a n v => if n == 0#4 then f.keep (v == 0#64) else { f with task := k.putA n { k.a[n.toFin] with val := v } }
  | .g n v => if n == 0#6 || 48#6 ≤ n then f.keep (v == 0#32) else { f with task := k.putG n.toNat v }
  | .p n v => if n == 0#3 then f.keep v else { f with task := k.putP n v }
  | .acc v => { f with task := { k with acc := v } }
  | .rm v => { f with task := { k with rm := v } }
  | .lfsr v => { f with task := { k with lfsr := v } }
  | .rpc v => { f with task := { k with pc := v } }
  | .action i v => if i < f.replay.length then { f with replay := f.replay.modify i fun x => { x with action := v } } else f.keep false
  | .data i v => if i < f.replay.length then { f with replay := f.replay.modify i fun x => { x with data := v } } else f.keep false
  | .other => f.keep false

/-- All the edits of a resolution. DATA of a replay entry may be rewritten only where the entry's ACTION is then supply, whose
value it is (Table 21-2, R292; log 27). -/
def editAll (f : Frame) (es : List FrameEdit) : Frame :=
  let f' := es.foldl editFrame f
  f'.keep ((f.replay.zip f'.replay).all fun e => e.1.data == e.2.data || e.2.action == 2#4)

/-! ## Whom a resolution names -/

/-- What the RESOLVE0 word of a die names. -/
inductive Target where
  | nothing
  | frame (addr : DWord) (f : Frame)
  | halted (tile key : Nat) (c : Cohort)
  deriving DecidableEq, Repr

/-- The cohort has been stopped by `halt`, wherever it is now. -/
def isHalted (c : Cohort) : Bool :=
  match c.status with
  | .halted => true
  | .resident => false
  | .halting h | .stranded h | .saved _ h => h

/-- The frame or the halted cohort that a resolution names (R289, R292, R295). -/
def targetOf (s : State) (die : Nat) : Target :=
  let w := (dieAt s die).resolve0
  let addr := (w >>> 16) <<< 16
  let t := (w.extractLsb' 0 16).toNat
  if addr == 0#64 then
    match s.cohorts.find? fun e => isHalted e.2 && (cohortTiles e.2).contains t with
    | some e => .halted t e.1 e.2
    | none => .nothing
  else
    match smFind addr.toNat s.frames with
    | some f => if f.tile == t then .frame addr f else .nothing
    | none => .nothing

/-- A cohort whose tiles stand where they are, so that a resolution reaches them at once (R298). -/
def inPlace (c : Cohort) : Bool := c.status == .resident || c.status == .halted

/-- The framed task's cohort is in place. -/
def frameInPlace (s : State) (f : Frame) : Bool :=
  match cohortOf s f.tile with
  | some (_, c, _) => inPlace c
  | none => false

/-! ## What a resolution does -/

/-- A frame with the edits of a resolution, which stand for stores of system software to its bytes in edge memory (R292). -/
def editedFrame (s : State) (addr : DWord) (f : Frame) (es : List FrameEdit) : State × Frame :=
  if es.isEmpty then (s, f)
  else
    let f1 := frameNow s addr f
    let f2 := editAll { f1 with crcOk := f.crcOk && frameIntact (regionMem s addr.toNat frameSize) f } es
    ({ (putRegion s addr.toNat frameSize (frameImage f2)) with damage := s.damage }, f2)

/-- What a guard held for a task is gone. -/
def discardHeld (s : State) (t act : Nat) : State :=
  let tl := tileOf s t
  let gone (c : Cmd) : Bool := c.act == act && c.guard.isBound
  let s1 := setTile s t { tl with
    matq := tl.matq.filter (·.act != act)
    copies := tl.copies.filter fun c => !gone c.cmd
    chainq := tl.chainq.filter fun c => !gone c
    longq := [] }
  { s1 with
    accs := s1.accs.filter fun a => !(a.act == act && a.guard.isBound)
    net := s1.net.filter fun m => !(m.act == act && m.guard.isBound) }

/-- Charges of copies that will never land are taken back (R199). -/
def settleAll (s : State) (t : Nat) (cs : List Copy) : State := cs.foldl (fun s c => settle s t c) s

/-- Ends the task that runs on a halted tile (R295). -/
def endHaltedTask (s : State) (t : Nat) : State :=
  let tl := tileOf s t
  if tl.run == .running then
    let act := tl.task.act
    let cs := tl.copies.filter fun c => c.cmd.act == act && c.cmd.guard.isBound
    endRunning (discardHeld (settleAll s t cs) t act) t
  else s

/-- Ends a framed task; the charges of its held copies are taken back. -/
def endFrame (s : State) (addr : DWord) (f : Frame) : State := endFramed (settleAll s f.tile f.copies) addr f

/-- Ends the launch of a framed task with the trap's code; the record is written to the fault area (R283, R292, R296). -/
def endFrameLaunch (s : State) (addr : DWord) (f : Frame) : State :=
  let ln := launchOf s f.tile
  endLaunchWith (faultRecord s ln (trapRecord s f.tile f addr)) ln f.trap.code

/-- Ends the launch of a halted cohort with code HALTED (R295, R296). -/
def endHaltedLaunch (s : State) (t : Nat) (c : Cohort) : State :=
  let r := haltedRecord s t 0#8 (tileOf s t).task.gtid (tileOf s t).task.pc
  endLaunchWith (faultRecord s c.launch r) c.launch .halted

/-- Releases every tile of a halted cohort (R295); one that is being moved goes on once it has been (R305). -/
def releaseCohort (s : State) (key : Nat) (c : Cohort) : State :=
  (cohortTiles c).foldl (fun s u =>
    let tl := tileOf s u
    setTile s u { tl with halt := if tl.halt == .migrate then .migrate else .none }) (setCohort s key { c with status := .resident })

/-- A resolution acts on a tile of a halted cohort that is in place. -/
def resolveHalted (s : State) (t key : Nat) (c : Cohort) (a : FrameAnswer) : State :=
  let tl := tileOf s t
  let k := tl.task
  match a with
  | .go false skip => releaseCohort (setTile s t { tl with task := { k with skipbp := skip || k.skipbp } }) key c
  | .go true skip => setTile s t { tl with halt := .held true, task := { k with skipbp := skip || k.skipbp } }
  | .endTask => endHaltedTask s t
  | .endLaunch => endHaltedLaunch s t c

/-- A resolution acts on a frame: RESUME and STEP wait for the tile to take the frame, the others act at once where the
cohort is in place (R292, R298). -/
def resolveFrame (s : State) (addr : DWord) (f : Frame) (a : FrameAnswer) : State :=
  match a with
  | .go .. => { s with frames := smSet addr.toNat { f with answer := some a } s.frames }
  | .endTask =>
    if frameInPlace s f then endFrame s addr f
    else { s with frames := smSet addr.toNat { f with answer := some a } s.frames }
  | .endLaunch =>
    if frameInPlace s f then endFrameLaunch s addr f
    else { s with frames := smSet addr.toNat { f with answer := some a } s.frames }

/-- A write of RESOLVE1: the resolution reaches the frame or the halted cohort that RESOLVE0 names, or is discarded and
reported (R289, R290, R292, R298). A cohort that is away, or a tile that is being moved, has it later. -/
def resolve (s : State) (r : Resolution) (a : FrameAnswer) : State :=
  match targetOf s r.die with
  | .nothing => refuseAccess s r.core (blockBase r.die + 0x68) .commandInvalid
  | .frame addr f =>
    let e := editedFrame s addr f r.edits
    resolveFrame e.1 addr e.2 a
  | .halted t key c =>
    if c.status == .halted && (tileOf s t).halt != .migrate then resolveHalted s t key c a
    else setCohort s key { c with waiting := c.waiting ++ [(t, a)] }

/-- RESUME: the task continues, after its replay entries have been acted on; a halted cohort is released (R292, R295). -/
def execResume (r : Resolution) (s : State) : Out := .next (resolve s r (.go false r.skipbp))

/-- STEP: the task, or one tile of a halted cohort, issues one bundle (R295). -/
def execStep (r : Resolution) (s : State) : Out := .next (resolve s r (.go true r.skipbp))

/-- END_TASK: the task ends as `exit` does (R292, R295). -/
def execEndTask (r : Resolution) (s : State) : Out := .next (resolve s r .endTask)

/-- END_LAUNCH: the launch ends with the trap's code (R283, R292, R295). -/
def execEndLaunch (r : Resolution) (s : State) : Out := .next (resolve s r .endLaunch)

end Sys2Proof.Machine
end

