-- ==== Sys2Proof/Machine/Panel.lean ====
section
/-! DEFINITION. The panel configuration space: the panel block of a die (R289, R290), and writes to registers that have no
behaviour of their own (R20, R289, R290, R310, R330, R332, R334, R336). -/

namespace Sys2Proof.Machine

/-! ## The panel block (R289) -/

/-- The answer to a read. -/
def replyBytes (s : State) (bs : List Byte) : State := { s with reply := ⟨.done, bs⟩ }

/-- An access to a register of a panel block: a guest's is discarded, reads zero and is refused as PRIVILEGE; one of a
width the table does not allow is refused as COMMAND_INVALID (R289, R290). -/
def blockAccess (s : State) (w : BlockAccess) (off width : Nat) (go : State → State) : State :=
  if w.guest then refuseAccess (replyBytes s (List.replicate w.width 0#8)) w.core (blockBase w.die + off) .privilege
  else if w.width != width then refuseAccess { s with reply := ⟨.discarded, []⟩ } w.core (blockBase w.die + off) .commandInvalid
  else go s

/-- A frame address: aligned on 64 KiB, in edge memory. -/
def frameAddrOk (v : DWord) : Bool := v.extractLsb' 0 16 == 0#16 && v.toNat < edgeTop

/-- FPPUSH: a frame joins the pool and its ring; a push to a full pool sets FPOVF (R289). -/
def execFppush (w : BlockAccess) (s : State) : Out :=
  .next <| blockAccess s w 0x10 8 fun s =>
    if !frameAddrOk w.val then refuseAccess s w.core (blockBase w.die + 0x10) .commandInvalid
    else
      let d := dieAt s w.die
      if d.fpsize.toNat ≤ d.fp.length then setDie s w.die { d with fpovf := true }
      else joinPool s w.die w.val

/-- A read of FPOVF returns the flag and clears it (R289). -/
def readFpovf (s : State) (w : BlockAccess) : State :=
  blockAccess s w 0x20 8 fun s =>
    let d := dieAt s w.die
    replyBytes (setDie s w.die { d with fpovf := false }) (leBytes (if d.fpovf then 1 else 0) 8)

/-- FPOVF: a read returns the flag and clears it (R289). -/
def execFpovf (w : BlockAccess) (s : State) : Out := .next (readFpovf s w)

/-- A 64-byte read of MBPOP returns and removes the oldest record, or 64 zero bytes (R289). -/
def readMbpop (s : State) (w : BlockAccess) : State :=
  blockAccess s w 0x100 64 fun s =>
    let d := dieAt s w.die
    match d.mailbox with
    | r :: rest => replyBytes (setDie s w.die { d with mailbox := rest }) (recordBytes r)
    | [] => replyBytes s (List.replicate 64 0#8)

/-- MBPOP: a 64-byte read returns and removes the oldest record, or 64 zero bytes (R289). -/
def execMbpop (w : BlockAccess) (s : State) : Out := .next (readMbpop s w)

/-- The value of a panel access status register (Table 21-10). -/
def accessStatus (c : Core_) : DWord :=
  BitVec.ofNat 64 ((if c.accValid then 2 ^ 63 else 0) + c.accOff.toNat * 2 ^ 8 + c.accCode.toNat)

/-- A read of a panel access status register returns the first refused access and clears it (R290). -/
def readAccessStatus (s : State) (core : Nat) : State :=
  let c := coreAt s core
  replyBytes (setCore s core { c with accValid := false, accOff := 0#32, accCode := 0#8 }) (leBytes (accessStatus c).toNat 8)

/-- PANEL_ACCESS_STATUS: a read returns the first refused access and clears it (R290). -/
def execPanelAccessStatus (core : Nat) (s : State) : Out := .next (readAccessStatus s core)

/-! ## Writes to registers without a behaviour of their own -/

/-- A power of two between two bounds. -/
def pow2In (v lo hi : Nat) : Bool := (upFrom lo (hi + 1 - lo)).any fun i => v == 2 ^ i

/-- What becomes of a register write. -/
inductive Written where
  /-- The register takes the value. -/
  | to (s : State)
  /-- Discarded, and not reported. -/
  | discarded
  /-- Discarded and reported with this code (R290). -/
  | refused (c : Code)

/-- A write to a die's panel block: FPBASE and FPSIZE only while the pool is empty, RESOLVE0 always; a RESOLVE1 of reserved
value is refused (Table 21-8). The writes that start something, FPPUSH, PREEMPT, RESTORE and a RESOLVE1 of a value that R292
gives, are steps of their own. -/
def writeBlock (s : State) (die off width : Nat) (v : DWord) : Written :=
  let d := dieAt s die
  if off == 0x18 || off == 0x20 || off == 0x80 || off == 0x100 then .refused .privilege
  else if width != 8 then .refused .commandInvalid
  else
    match off with
    | 0x00 =>
      if v.extractLsb' 0 12 != 0#12 || edgeTop ≤ v.toNat then .refused .commandInvalid
      else if d.fp.isEmpty then .to (setDie s die { d with fpbase := v, fpnext := 0 }) else .discarded
    | 0x08 =>
      if !pow2In v.toNat 3 16 then .refused .commandInvalid
      else if d.fp.isEmpty then .to (setDie s die { d with fpsize := v, fpnext := 0 }) else .discarded
    | 0x60 => .to (setDie s die { d with resolve0 := v })
    | 0x68 => if 4#3 ≤ v.extractLsb' 0 3 || v.extractLsb' 4 60 != 0#60 then .refused .commandInvalid else .discarded
    | _ => .discarded

/-- A ring's registers RBASE, RSIZE, WIDX, RIDX and LOST in this order (R330); `seen` is WIDX as a reader sees it. -/
def writeRing (r : Ring) (seen : DWord) (idle : Bool) (i : Nat) (v : DWord) : Option Ring :=
  match i with
  | 0 => if idle && v.extractLsb' 0 12 == 0#12 then some { r with base := v } else none
  | 1 => if idle && pow2In v.toNat 12 30 then some { r with size := v } else none
  | 3 => if v.ule seen && v.extractLsb' 0 5 == 0#5 then some { r with ridx := v } else none
  | _ => none

/-- A write to a die ring's registers (R330, Table 25-1). -/
def writeDieRing (s : State) (die off width : Nat) (v : DWord) : Written :=
  let r := (dieAt s die).ring
  if off == 0x10 || off == 0x20 then .refused .privilege
  else if width != 8 then .refused .commandInvalid
  else
    match writeRing r (widxOf s (.die die)) (r.on == 0#2) (off / 8) v with
    | some r' => .to (setRing s (.die die) r')
    | none => .discarded

/-- A value of SPER: 0 or 8 to 24; another leaves the field unchanged (Table 25-4). -/
def sperOf (old new : BitVec 5) : BitVec 5 := if new == 0#5 || (8#5 ≤ new && new ≤ 24#5) then new else old

/-- A write to a session page (R332, R334, Tables 25-3 and 25-4). -/
def writeSession (s : State) (tag off width : Nat) (guest : Bool) (v : DWord) : Written :=
  let se := sessionAt s tag
  if off == 0 then
    if width != 8 then .refused .commandInvalid
    else
      let bar := if se.open_ then se.sumbar else v.extractLsb' 32 5
      .to (setSession s tag { se with sumbar := bar, sper := sperOf se.sper (v.extractLsb' 24 5) })
  else if off == 0x18 || off == 0x28 then .refused .privilege
  else if off < 0x28 then
    if width != 8 then .refused .commandInvalid
    else
      match writeRing se.ring (widxOf s (.session tag)) (!se.open_) (off / 8 - 1) v with
      | some r => .to (setSession s tag { se with ring := r })
      | none => .discarded
  else if 0x40 ≤ off && off < 0x80 && off % 4 == 0 then
    if width != 4 then .refused .commandInvalid
    else if se.open_ then .discarded
    else
      let i := (off - 0x40) / 4
      .to (setSession s tag { se with slots := se.slots.set (i % 16) (v.setWidth 16) (Nat.mod_lt _ (by decide)) })
  else if 0x100 ≤ off && off < 0x180 && off % 4 == 0 then
    if guest then .refused .privilege
    else if width != 8 || off % 8 != 0 then .refused .commandInvalid
    else if se.open_ then .discarded
    else
      let i := (off - 0x100) / 8
      .to (setSession s tag { se with total := se.total.set (i % 16) v (Nat.mod_lt _ (by decide)) })
  else .discarded

/-- A write to a core's SHADOW: the hypervisor's only (Table 25-5). -/
def writeShadow (s : State) (core width : Nat) (guest : Bool) (v : DWord) : Written :=
  if guest then .refused .privilege
  else if width != 8 then .refused .commandInvalid
  else
    .to (setCore s core { coreAt s core with
      shValid := v.msb, shTag := v.extractLsb' 40 8, shSlot := v.extractLsb' 32 4, shHigh := v.setWidth 32 })

/-- A write at an offset of the panel configuration space (Tables 21-8, 21-10, 23-3, 25-1, R20, R266). A whole write of PULSE is a step
of its own (`execPulse`). -/
def writeConfig (s : State) (w : CfgWrite) : Written :=
  let o := w.off
  if (0x100 ≤ o && o < 0x110) || (0x140 ≤ o && o < 0x160) || (0x1000 ≤ o && o < 0x1100) || (0x10000 ≤ o && o < 0x20000) ||
      (0x20000 ≤ o && o < 0x22000) || (0x400000 ≤ o && o < 0x800000) then .refused .privilege
  else if 0x30000 ≤ o && o < 0x31000 && o % 8 == 0 then writeShadow s ((o - 0x30000) / 8) w.width w.guest w.val
  else if 0x200000 ≤ o && o < 0x201000 then writeDieRing s ((o - 0x200000) / 0x40) ((o - 0x200000) % 0x40) w.width w.val
  else if o == 0x201000 then (if w.width != 8 then .refused .commandInvalid else .discarded)
  else if 0x800000 ≤ o && o < 0x840000 then
    if w.guest then .refused .privilege
    else writeBlock s ((o - 0x800000) / 0x1000) ((o - 0x800000) % 0x1000) w.width w.val
  else if 0x1000000 ≤ o && o < 0x1100000 then
    writeSession s ((o - 0x1000000) / 0x1000) ((o - 0x1000000) % 0x1000) w.width w.guest w.val
  else .discarded

/-- REGISTER_WRITE: a register takes the value, or the write is discarded and, where R290 says so, reported. -/
def execRegisterWrite (w : CfgWrite) (s : State) : Out :=
  .next <| match writeConfig s w with
    | .to s' => { s' with reply := ⟨.done, []⟩ }
    | .discarded => { s with reply := ⟨.discarded, []⟩ }
    | .refused c => refuseAccess { s with reply := ⟨.discarded, []⟩ } w.core w.off c

end Sys2Proof.Machine
end

