-- ==== Sys2Proof/Machine/Preempt.lean ====
section
/-! DEFINITION. Pre-emption: requests (R279, R289), the halt of a tile (R70, R279), saving and restoring a cohort (R29,
R70, R280, R297, R298). -/

namespace Sys2Proof.Machine

/-! ## Requests (R279, R289) -/

/-- The effective level of a launch (R268). -/
def levelOf (l : Launch) : Nat := if 40 ≤ cardPrio l.card then cardPrio l.card else min 39 (cardPrio l.card + l.aged)

/-- The cohort is named by the descriptor's first word (Table 21-9). -/
def namedBy (s : State) (w : DWord) (c : Cohort) : Bool :=
  match (w.extractLsb' 0 2).toNat with
  | 0 => c.launch % 65536 == (w.extractLsb' 48 16).toNat && c.index % 2 ^ 32 == (w.extractLsb' 16 32).toNat
  | 1 => c.launch % 65536 == (w.extractLsb' 48 16).toNat
  | _ => tagOfCluster s c.cluster == (w.extractLsb' 16 8).toNat

/-- A cohort that a pre-emption request can take: not saved, and not already taken by another request. -/
def mayTake (s : State) (key : Nat) (c : Cohort) : Bool :=
  (match c.status with
   | .saved .. => false
   | _ => true) && !(s.requests.any fun r => !r.restore && r.todo.contains key)

/-- The cohorts of a pre-emption request; a cohort of a PLACED launch brings all of them (R279). -/
def preemptSet (s : State) (w : DWord) : List Nat :=
  let hit := s.cohorts.filter fun e => namedBy s w e.2
  let all := s.cohorts.filter fun e =>
    namedBy s w e.2 || (cohortPlaced s e.2 && hit.any fun h => h.2.launch == e.2.launch)
  (all.filter fun e => mayTake s e.1 e.2).map (·.1)

/-- The cohort's halt begins: its tiles stop as the request reaches them. -/
def beginHalt (s : State) (key : Nat) : State :=
  match smFind key s.cohorts with
  | some c =>
    match c.status with
    | .resident => setCohort s key { c with status := .halting false }
    | .halted => setCohort s key { c with status := .halting true }
    | .stranded h => setCohort s key { c with status := .halting h }
    | _ => s
  | none => s

/-- Writes DONE, TOOFEW and NDONE of a request that has finished (Table 21-9, R256). -/
def finishRequest (s : State) (r : Request) : State :=
  let v := 2 ^ 63 + (if r.tooFew then 2 ^ 62 else 0) + r.done % 2 ^ 32
  edgeStore s (r.addr.toNat + 0x18) (leBytes v 8)

/-- Puts a request back, or finishes it once nothing of it is left to do. -/
def storeRequest (s : State) (r : Request) : State :=
  if r.todo.isEmpty then { (finishRequest s r) with requests := s.requests.filter fun x => x.addr != r.addr || x.restore != r.restore }
  else { s with requests := r :: s.requests.filter fun x => x.addr != r.addr || x.restore != r.restore }

/-- The descriptor's address and first word are well formed (Tables 21-8 and 21-9). -/
def descriptorOk (s : State) (a : DWord) (named : Bool) : Bool :=
  let w := memDWord s.edge a.toNat
  a.extractLsb' 0 5 == 0#5 && a.toNat + 32 ≤ edgeTop &&
    (!named || (w.extractLsb' 0 2 != 3#2 && w.extractLsb' 2 14 == 0#14)) && (memDWord s.edge (a.toNat + 8)).extractLsb' 0 3 == 0#3

/-- A request as its descriptor gives it. -/
def requestAt (s : State) (a : DWord) (restore : Bool) (todo : List Nat) : Request :=
  { addr := a, restore, table := memDWord s.edge (a.toNat + 8), count := (memDWord s.edge (a.toNat + 16)).toNat, todo,
    order := [], used := 0, done := 0, tooFew := false }

/-- PREEMPT: the request's cohorts begin to halt (R279, R289). -/
def execPreempt (w : BlockAccess) (s : State) : Out :=
  .next <| blockAccess s w 0x40 8 fun s =>
    if !descriptorOk s w.val true then refuseAccess s w.core (blockBase w.die + 0x40) .commandInvalid
    else
      let keys := preemptSet s (memDWord s.edge w.val.toNat)
      storeRequest (keys.foldl beginHalt s) (requestAt s w.val false keys)

/-- An entry of the save-area table holds this address: `n` entries from `a`. -/
def tableNames (m : Mem) (a n : Nat) (v : Nat) : Bool :=
  (m.any fun c => a ≤ c.1 && (c.1 - a) / 8 < n && (memDWord m (a + (c.1 - a) / 8 * 8)).toNat == v) ||
    (v == 0 && (m.length < n || (upFrom 0 n).any fun i => memDWord m (a + 8 * i) == 0#64))

/-- RESTORE: the cohorts whose save areas the table lists, and which their headers name, are to be restored (R280, R289, R297). -/
def execRestore (w : BlockAccess) (s : State) : Out :=
  .next <| blockAccess s w 0x48 8 fun s =>
    if !descriptorOk s w.val false then refuseAccess s w.core (blockBase w.die + 0x48) .commandInvalid
    else
      let r := requestAt s w.val true []
      let keys := (s.areas.filter fun a => tableNames s.edge r.table.toNat r.count a.1 &&
        (memDWord s.edge a.1).toNat == headerWord a.2.cohort).map fun a => a.2.key
      let ask (s : State) (k : Nat) : State :=
        match smFind k s.cohorts with
        | some c => setCohort s k { c with restoreAsked := some w.val }
        | none => s
      storeRequest (keys.foldl ask s) { r with todo := keys }

/-! ## The halt of a tile (R70, R279) -/

/-- What of a cohort cannot go any further under its halt. -/
def haltStops (s : State) (c : Cohort) : Stopped := stoppedOf s true fun u _ => (cohortTiles c).contains u

/-- What a save of a cohort keeps of its accesses and messages in flight, to be sent again (R55, R139). -/
def cohortKeeps (s : State) (c : Cohort) : List Nat := (haltStops s c).kept

/-- A load that host memory has not answered: it is bound to its save slot, and its data land in the save area (R279). -/
def hostLoad (s : State) (a : Access) : Bool :=
  a.op == .load && a.res.isNone && a.guard == .free &&
    match memType s a with
    | some (_, .host ..) => true
    | _ => false

/-- Nothing that a tile's tasks sent is still to be done but what is kept and loads that wait for a host (R70, R139, R279). -/
def accsSettled (s : State) (kept : List Nat) (t : Nat) : Bool :=
  !(s.accs.any fun a => a.tile == t && !kept.contains a.id && !hostLoad s a)

/-- A value that its predecessor sent a tile under this number is still to join ri: nothing on channel 5 stands before it for good
(R8, R61). -/
def ringComes (s : State) (t : Nat) (stopped : List Nat) (v : Nat) : Bool :=
  let p := ringPredecessor s t
  !inputBusy s t v &&
    !(s.net.any fun m => stopped.contains m.id && m.id < v && m.src == p && m.chan == Traffic.tileToTile.channel &&
      unitNamed m.dst == (0, t)) &&
    !s.accs.any fun a => stopped.contains a.id && a.id < v && a.tile == p && chan5 a && prTile a.ea == t

/-- Something in flight will fill a source of a tile's X instructions: a put with room at its register, a value for ri, an answer for
ef or the command that it will come for (R60-R62, R70). -/
def fillsComing (s : State) (t : Nat) : Bool :=
  let tl := tileOf s t
  let stopped := match cohortOf s t with
    | some (_, c, _) => (haltStops s c).kept ++ (haltStops s c).stuck
    | none => []
  (s.net.any fun m => !stopped.contains m.id && m.guard != .discarded &&
    match m.body with
    | .put .. => unitNamed m.dst == (0, t) && takesWords s t && sameCohort s m.src t
    | .engGo _ _ _ _ reply => reply && m.src == t && tl.ef.length < 16
    | _ => false) ||
    (takesWords s t && tl.ri.length < 4 && tl.riNet.any fun v => ringComes s t stopped v.1) ||
    match tl.efWait with
    | .word _ :: _ => tl.ef.length < 16
    | .notice .. :: _ => true
    | [] => false

/-- The execute side has run out its queue: it is empty, or its head waits on a source that nothing in flight will fill (R70). -/
def xOut (s : State) (t : Nat) : Bool :=
  (tileOf s t).task.xinstr.isEmpty || (xStands s t && !fillsComing s t)

/-- A trapped task's frame has been written, or cannot be: the pool of its die is empty, the record has no room, or an access-side trap
stands behind an X instruction that nothing in flight will let go on; it is then raised after the resume (R69, R158, R291, R298,
Table 21-7). -/
def trapStill (s : State) (t : Nat) : Bool :=
  match (tileOf s t).run with
  | .stopping i => (dieAt s (dieOf t)).fp.isEmpty || recordsFull s t || (!trapSettled s t i && xOut s t)
  | _ => true

/-- Nothing of a tile's matrix commands and slabs is under way but what cannot go on (R192, R196). -/
def arrayStill (s : State) (t : Nat) : Bool :=
  ((tileOf s t).forwarding.isNone || forwardWaits s t) && ((tileOf s t).ringNet.isNone || (tileOf s t).task.ring.isSome)

/-- No stolen record is on its way to the tile but one that what stands before it keeps in the network (R8, R276). -/
def landingStill (s : State) (t : Nat) : Bool :=
  match (tileOf s t).landing with
  | some (u, n, _) => !pathClear s t u n
  | none => true

/-- Both sides of a tile have stopped and what Table 19-5 lists has ended; a marked bundle's record has been written (R339). -/
def tileStill (s : State) (kept : List Nat) (t : Nat) : Bool :=
  let tl := tileOf s t
  (tl.run != .running || xOut s t) && trapStill s t && landingStill s t && tl.longq.isEmpty && tl.longWait != .sent &&
    arrayStill s t && tl.mark.isNone && accsSettled s kept t

/-- Every tile of the cohort has halted. -/
def allHalted (s : State) (c : Cohort) : Bool := (cohortTiles c).all fun t => (tileOf s t).halt == .preempt true

/-- Tiles outside a cohort wait in its cluster for tokens. -/
def othersWait (s : State) (c : Cohort) : Bool :=
  (upFrom (64 * c.cluster) 64).any fun q => (upFrom 0 4).any fun i =>
    !(cohortTiles c).contains (tileAt q i) && mmaAtHead s (tileAt q i)

/-- A cohort whose last tile has halted joins the order in which its request gives areas, and its cluster's tokens are released
where no other cohort waits for them (R278, R280, R289). -/
def noteHalted (s : State) (key : Nat) (c : Cohort) : State :=
  if !allHalted s c then s
  else
    let join (r : Request) : Request :=
      if !r.restore && r.todo.contains key && !r.order.contains key then { r with order := r.order ++ [key] } else r
    let s1 := { s with requests := s.requests.map join }
    if othersWait s1 c then s1 else freeTokens s1 c.cluster

/-- PREEMPTION_HALT: a request reaches a tile, which stops issuing; once its execute side has run out, its halt is
complete, and its unfinished copies are to be done in full after it (R70, R205, R279). A migration under way finishes first. -/
def execPreemptionHalt (t : Nat) (s : State) : Out :=
  .next <|
    let tl := tileOf s t
    match cohortOf s t with
    | some (key, c, _) =>
      match c.status with
      | .halting _ =>
        match tl.halt with
        | .migrate => s
        | .preempt true => noteHalted s key c
        | .preempt false =>
          if tileStill s (cohortKeeps s c) t then noteHalted (restartCopies (setTile s t { tl with halt := .preempt true }) t) key c else s
        | _ => setTile s t { tl with halt := .preempt false }
      | _ => s
    | none => s

/-! ## Saving (R297, R298) -/

/-- The cohort's tiles hold its context; a tile keeps what belongs to the logical tile itself (R288, R333, R337). -/
def vacate (tl : Tile) : Tile :=
  { Tile.idle with
    records := tl.records
    counters := tl.counters
    snap := tl.snap
    gap := tl.gap
    lastIssue := tl.lastIssue
    latch := tl.latch }

/-- What a tile holds after its context has been loaded. -/
def reload (old saved : Tile) (halt : Halt) : Tile :=
  { saved with
    halt := halt
    task := { saved.task with xbusy := false }
    lines := []
    badFetch := none
    records := old.records
    counters := old.counters
    snap := old.snap
    gap := old.gap
    lastIssue := old.lastIssue
    mark := none
    latch := old.latch }

/-- An access that travels with a saved cohort; a load that has been sent and waits for a host does not (R139, R279). -/
def accOfCohort (s : State) (tiles kept : List Nat) (a : Access) : Bool :=
  tiles.contains a.tile && (kept.contains a.id || !hostLoad s a)

/-- A message that travels with a saved cohort: one that is kept, one to the cohort itself, from its tiles or from a join
counter's home, and a command for an engine, whose answer comes back on channel 3 (R30, R46, R55, R221). -/
def msgOfCohort (tiles kept : List Nat) (m : Msg) : Bool :=
  let x := unitNamed m.dst
  let home := x.1 == 0 && tiles.contains x.2
  if tiles.contains m.src then kept.contains m.id || home || m.chan == 2
  else 65536 ≤ m.src && home && match m.body with
    | .wake .. => true
    | _ => false

/-- The quads of a cohort, panel-wide. -/
def cohortQuads (c : Cohort) : List Nat := c.quads.map fun q => c.cluster * 64 + q

/-- The area of a cohort. -/
def areaOf (s : State) (key : Nat) (c : Cohort) : Area :=
  let ts := cohortTiles c
  let kept := cohortKeeps s c
  { key, cohort := c
    tiles := ts.foldl (fun m t => smSet t (tileOf s t) m) []
    ql := (cohortQuads c).foldl (fun m q => smSet q (quadAt s q).ql m) []
    accs := s.accs.filter (accOfCohort s ts kept)
    msgs := s.net.filter (msgOfCohort ts kept)
    sums := s.sums.filter fun e => ts.contains (e.1 / 32) }

/-- Takes a cohort off its quads. -/
def clearQuads (s : State) (c : Cohort) : State :=
  (cohortQuads c).foldl (fun s q => setQuad s q { quadAt s q with team := none, ql := [] }) s

/-- A quad leaves, or returns to, the quads of a BATCH launch with its saved cohort (R272, R280). -/
def batchHolds (s : State) (ln : Nat) (edit : List Nat → List Nat) : State :=
  match smFind ln s.launches with
  | some l => if cardKind l.card == 2 then setLaunch s ln { l with batchQuads := edit l.batchQuads } else s
  | none => s

/-- Writes an area into edge memory. -/
def storeArea (s : State) (addr : Nat) (a : Area) : State :=
  { (putRegion s addr (areaSize a.cohort) (areaImage s a)) with areas := smSet addr a s.areas }

/-- Saves a halted cohort to an area (R70, R297); tokens that no other cohort of the cluster waits for are free (R280). -/
def saveTo (s : State) (key : Nat) (c : Cohort) (held : Bool) (addr : DWord) : State :=
  let ts := cohortTiles c
  let kept := cohortKeeps s c
  let s1 := { (storeArea s addr.toNat (areaOf s key c)) with
    accs := s.accs.filter fun a => !accOfCohort s ts kept a
    net := s.net.filter fun m => !msgOfCohort ts kept m
    sums := s.sums.filter fun e => !ts.contains (e.1 / 32) }
  let s2 := ts.foldl (fun s t => setTile s t (vacate (tileOf s t))) (if othersWait s c then s1 else freeTokens s1 c.cluster)
  let s3 := batchHolds (clearQuads s2 c) c.launch fun qs => qs.filter fun q => !(cohortQuads c).contains q
  setCohort s3 key { c with status := .saved addr held }

/-- The area that a request's table gives the cohort which halted as number `i`: aligned on 1 MiB, in edge memory (R289). -/
def areaFor (s : State) (r : Request) (c : Cohort) (i : Nat) : Option DWord :=
  if i < r.count then
    let a := memDWord s.edge (r.table.toNat + 8 * i)
    if a.extractLsb' 0 20 == 0#20 && a.toNat + areaSize c ≤ edgeTop then some a else none
  else none

/-- COHORT_SAVE: a cohort all of whose tiles have halted is saved to its area, or stays halted in place where none is
left (R70, R289, R297); a host gives up the lines of the area first (R256). -/
def execCohortSave (key : Nat) (s : State) : Out :=
  .next <| match smFind key s.cohorts with
    | some c =>
      match c.status with
      | .halting held =>
        if !allHalted s c || !((cohortTiles c).all (tileStill s (cohortKeeps s c))) then s
        else
          match s.requests.find? fun r => !r.restore && r.order.contains key with
          | none => s
          | some r =>
            let rest := r.todo.filter (· != key)
            match areaFor s r c (r.order.idxOf key) with
            | some a =>
              match regionHeld s a.toNat (areaSize c) with
              | some l => askBack s l
              | none => storeRequest (saveTo s key c held a) { r with todo := rest, used := r.used + 1, done := r.done + 1 }
            | none => storeRequest (setCohort s key { c with status := .stranded held }) { r with todo := rest, tooFew := true }
      | _ => s
    | none => s

/-! ## Responses (R53, R135, R141-R145, R279) -/

/-- The area in which the task of an access stands saved. -/
def savedWith (s : State) (a : Access) : Option (Nat × Area) :=
  s.areas.find? fun r => match smFind a.tile r.2.tiles with
    | some tl => holdsTask tl a.gtid
    | none => false

/-- The result of a host load lands in the save slot of its tile (R279). -/
def deliverSaved (s : State) (addr : Nat) (ar : Area) (a : Access) (r : AccResult) : State :=
  let tl := smGet Tile.idle a.tile ar.tiles
  let p := landResult tl.task a r
  let entries := match p.2 with
    | some c => [entryFor a c]
    | none => []
  storeArea (dropAccess s a.id) addr
    { ar with tiles := smSet a.tile { tl with task := p.1, replay := tl.replay ++ entries } ar.tiles }

/-- A response comes back to the tile, or to the save area in which its task stands. -/
def respond (s : State) (a : Access) (r : AccResult) : State :=
  match savedWith s a with
  | some (addr, ar) => deliverSaved s addr ar a r
  | none => deliver s a r

/-- ACCESS_RESPONSE: a performed or refused access returns (R53, R135, R141-R145). A reply on channel 5 waits behind an inbox
message that stands at the tile's input (R18, R224); one for a save area waits until hosts have given up its lines (R256, R308). -/
def execAccessResponse (id : Nat) (s : State) : Out :=
  .next <| match s.accs.find? fun a => a.id == id with
    | some a =>
      match a.res with
      | some r =>
        if a.op == .tdef || (r == .fault .kerbRefused && recordsFull s a.tile) || (chan5 a && inputBusy s a.tile a.id) then s
        else
          match (savedWith s a).bind fun x => regionHeld s x.1 (areaSize x.2.cohort) with
          | some l => askBack s l
          | none => respond s a r
      | none => s
    | none => s

/-! ## Restoring (R29, R280, R298) -/

/-- A quad reserved by a PLACED launch of a higher level (R273). -/
def reservedAbove (s : State) (q level : Nat) : Bool :=
  s.launches.any fun l => l.2.placed.contains q && level < levelOf l.2

/-- A BATCH launch keeps this quad (R272). -/
def batchKeeps (s : State) (q : Nat) : Bool := s.launches.any fun l => l.2.batchQuads.contains q

/-- The cohort's own quads are free for it. -/
def quadsFree (s : State) (c : Cohort) : Bool :=
  let level := match smFind c.launch s.launches with
    | some l => levelOf l
    | none => 0
  (cohortQuads c).all fun q => (quadAt s q).team.isNone && !batchKeeps s q && !reservedAbove s q level

/-- The tile of a cohort's resolutions that waited for its restore (R298). -/
def applyWaiting (s : State) (key : Nat) : State :=
  match smFind key s.cohorts with
  | none => s
  | some c =>
    let s0 := setCohort s key { c with waiting := [] }
    let s1 := c.waiting.foldl (fun s r =>
      match smFind key s.cohorts with
      | some c => if c.status == .halted then resolveHalted s r.1 key c r.2 else s
      | none => s) s0
    let ts := cohortTiles c
    s1.frames.foldl (fun s f =>
      if !ts.contains f.2.tile then s
      else
        match f.2.answer with
        | some .endTask => endFrame s (BitVec.ofNat 64 f.1) f.2
        | some .endLaunch => endFrameLaunch s (BitVec.ofNat 64 f.1) { f.2 with answer := none }
        | _ => s) s1

/-- The applied fidelity of a launch (R122). -/
def fidOf (s : State) (ln : Nat) : Nat :=
  match smFind ln s.launches with
  | some l => l.fid
  | none => 0

/-- Loads a saved cohort onto its quads, at its launch's fidelity; its launch's time of waiting starts anew (R122, R268, R280,
R298). -/
def restoreFrom (s : State) (addr : Nat) (a : Area) (held : Bool) : State :=
  let c := a.cohort
  let halt := if held then Halt.held false else Halt.none
  let s1 := a.tiles.foldl (fun s e => setTile s e.1 (reload (tileOf s e.1) e.2 halt)) s
  let s2 := ((upFrom 0 c.quads.length).zip (cohortQuads c)).foldl (fun s e =>
    setQuad (mendQuad s e.2) e.2 { quadAt s e.2 with team := some (a.key, e.1), fid := fidOf s c.launch, ql := smGet [] e.2 a.ql }) s1
  let waiting := match smFind a.key s.cohorts with
    | some x => x.waiting
    | none => []
  let s3 := { s2 with
    accs := s2.accs ++ a.accs
    net := s2.net ++ a.msgs
    sums := a.sums.foldl (fun m e => smSet e.1 e.2 m) s2.sums
    areas := smErase addr s2.areas }
  let s4 := setCohort s3 a.key { c with status := if held then .halted else .resident, restoreAsked := none, waiting := waiting }
  let s5 := batchHolds (match smFind c.launch s4.launches with
    | some l => setLaunch s4 c.launch { l with aged := 0 }
    | none => s4) c.launch fun qs => qs ++ cohortQuads c
  let s6 := if s.damage.contains (.frame addr) || damaged s (.gl (.edge addr) 0#2) (areaSize c) then
      bumpLife (endLaunchWith s5 c.launch .dataError) (.uncorrectable (stackOf addr)) 1
    else s5
  applyWaiting s6 a.key

/-- Counts a restored cohort in the request that asked for it. -/
def countRestored (s : State) (key : Nat) : State :=
  match s.requests.find? fun r => r.restore && r.todo.contains key with
  | some r => storeRequest s { r with todo := r.todo.filter (· != key), done := r.done + 1 }
  | none => s

/-- Restores one cohort from its area, as edge memory holds it. -/
def restoreOne (s : State) (key : Nat) : State :=
  match smFind key s.cohorts with
  | some c =>
    match c.status with
    | .saved addr held =>
      match smFind addr.toNat s.areas with
      | some a => countRestored (restoreFrom s addr.toNat (areaNow s addr.toNat a) held) key
      | none => s
    | _ => s
  | none => s

/-- The access is a load of the cohort saved at this address, which waits for a host. -/
def boundTo (s : State) (addr : Nat) (a : Access) : Bool :=
  match savedWith s a with
  | some r => r.1 == addr
  | none => false

/-- A load of the area's cohort still waits for a host (R279). -/
def hostPending (s : State) (addr : Nat) : Bool := s.accs.any (boundTo s addr)

/-- The cohort is saved, asked for, its quads are free, and its host loads have landed. -/
def mayRestore (s : State) (c : Cohort) : Bool :=
  (match c.status with
   | .saved addr _ => !hostPending s addr.toNat
   | _ => false) && c.restoreAsked.isSome && quadsFree s c

/-- COHORT_RESTORE: a saved cohort returns to its own quads; those of a PLACED launch return together (R30, R273, R280). -/
def execCohortRestore (key : Nat) (s : State) : Out :=
  .next <| match smFind key s.cohorts with
    | some c =>
      let group := if cohortPlaced s c then s.cohorts.filter fun e => e.2.launch == c.launch else [(key, c)]
      if group.all fun e => mayRestore s e.2 then group.foldl (fun s e => restoreOne s e.1) s else s
    | none => s

end Sys2Proof.Machine
end

