-- ==== Sys2Proof/Machine/Admit.lean ====
section
/-! DEFINITION. Submission of launch cards (R260, R309, R310) and their admission (R261-R267). -/

namespace Sys2Proof.Machine

/-! ## Submission (R260, R310) -/

/-- The number of a page among those of all ports: 16,384 each (R309, Table 23-1). -/
def pageKey (port page : Nat) : Nat := port * 16384 + page

/-- The page that a write names. -/
def slotPage (w : SlotWrite) : Nat := pageKey w.port w.page

/-- The key of a stream: its page among those of all ports, and slot. -/
def streamKey (page slot : Nat) : Nat := page * 32 + slot

/-- An empty stream. -/
def Stream.fresh : Stream := ⟨[], 0, [], 0⟩

def streamAt (s : State) (k : Nat) : Stream := smGet Stream.fresh k s.streams
def setStream (s : State) (k : Nat) (v : Stream) : State := { s with streams := smSet k v s.streams }

/-- The page accepts cards: bound, not suspended, and the panel has booted (R260, R309). -/
def pageOpen (s : State) (page : Nat) : Bool :=
  5 ≤ s.mgmt.step &&
    match smFind page s.pages with
    | some p => !p.suspended
    | none => false

/-- One whole card, aligned on its slot. -/
def wholeCard (w : SlotWrite) : Bool := w.whole && w.bytes.length == 128 && w.off % 128 == 0 && w.off < 4096

/-- The card of a write. -/
def cardOf (bs : List Byte) : BitVec 1024 := BitVec.ofNat 1024 (leNat bs)

/-- What becomes of a write to a submission page (R260). -/
def submit (s : State) (w : SlotWrite) : Answer × State :=
  if !wholeCard w then (.unsupported, s)
  else
    let k := streamKey (slotPage w) (w.off / 128)
    let st := streamAt s k
    if !pageOpen s (slotPage w) || 256 ≤ st.queue.length then (.retry, s)
    else (.done, setStream s k { st with queue := st.queue ++ [cardOf w.bytes] })

/-- CARD_SUBMISSION: a host's write to a slot is accepted, retried or answered as unsupported (R260, R309). -/
def execCardSubmission (w : SlotWrite) (s : State) : Out :=
  .next <|
    let r := submit s w
    { r.2 with reply := ⟨r.1, []⟩ }

/-- STATUS of a submission outcome (Table 23-3). -/
def submissionCode (a : Answer) : Byte :=
  match a with
  | .done => 0#8
  | .retry => 1#8
  | _ => 2#8

/-- PLAZA_SUBMISSION: a core's store to a slot; the outcome lands in its submission status register (R310). -/
def execPlazaSubmission (core : Nat) (w : SlotWrite) (s : State) : Out :=
  .next <|
    let r := submit s w
    setCore r.2 core { coreAt r.2 core with subValid := true, subStatus := submissionCode r.1 }

/-- A read of a submission status register returns the latest outcome and clears it (R310). -/
def readSubmission (s : State) (core : Nat) : State :=
  let c := coreAt s core
  let v := (if c.subValid then 2 ^ 63 else 0) + c.subStatus.toNat
  replyBytes (setCore s core { c with subValid := false, subStatus := 0#8 }) (leBytes v 8)

/-- SUBMISSION_STATUS: a read returns the latest outcome and clears it (R310). -/
def execSubmissionStatus (core : Nat) (s : State) : Out := .next (readSubmission s core)

/-! ## Kind-specific fields (Table 19-1) -/

/-- Bits of the doublewords at +0x28 and +0x30. -/
def kindField (c : BitVec 1024) (off lo len : Nat) : Nat := cardField c off lo len

/-- Extents of a GRID card. -/
def cardE0 (c : BitVec 1024) : Nat := kindField c 0x28 0 20 + 1
def cardE1 (c : BitVec 1024) : Nat := kindField c 0x28 20 20 + 1
def cardE2 (c : BitVec 1024) : Nat := kindField c 0x28 40 20 + 1

/-- Records of a BATCH card, their size, and its tile limit. -/
def cardRecords (c : BitVec 1024) : Nat := kindField c 0x30 0 32 + 1
def cardRecBytes (c : BitVec 1024) : Nat := kindField c 0x30 32 16
def cardTileLimit (c : BitVec 1024) : Nat := kindField c 0x30 48 16

/-- Cohorts of a PLACED card. -/
def cardCohorts (c : BitVec 1024) : Nat := kindField c 0x30 0 10 + 1

/-- Teams per cohort and tasks per team. -/
def cardT (c : BitVec 1024) : Nat :=
  match cardKind c with
  | 1 => kindField c 0x30 0 6 + 1
  | 3 => kindField c 0x30 16 6 + 1
  | _ => 1

def cardS (c : BitVec 1024) : Nat :=
  match cardKind c with
  | 1 => kindField c 0x30 6 2 + 1
  | 3 => kindField c 0x30 22 2 + 1
  | _ => 1

/-- How many cohorts a launch has, in one run. -/
def cardTotal (c : BitVec 1024) : Nat :=
  match cardKind c with
  | 1 => cardE0 c * cardE1 c * cardE2 c
  | 2 => cardRecords c
  | _ => cardCohorts c

/-! ## Dependence vectors (R33, R263) -/

/-- NDEP. -/
def cardNdep (c : BitVec 1024) : Nat := cardField c 0x48 48 3

/-- A component as a signed number. -/
def depComp (c : BitVec 1024) (v i : Nat) : Int := ((cardDeps c).extractLsb' (12 * v + 4 * i) 4).toInt

/-- The vectors of a card. -/
def cardVectors (c : BitVec 1024) : List (Int × Int × Int) :=
  (upFrom 0 (min 4 (cardNdep c))).map fun v => (depComp c v 0, depComp c v 1, depComp c v 2)

/-- A vector is lexicographically negative (R33). -/
def lexNegative (d : Int × Int × Int) : Bool :=
  d.1 < 0 || (d.1 == 0 && (d.2.1 < 0 || (d.2.1 == 0 && d.2.2 < 0)))

/-- DEPS is well formed (R263). -/
def depsOk (c : BitVec 1024) : Bool :=
  let d := cardDeps c
  let n := cardNdep c
  n ≤ 4 && d.extractLsb' 51 13 == 0#13 && (n == 0 || cardKind c == 1) &&
    (cardVectors c).all (fun v => v.1 != -8 && v.2.1 != -8 && v.2.2 != -8) &&
    (d.extractLsb' 0 48).toNat / 2 ^ (12 * n) == 0

/-! ## Reading what a card points at -/

/-- Entry `i` of the placement map. -/
def mapEntry (s : State) (tag : Nat) (c : BitVec 1024) (i : Nat) : Option Nat :=
  (readVirtual s tag (cardWord c 0x28 + BitVec.ofNat 64 (2 * i)) 2).map leNat

/-- Every entry can be read and has bits 15:8 zero (R273). -/
def mapOk (s : State) (tag : Nat) (c : BitVec 1024) : Bool :=
  (upFrom 0 (cardCohorts c)).all fun i =>
    match mapEntry s tag c i with
    | some e => e < 256
    | none => false

/-- Bytes of the guard bitmap: a bit for each granule of the allotment. -/
def bitmapBytes (c : BitVec 1024) : Nat := (cardScratch c / 64 + 7) / 8

/-- The guard bitmap at CODE (R274). -/
def bitmapOf (s : State) (tag : Nat) (c : BitVec 1024) : Option (List Byte) := readVirtual s tag (cardCode c) (bitmapBytes c)

/-! ## The checks of Table 19-3 -/

/-- Check 1, field by field: the card offset divided by 8 of each field, and whether it passes (R262-R266). -/
def fieldChecks (s : State) (tag : Nat) (c : BitVec 1024) : List (Nat × Bool) :=
  let w (o : Nat) : DWord := cardWord c o
  let kind := cardKind c
  [(0x00, (w 0).extractLsb' 35 5 == 0#5 && (w 0).extractLsb' 10 14 == 0#14 && 1 ≤ kind && kind ≤ 3 && cardPrio c ≤ 47 &&
      cardOrder c != 3 && !(cardReplica c && (cardFid c == 1 || cardFid c == 2))),
    (0x03, (w 0x18).extractLsb' 0 3 == 0#3 && (w 0x18).extractLsb' 57 7 == 0#7),
    (0x04, (w 0x20).extractLsb' 0 12 == 0#12 &&
      (cardGpol c != 1 || (w 0x20 != 0#64 && (bitmapOf s tag c).isSome))),
    (0x05, match kind with
      | 1 => (w 0x28).extractLsb' 60 4 == 0#4 && cardE0 c * cardE1 c * cardE2 c ≤ 2 ^ 32
      | 2 => (w 0x28).extractLsb' 0 3 == 0#3
      | 3 => (w 0x28).extractLsb' 0 3 == 0#3 && mapOk s tag c
      | _ => true),
    (0x06, match kind with
      | 1 => (w 0x30).extractLsb' 8 56 == 0#56
      | 2 => 8 ≤ cardRecBytes c && cardRecBytes c ≤ 4096 && cardRecBytes c % 8 == 0
      | 3 => (w 0x30).extractLsb' 10 6 == 0#6 && (w 0x30).extractLsb' 24 40 == 0#40
      | _ => true),
    (0x07, if cardReplica c then (w 0x38).extractLsb' 0 5 == 0#5 && (readVirtual s tag (w 0x38) 32).isSome else w 0x38 == 0#64),
    (0x09, depsOk c),
    (0x0a, (w 0x50).extractLsb' 0 6 == 0#6),
    (0x0b, (w 0x58).extractLsb' 22 42 == 0#42 && !(w 0x58).getLsbD 11 && (w 0x58).extractLsb' 14 2 != 3#2),
    (0x0c, (w 0x60).extractLsb' 0 12 == 0#12),
    (0x0d, (w 0x68).extractLsb' 34 30 == 0#30 && cardGpol c ≤ 1 && cardScratch c % 64 == 0 && cardScratch c ≤ 0x2f800),
    (0x0e, w 0x70 == 0#64),
    (0x0f, w 0x78 == 0#64)]

/-- REASON of a card that fails check 1: its lowest-placed field among those that fail (R266). -/
def invalidField (s : State) (tag : Nat) (c : BitVec 1024) : Option Nat :=
  ((fieldChecks s tag c).find? fun f => !f.2).map (·.1)

/-- The capability bits of the AF-64: 0 to 11 (R267). -/
def capability : BitVec 128 := 0xfff#128

/-- The panel-wide cluster that a map entry names, if it lies in the region (R273). -/
def mapCluster (s : State) (tag e : Nat) : Option Nat :=
  match smFind tag s.regions with
  | some r =>
    let x := e % 16
    let y := e / 16 % 16
    if x < r.width && y < r.height then some ((r.y0 + y) * 16 + (r.x0 + x)) else none
  | none => none

/-- The cluster of each cohort of a PLACED card. -/
def mapClusters (s : State) (tag : Nat) (c : BitVec 1024) : List (Option Nat) :=
  (upFrom 0 (cardCohorts c)).map fun i => (mapEntry s tag c i).bind (mapCluster s tag)

/-- Check 5: the region can hold the launch (Table 19-3). -/
def regionHolds (s : State) (tag : Nat) (c : BitVec 1024) : Bool :=
  (cardKind c != 3 ||
    (let cs := mapClusters s tag c
     cs.all fun x => x.isSome && (cs.filter (· == x)).length * cardT c ≤ 64)) &&
    (!cardReplica c || 2 ≤ (regionDies s tag).length)

/-- The fidelity applied (Table 19-3, check 6). -/
def appliedFid (s : State) (tag : Nat) (c : BitVec 1024) : Nat :=
  let f := match tenantOf s tag with
    | some (_, t) => min (cardFid c) t.ceiling
    | none => cardFid c
  if cardReplica c && (f == 1 || f == 2) then 0 else f

/-- The first check of Table 19-3 that refuses a card: status and REASON. -/
def refusal (s : State) (p : Page) (c : BitVec 1024) : Option (Code × Nat) :=
  match invalidField s p.tag c with
  | some f => some (.cardInvalid, f)
  | none =>
    if 40 ≤ cardPrio c && !p.system then some (.privilege, 0)
    else if (c.extractLsb' 64 128) &&& ~~~capability != 0#128 then some (.featureMissing, 0)
    else if !((cardVectors c).all lexNegative) then some (.illegalCycle, 0)
    else if !regionHolds s p.tag c then some (.regionTooSmall, 0)
    else none

/-! ## Admission (R261, R266, R269, R281) -/

/-- The slab of die `k` of `n` for one run, as linear cohort indices (R269): run B of a replica launch takes the next
die's slab, so that the two runs of a cohort lie on different dies. -/
def slabOf (c : BitVec 1024) (k n : Nat) (runB : Bool) : Tickets :=
  let j := if runB then (k + 1) % n else k
  let row := cardE1 c * cardE2 c
  ⟨j * cardE0 c / n * row, (j + 1) * cardE0 c / n * row⟩

/-- The ticket counters of a GRID launch, by 2 x die + run. -/
def ticketsFor (s : State) (tag : Nat) (c : BitVec 1024) : SMap Tickets :=
  if cardKind c != 1 then []
  else
    let dies := regionDies s tag
    let n := dies.length
    ((upFrom 0 n).zip dies).foldl (fun m e =>
      let m1 := smSet (2 * e.2) (slabOf c e.1 n false) m
      if cardReplica c then smSet (2 * e.2 + 1) (slabOf c e.1 n true) m1 else m1) []

/-- A breakpoint that is off. -/
def Breakpoint.off : Breakpoint := ⟨false, 0#64, 0#64, 0#64⟩

/-- The launch of a card that is examined now. -/
def newLaunch (s : State) (page slot seq : Nat) (p : Page) (c : BitVec 1024) : Launch :=
  let fid := appliedFid s p.tag c
  { card := c, page, slot, seq, tag := p.tag, fid, info := if fid != cardFid c then 0x24#8 else 0#8, failed := none,
    ended := false, reason := 0#8, start := s.clk, det := 0#32, rep := 0#32, retired := 0, faults := 0, boardA := [],
    boardB := [], tickets := ticketsFor s p.tag c, parked := [], moved := [], batchNext := 0, batchNextB := 0, batchQuads := [], placed := [],
    sigA := 0#128, sigB := 0#128, aged := 0, dispatched := false, watched := 0,
    brks := Vector.replicate 16 Breakpoint.off }

/-- A refused launch: it dispatches nothing and completes with its status (R266; log 20 on FID). -/
def refusedLaunch (l : Launch) (code : Code) (reason : Nat) (fid : BitVec 2) : Launch :=
  { l with failed := some code, reason := BitVec.ofNat 8 reason, ended := true, tickets := [], fid := fid.toNat, info := 0#8 }

/-- The next launch number that no launch holds (Table 1-7). -/
def freeNumber (s : State) : Option Nat :=
  (upFrom 0 (s.launches.length + 1)).findSome? fun i =>
    let n := (s.nextLaunch + i) % 65536
    if (smFind n s.launches).isNone then some n else none

/-- ADMISSION: the next card of a stream is given a launch number and examined (R31, R261, R266). It is an acquire of the card
store: the writes that came before it through its port are performed first (R256). -/
def execAdmission (page slot : Nat) (s : State) : Out :=
  .next <| if behind s (.port (page / 16384)) then s else
    let k := streamKey page slot
    let st := streamAt s k
    match st.queue, smFind page s.pages, freeNumber s with
    | card :: rest, some p, some n =>
      let l := newLaunch s page slot st.seq p card
      let l1 := match refusal s p card with
        | some (code, reason) => refusedLaunch l code reason (Config.refusedFid s.freeIdx)
        | none => l
      let s1 := setStream s k { st with queue := rest, seq := st.seq + 1, open_ := st.open_ ++ [st.seq] }
      setLaunch { s1 with nextLaunch := (n + 1) % 65536, freeIdx := s.freeIdx + 1 } n l1
    | _, _, _ => s

end Sys2Proof.Machine
end

