-- ==== Sys2Proof/Machine/Schedule.lean ====
section
/-! DEFINITION. Dispatch, retirement and completion (R26-R36, R43, R44, R264, R265, R268-R274, R281-R283, R311). -/

namespace Sys2Proof.Machine

/-! ## What a launch may dispatch -/

/-- The launch's order mode lets it dispatch (R261). -/
def orderOk (s : State) (l : Launch) : Bool :=
  let st := streamAt s (streamKey l.page l.slot)
  match cardOrder l.card with
  | 0 => l.seq == 0 || !st.open_.contains (l.seq - 1)
  | 1 => true
  | _ => st.open_.all fun q => l.seq ≤ q

/-- Coordinates of a cohort in the grid (R33). -/
def gridOf (c : BitVec 1024) (i : Nat) : Nat × Nat × Nat := (i / (cardE1 c * cardE2 c), i / cardE2 c % cardE1 c, i % cardE2 c)

/-- The predecessor of a cohort by a vector, where it lies inside the grid. -/
def predecessor (c : BitVec 1024) (i : Nat) (d : Int × Int × Int) : Option Nat :=
  let g := gridOf c i
  let x := (g.1 : Int) + d.1
  let y := (g.2.1 : Int) + d.2.1
  let z := (g.2.2 : Int) + d.2.2
  if 0 ≤ x && x < cardE0 c && 0 ≤ y && y < cardE1 c && 0 ≤ z && z < cardE2 c then
    some ((x.toNat * cardE1 c + y.toNat) * cardE2 c + z.toNat)
  else none

/-- The retirement scoreboard of a run. -/
def boardOf (l : Launch) (runB : Bool) : List Nat := if runB then l.boardB else l.boardA

/-- A cohort is eligible: every predecessor inside the grid has retired in the same run (R33, R271, R282). -/
def eligible (l : Launch) (i : Nat) (runB : Bool) : Bool :=
  (cardVectors l.card).all fun d =>
    match predecessor l.card i d with
    | some p => (boardOf l runB).contains p
    | none => true

/-- The runs of a launch. -/
def runsOf (l : Launch) : List Bool := if cardReplica l.card then [false, true] else [false]

/-- The launch is admitted, has not ended, and may dispatch. -/
def mayDispatch (s : State) (l : Launch) : Bool := !l.ended && orderOk s l

/-! ## Quads that a launch may have -/

/-- A restore has been asked for that needs this quad, by a launch of this level or a higher one (R268, R280). -/
def awaited (s : State) (q level : Nat) : Bool :=
  s.cohorts.any fun e =>
    e.2.restoreAsked.isSome && (cohortQuads e.2).contains q &&
      match smFind e.2.launch s.launches with
      | some l => level ≤ levelOf l
      | none => false

/-- A quad of a cluster is free for a launch of this level: mapped, without a team, kept by no BATCH launch, and neither
reserved nor awaited by another (R27, R268, R272, R273, R280). -/
def quadFree (s : State) (q level : Nat) : Bool :=
  let d := quadAt s q
  d.valid && d.team.isNone && !batchKeeps s q && !reservedAbove s q level && !awaited s q level

/-- The free quads of a cluster, in increasing number. -/
def freeQuads (s : State) (c level : Nat) : List Nat := (upFrom (64 * c) 64).filter fun q => quadFree s q level

/-! ## GRID: draws and parking (R269, R271) -/

/-- The parked ticket of a cluster that has become eligible, the earliest drawn. -/
def wokenTicket (l : Launch) (c : Nat) : Option Parked := l.parked.find? fun p => p.cluster == c && eligible l p.index p.runB

/-- The runs of a launch that have tickets left on a die. -/
def runWithTickets (l : Launch) (die : Nat) : Option Bool :=
  (runsOf l).find? fun b =>
    match smFind (2 * die + if b then 1 else 0) l.tickets with
    | some t => t.next < t.last
    | none => false

/-- A cluster may draw a ticket: fewer than 4 are parked on it (R269). -/
def mayDraw (l : Launch) (c : Nat) : Bool := (l.parked.filter (·.cluster == c)).length < 4

/-- BATCH: the run that a quad's tile takes records of. In replica mode every second die of the region takes run B, so that
the two runs of a record lie on different dies (R282; log 22). -/
def runOfQuad (s : State) (l : Launch) (q : Nat) : Bool :=
  cardReplica l.card && (regionDies s l.tag).idxOf (dieOfCluster (q / 64)) % 2 == 1

/-- The next record of a run. -/
def batchNextOf (l : Launch) (runB : Bool) : Nat := if runB then l.batchNextB else l.batchNext

/-- P: the quads that one run of the launch uses (R272). -/
def batchP (s : State) (l : Launch) (runB : Bool) : Nat :=
  let quads := ((upFrom 0 256).filter fun c => tagOfCluster s c == l.tag && runOfQuad s l (64 * c) == runB).length * 64
  let lim := cardTileLimit l.card
  min (if lim == 0 then quads else min quads lim) (cardRecords l.card)

/-- Saved cohorts of a launch and run. -/
def savedOf (s : State) (ln : Nat) (runB : Bool) : Nat :=
  (s.cohorts.filter fun e => e.2.launch == ln && e.2.runB == runB &&
    (match e.2.status with
     | .saved .. => true
     | _ => false)).length

/-- BATCH: a quad of the cluster is still wanted (R272). -/
def batchWants (s : State) (c ln : Nat) (l : Launch) : Bool :=
  let b := runOfQuad s l (64 * c)
  (l.batchQuads.filter fun q => runOfQuad s l q == b).length + savedOf s ln b < batchP s l b && batchNextOf l b < cardRecords l.card

/-- The cluster of run B of a cohort that the map pins to a cluster: in the region's next die, at the same place of the die
where the region has it, else at its first (R282; log 22). -/
def shadowCluster (s : State) (tag c : Nat) : Nat :=
  let dies := regionDies s tag
  let d := (dies[(dies.idxOf (dieOfCluster c) + 1) % dies.length]?).getD (dieOfCluster c)
  let same := ((clustersOfDie d)[(clustersOfDie (dieOfCluster c)).idxOf c]?).getD c
  if tagOfCluster s same == tag then same
  else (((clustersOfDie d).filter fun x => tagOfCluster s x == tag)[0]?).getD c

/-- PLACED: the clusters on other dies that may run run B of a cohort placed in a cluster, the first choice first. -/
def shadowChoices (s : State) (tag c : Nat) : List Nat :=
  let first := shadowCluster s tag c
  first :: (upFrom 0 256).filter fun x => tagOfCluster s x == tag && dieOfCluster x != dieOfCluster c && x != first

/-- PLACED: the wave and cluster in which run B of each cohort is placed, where cohorts of `n` teams have room: in map order, each
takes the first choice with room in the earliest wave (R27, R282; log 22). -/
def shadowWaves (s : State) (tag n : Nat) (a : List (Nat × Nat)) : List (Nat × Nat × Nat) :=
  a.foldl (fun acc e =>
    let room (w c : Nat) : Bool := ((acc.filter fun x => x.1 == w && x.2.2 == c).length + 1) * n ≤ 64
    let cs := shadowChoices s tag e.2
    let at_ := (upFrom 1 (acc.length + 1)).findSome? fun w => (cs.find? (room w)).map fun c => (w, e.1, c)
    acc ++ [at_.getD (1, e.1, e.2)]) []

/-- PLACED: every cohort of both runs in map order, with the group that is dispatched together: run A is group 0 (R273, R282).
DESIGN CHOICE (log 103): the map is read again whenever the launch is offered quads, and an entry that no longer can be read, or
lies outside the region, counts as cluster 0. -/
def placements (s : State) (l : Launch) : List (Nat × Nat × Bool × Nat) :=
  let a := ((upFrom 0 (cardCohorts l.card)).zip (mapClusters s l.tag l.card)).map fun e => (e.1, e.2.getD 0)
  let b := if cardReplica l.card then shadowWaves s l.tag (cardT l.card) a else []
  (a.map fun e => (0, e.1, false, e.2)) ++ b.map fun e => (e.1, e.2.1, true, e.2.2)

/-- A cohort of a launch has been made resident before. -/
def begun (s : State) (ln : Nat) (l : Launch) (index : Nat) (runB : Bool) : Bool :=
  (smFind (cohortKey ln index runB) s.cohorts).isSome || (boardOf l runB).contains index

/-- PLACED: the cohorts of the next group to dispatch: index, run, cluster. -/
def placedGroup (s : State) (ln : Nat) (l : Launch) : List (Nat × Bool × Nat) :=
  let ps := placements s l
  match ((ps.filter fun e => !begun s ln l e.2.1 e.2.2.1).map (·.1)).min? with
  | some k => (ps.filter fun e => e.1 == k).map (·.2)
  | none => []

/-- PLACED: quads that the next group needs in a cluster. -/
def placedNeeds (s : State) (ln : Nat) (l : Launch) (c : Nat) : Nat :=
  ((placedGroup s ln l).filter (·.2.2 == c)).length * cardT l.card

/-- PLACED: a group has yet to be made resident. -/
def placedWaits (s : State) (ln : Nat) (l : Launch) : Bool := !(placedGroup s ln l).isEmpty

/-- PLACED: the reserved quads that no launch of its level or a higher one has taken since (R273). -/
def reservedQuads (s : State) (l : Launch) : List Nat := l.placed.filter fun q => quadFree s q (levelOf l)

/-- The launch's reserved quads of a cluster. -/
def reservedIn (s : State) (l : Launch) (c : Nat) : Nat := ((reservedQuads s l).filter fun q => q / 64 == c).length

/-- Every cluster of the next group has its quads reserved. -/
def placedReady (s : State) (ln : Nat) (l : Launch) : Bool :=
  placedWaits s ln l && (upFrom 0 256).all fun c => placedNeeds s ln l c ≤ reservedIn s l c

/-- The die on which a run of a GRID cohort is, or was, or will be dispatched, as far as its ticket says (R269, R270). -/
def dieOfTicket (s : State) (l : Launch) (index : Nat) (runB : Bool) : Option Nat :=
  match l.moved.find? fun m => m.1 == index && m.2.1 == runB with
  | some m => some m.2.2
  | none =>
    let dies := regionDies s l.tag
    (((upFrom 0 dies.length).zip dies).find? fun e =>
      let t := slabOf l.card e.1 dies.length runB
      t.next ≤ index && index < t.last).map (·.2)

/-- The die of a launch with the most tickets left, the lowest number first among equals (R270). -/
def richestDie (l : Launch) : Option (Nat × Tickets) :=
  l.tickets.foldl (fun best e =>
    let n := e.2.last - e.2.next
    match best with
    | none => if 0 < n then some e else none
    | some b => if b.2.last - b.2.next < n then some e else best) none

/-- In replica mode a steal would bring both runs of a cohort onto one die (R282). -/
def twinHere (s : State) (l : Launch) (die index : Nat) (runB : Bool) : Bool :=
  cardReplica l.card && dieOfTicket s l index (!runB) == some die

/-- The ticket that a cluster of an exhausted die may steal: the last one of the die with most left, by its counter, but for one whose
other run has its place on the thief's die (R270, R282; log 22). -/
def stolenTicket (s : State) (c : Nat) (l : Launch) : Option (Nat × Tickets) :=
  if cardNoDieSteal l.card || (runWithTickets l (dieOfCluster c)).isSome then none
  else (richestDie l).filter fun e => !twinHere s l (dieOfCluster c) (e.2.last - 1) (e.1 % 2 == 1)

/-- The launch can use the free quads of a cluster, with a ticket that it draws or steals (R268, R270). -/
def canUse (s : State) (c ln : Nat) (l : Launch) : Bool :=
  let free := freeQuads s c (levelOf l)
  mayDispatch s l && tagOfCluster s c == l.tag &&
    match cardKind l.card with
    | 1 =>
      cardT l.card ≤ free.length &&
        ((wokenTicket l c).isSome || (mayDraw l c && ((runWithTickets l (dieOfCluster c)).isSome || (stolenTicket s c l).isSome)))
    | 2 => !free.isEmpty && batchWants s c ln l
    | _ =>
      placedReady s ln l || (reservedIn s l c < placedNeeds s ln l c && free.any fun q => !l.placed.contains q)

/-! ## Choosing a launch (R268) -/

/-- The launches that can use a cluster, at the highest level among them. -/
def topLaunches (s : State) (c : Nat) : List (Nat × Launch) :=
  let can := s.launches.filter fun e => canUse s c e.1 e.2
  let top := (can.map fun e => levelOf e.2).foldl max 0
  can.filter fun e => levelOf e.2 == top

/-- Within a level a die serves streams in round robin: the first stream after the one served last; within a stream the
earliest launch. -/
def chooseLaunch (s : State) (c : Nat) : Option (Nat × Launch) :=
  let can := topLaunches s c
  match can with
  | [] => none
  | e :: _ =>
    let last := smGet 0 (levelOf e.2) (dieAt s (dieOfCluster c)).rr
    let key (e : Nat × Launch) : Nat × Nat :=
      let k := streamKey e.2.page e.2.slot + 1
      (if last < k then 0 else 1, k)
    can.foldl (fun best x =>
      match best with
      | none => some x
      | some b =>
        let kx := key x
        let kb := key b
        if kx.1 < kb.1 || (kx.1 == kb.1 && (kx.2 < kb.2 || (kx.2 == kb.2 && x.2.seq < b.2.seq))) then some x else best) none

/-- The die's pointer of a launch's level moves to the launch's stream (R268). -/
def moveTurn (s : State) (c : Nat) (l : Launch) : State :=
  let d := dieAt s (dieOfCluster c)
  setDie s (dieOfCluster c) { d with rr := smSet (levelOf l) (streamKey l.page l.slot + 1) d.rr }

/-- The launch has dispatched a cohort: its waiting starts anew, and the watchdog counts (R268, R283). -/
def begunServing (s : State) (ln : Nat) : State :=
  match smFind ln s.launches with
  | some l => setLaunch s ln { l with aged := 0, dispatched := true }
  | none => s

/-- The launch has been served with quads of a cluster: the pointer of the cluster's die moves too (R268). -/
def served (s : State) (c ln : Nat) : State :=
  match smFind ln s.launches with
  | some l => begunServing (moveTurn s c l) ln
  | none => s

/-! ## Making a cohort resident (R27, R28, R36, R64, R195, R227, R240, R258, R274) -/

/-- The guard granules of every tile of a launch: the bitmap's inside the allotment, and all from SCRATCH up to the inbox
(R258, R274). -/
def guardsFor (s : State) (l : Launch) : BitVec 3072 :=
  let n := cardScratch l.card / 64
  let inner := if cardGpol l.card == 1 then leNat ((bitmapOf s l.tag l.card).getD []) % 2 ^ n else 0
  BitVec.ofNat 3072 (inner + (2 ^ 3040 - 2 ^ n))

/-- The tile as its context is loaded for a cohort. -/
def loadTile (tl : Tile) (guards : BitVec 3072) : Tile := { vacate tl with guards := guards, chunk := tl.chunk }

/-- The record of an initial task (Table 1-8). -/
def initialRec (l : Launch) (ln index serial : Nat) : Rec :=
  let gtid := BitVec.ofNat 64 (ln % 65536 * 2 ^ 48 + index % 2 ^ 32 * 2 ^ 16 + serial % 65536)
  let g := gridOf l.card index
  let kind := cardKind l.card
  let w (n : Nat) : Word := BitVec.ofNat 32 n
  { pcw := recPcWord 0 (cardEntry l.card) false, gtid, frame := 0#64, join := 0#64
    arg0 := if kind == 2 then cardWord l.card 0x28 + BitVec.ofNat 64 (index * cardRecBytes l.card) else cardArgs l.card
    arg1 := gtid
    w0 := w (if kind == 1 then g.1 else index)
    w1 := w (if kind == 1 then g.2.1 else 0)
    w2 := w (if kind == 1 then g.2.2 else 0)
    w3 := w (if kind == 2 then 0 else serial) }

/-- Makes a cohort resident on quads of a cluster, in team order, and starts its initial tasks. -/
def makeResident (s : State) (ln : Nat) (l : Launch) (index : Nat) (runB : Bool) (cluster : Nat) (quads : List Nat) : State :=
  let key := cohortKey ln index runB
  let c : Cohort :=
    { launch := ln, index, runB, cluster, quads := quads.map (· % 64), size := cardS l.card, status := .resident,
      serial := quads.length * cardS l.card, live := quads.length * cardS l.card, merged := 0, vstate := 0,
      restoreAsked := none, waiting := [] }
  let g := guardsFor s l
  let s1 := ((upFrom 0 quads.length).zip quads).foldl (fun s e =>
    setQuad (mendQuad s e.2) e.2 { quadAt s e.2 with team := some (key, e.1), ql := [], fid := l.fid }) (setCohort s key c)
  let ts := cohortTiles c
  let s2 := ts.foldl (fun s t => setTile s t (loadTile (tileOf s t) g)) s1
  ((upFrom 0 ts.length).zip ts).foldl (fun s e => beginTask s e.2 (initialRec l ln index e.1) none) s2

/-! ## COHORT_DISPATCH -/

/-- Dispatches a ticket to the lowest free quads of a cluster, or parks it there (R27, R269). -/
def useTicket (s : State) (c ln : Nat) (l : Launch) (index : Nat) (runB : Bool) : State :=
  if eligible l index runB then
    served (makeResident (setLaunch s ln l) ln l index runB c ((freeQuads s c (levelOf l)).take (cardT l.card))) c ln
  else setLaunch s ln { l with parked := l.parked ++ [⟨c, index, runB⟩] }

/-- A GRID launch: a woken ticket first, then a draw (R269). -/
def dispatchGrid (s : State) (c ln : Nat) (l : Launch) : State :=
  match wokenTicket l c with
  | some p => useTicket s c ln { l with parked := l.parked.filter (· != p) } p.index p.runB
  | none =>
    match runWithTickets l (dieOfCluster c) with
    | some b =>
      let k := 2 * dieOfCluster c + if b then 1 else 0
      match smFind k l.tickets with
      | some t => useTicket s c ln { l with tickets := smSet k { t with next := t.next + 1 } l.tickets } t.next b
      | none => s
    | none => s

/-- A BATCH launch takes the lowest free quad (R272), and the die's round robin goes on (R268). -/
def dispatchBatch (s : State) (c ln : Nat) (l : Launch) : State :=
  match freeQuads s c (levelOf l) with
  | q :: _ => setLaunch (moveTurn s c l) ln { l with batchQuads := l.batchQuads ++ [q] }
  | [] => s

/-- Takes the quads of one cohort from those reserved in its cluster, lowest first (R27, R273). -/
def placeOne (ln : Nat) (l : Launch) (acc : State × List Nat) (e : Nat × Bool × Nat) : State × List Nat :=
  let mine := (sortBy (fun a b : Nat => a ≤ b) (acc.2.filter fun q => q / 64 == e.2.2)).take (cardT l.card)
  (makeResident acc.1 ln l e.1 e.2.1 e.2.2 mine, acc.2.filter fun q => !mine.contains q)

/-- A PLACED launch reserves free quads of a cluster; when every cohort of a run, or of a group of run B, can be placed, all of
them are made resident together, in map order (R28, R273, R282; log 22). -/
def dispatchPlaced (s : State) (c ln : Nat) (l : Launch) : State :=
  let want := placedNeeds s ln l c - reservedIn s l c
  let more := ((freeQuads s c (levelOf l)).filter fun q => !l.placed.contains q).take want
  let l1 := { l with placed := l.placed ++ more }
  if placedReady s ln l1 then
    served ((placedGroup s ln l1).foldl (placeOne ln l1) (setLaunch s ln { l1 with placed := [] }, reservedQuads s l1)).1 c ln
  else setLaunch s ln l1

/-- Another cluster comes first at this moment: GRID clusters of one die draw in increasing number, and BATCH takes quads in
increasing panel-wide cluster number (R269, R272). -/
def clusterBehind (s : State) (c ln : Nat) (l : Launch) : Bool :=
  let same (x : Nat) : Bool := x < c && match chooseLaunch s x with
    | some e => e.1 == ln
    | none => false
  match cardKind l.card with
  | 1 => (clustersOfDie (dieOfCluster c)).any same
  | 2 => (upFrom 0 c).any same
  | _ => false

/-- COHORT_DISPATCH: the free quads of a cluster are offered to the launch of highest effective level that can use them
(R268, R269, R272, R273). -/
def execCohortDispatch (c : Nat) (s : State) : Out :=
  .next <| match chooseLaunch s c with
    | some (ln, l) =>
      if clusterBehind s c ln l then s
      else
        match cardKind l.card with
        | 1 => dispatchGrid s c ln l
        | 2 => dispatchBatch s c ln l
        | _ => dispatchPlaced s c ln l
    | none => s

/-- TICKET_STEAL: an idle cluster of an exhausted die takes the last ticket of the die with most left, where its launch is the one
whose turn it is (R268, R270). -/
def execTicketSteal (c ln : Nat) (s : State) : Out :=
  .next <| match chooseLaunch s c with
    | some (k, l) =>
      if k != ln || cardKind l.card != 1 || (wokenTicket l c).isSome then s
      else
        match stolenTicket s c l with
        | some (k, t) =>
          let b := k % 2 == 1
          let moved := if cardReplica l.card then (t.last - 1, b, dieOfCluster c) :: l.moved else l.moved
          useTicket s c ln { l with tickets := smSet k { t with last := t.last - 1 } l.tickets, moved := moved } (t.last - 1) b
        | none => s
    | none => s

/-! ## BATCH chunks (R272) -/

/-- The BATCH launch that keeps a quad. -/
def batchOf (s : State) (q : Nat) : Option (Nat × Launch) := s.launches.find? fun l => l.2.batchQuads.contains q

/-- Starts the next record of a tile's chunk, on the quad that its launch has kept: no stream's turn (R268, R272). -/
def startRecord (s : State) (t ln : Nat) (l : Launch) : State :=
  match (tileOf s t).chunk with
  | some (i, last) =>
    if i < last then
      let s1 := setTile s t { tileOf s t with chunk := some (i + 1, last) }
      begunServing (makeResident s1 ln l i (runOfQuad s l (quadOf t)) (clusterOf t) [quadOf t]) ln
    else s
  | none => s

/-- The quad leaves the launch (R272). -/
def leaveBatch (s : State) (t ln : Nat) (l : Launch) : State :=
  let s1 := setLaunch s ln { l with batchQuads := l.batchQuads.filter (· != quadOf t) }
  setTile s1 t { tileOf s1 t with chunk := none }

/-- Records of its chunk are left for a tile to run. -/
def chunkLeft (s : State) (t : Nat) : Bool :=
  match (tileOf s t).chunk with
  | some (i, last) => i < last
  | none => false

/-- The tile of a participating quad has no work (R272). -/
def mayClaim (s : State) (q : Nat) : Bool := (quadAt s q).team.isNone && !chunkLeft s (tileAt q 0)

/-- BATCH_CHUNK_CLAIM: tile 0 of a participating quad, when it has no work, claims a chunk and starts its first record, or
leaves the launch; claims of one moment are served in increasing panel-wide cluster and quad number (R272). -/
def execBatchChunkClaim (t : Nat) (s : State) : Out :=
  .next <| match batchOf s (quadOf t) with
    | some (ln, l) =>
      if qidx t != 0 || !mayClaim s (quadOf t) || l.batchQuads.any (fun q => q < quadOf t && mayClaim s q) then s
      else
        let b := runOfQuad s l (quadOf t)
        let first := batchNextOf l b
        let remaining := cardRecords l.card - first
        if remaining == 0 || l.ended then leaveBatch s t ln l
        else
          let p := batchP s l b
          let chunk := max 1 ((remaining + 2 * p - 1) / (2 * p))
          let l1 := if b then { l with batchNextB := first + chunk } else { l with batchNext := first + chunk }
          let s1 := setTile s t { tileOf s t with chunk := some (first, first + chunk) }
          startRecord (setLaunch s1 ln l1) t ln l1
    | none => s

/-! ## Retirement (R43, R44) -/

/-- Nothing that a tile's engines or tasks have sent is still on its way (R43; log 21). -/
def tileQuiet (s : State) (t : Nat) : Bool :=
  let tl := tileOf s t
  tl.matq.isEmpty && tl.copies.isEmpty && tl.longq.isEmpty && tl.chainq.isEmpty && tl.forwarding.isNone && tl.ringNet.isNone &&
    !(s.accs.any fun a => a.tile == t) && !(s.net.any fun m => m.src == t)

/-- Every task of the cohort has exited and all its stores have reached panel scope (R43). -/
def mayRetire (s : State) (c : Cohort) : Bool := c.live == 0 && inPlace c && (cohortTiles c).all (tileQuiet s)

/-- The counters of a retiring cohort's tiles go to the TOTAL values (R335). -/
def retireCounters (s : State) (t : Nat) : State :=
  let g := tagOf s t
  let tl := tileOf s t
  if (sessionAt s g).open_ then
    setTile (addTotals s g (Vector.zipWith (fun (a b : Word) => a - b) tl.counters tl.snap)) t { tl with snap := tl.counters }
  else s

/-- The launch's sums after a cohort's tiles (R195, R265). -/
def sumTile (l : Launch) (tl : Tile) : Launch :=
  { l with det := satAdd l.det tl.det.toNat, rep := satAdd l.rep tl.rep.toNat }

/-- Frees the tiles and quads of a cohort that is no more. -/
def leaveQuads (s : State) (key : Nat) (c : Cohort) : State :=
  let keep (tl : Tile) : Tile := { vacate tl with chunk := tl.chunk }
  let s1 := (cohortTiles c).foldl (fun s t => setTile s t (keep (tileOf s t))) s
  let s2 := clearQuads s1 c
  { s2 with cohorts := smErase key s2.cohorts, sums := s2.sums.filter fun e => !(cohortTiles c).contains (e.1 / 32) }

/-- The next record of a BATCH tile follows at once (R272). -/
def nextRecord (s : State) (c : Cohort) : State :=
  match smFind c.launch s.launches with
  | some l => if cardKind l.card == 2 && !l.ended then startRecord s (tileOfSerial c 0) c.launch l else s
  | none => s

/-- A cohort retires: its bit is set, its counts are summed, its quads are free (R43, R195, R271). -/
def retire (s : State) (key : Nat) (c : Cohort) : State :=
  let s1 := (cohortTiles c).foldl retireCounters s
  match smFind c.launch s1.launches with
  | some l =>
    let l1 := (cohortTiles c).foldl (fun l t => sumTile l (tileOf s1 t)) l
    let l2 := { l1 with
      retired := l1.retired + 1
      boardA := if c.runB then l1.boardA else c.index :: l1.boardA
      boardB := if c.runB then c.index :: l1.boardB else l1.boardB }
    nextRecord (leaveQuads (setLaunch s1 c.launch l2) key c) c
  | none => leaveQuads s1 key c

/-- Removes the frames of a cohort's tiles; each goes back to the pool of its die. -/
def dropFrames (s : State) (c : Cohort) : State :=
  s.frames.foldl (fun s f =>
    if (cohortTiles c).contains f.2.tile then returnFrame s (dieOf f.2.tile) (BitVec.ofNat 64 f.1) else s) s

/-- A cohort of a launch that ends in error is ended at its next bundle boundary, or where it is saved; the records that its BATCH chunk
had left never start, and its quad leaves the launch (R44, R272). -/
def endCohort (s : State) (key : Nat) (c : Cohort) : State :=
  let ts := cohortTiles c
  let s1 := dropFrames s c
  let s2 := { s1 with requests := s1.requests.map fun r => { r with todo := r.todo.filter (· != key) } }
  let sums (s : State) (tile : Nat → Tile) : State :=
    match smFind c.launch s.launches with
    | some l => setLaunch s c.launch (ts.foldl (fun (l : Launch) t => sumTile l (tile t)) l)
    | none => s
  match c.status with
  | .saved addr _ =>
    let s3 := match smFind addr.toNat s2.areas with
      | some a => sums { s2 with accs := s2.accs.filter fun x => !boundTo s2 addr.toNat x }
          fun t => smGet Tile.idle t a.tiles
      | none => s2
    { s3 with areas := smErase addr.toNat s3.areas, cohorts := smErase key s3.cohorts }
  | _ =>
    let s3 := ts.foldl retireCounters s2
    let s4 := sums s3 (tileOf s3)
    let s5 := leaveQuads { s4 with
      accs := s4.accs.filter fun a => !ts.contains a.tile
      net := s4.net.filter fun m => !ts.contains m.src } key c
    ts.foldl (fun s t => setTile s t { tileOf s t with chunk := none })
      (batchHolds s5 c.launch fun qs => qs.filter fun q => !(cohortQuads c).contains q)

/-- The requests that have nothing left to do are finished. -/
def finishIdle (s : State) : State :=
  (s.requests.filter fun r => r.todo.isEmpty).foldl storeRequest s

/-- COHORT_RETIREMENT: a cohort retires once all it started has exited and its stores have reached panel scope; a cohort
of a launch that has ended in error is ended (R43, R44). -/
def execCohortRetirement (key : Nat) (s : State) : Out :=
  .next <| match smFind key s.cohorts with
    | some c =>
      if !launchGoes s c.launch then finishIdle (endCohort s key c)
      else if mayRetire s c then retire s key c
      else s
    | none => s

/-- The launch has an eligible cohort not yet dispatched, or a saved one (R268). -/
def hasDispatchable (s : State) (ln : Nat) (l : Launch) : Bool :=
  mayDispatch s l &&
    ((s.cohorts.any fun e => e.2.launch == ln && (match e.2.status with
      | .saved .. => true
      | _ => false)) ||
      match cardKind l.card with
      | 1 =>
        (l.parked.any fun p => eligible l p.index p.runB) ||
          l.tickets.any fun t => (upFrom t.2.next (t.2.last - t.2.next)).any fun i => eligible l i (t.1 % 2 == 1)
      | 2 => ((runsOf l).any fun b => batchNextOf l b < cardRecords l.card) || l.batchQuads.any fun q => chunkLeft s (tileAt q 0)
      | _ => placedWaits s ln l)

/-- AGEING: 2 ms of waiting raise a launch below level 40 by one level, up to 39 (R268). -/
def execAgeing (ln : Nat) (s : State) : Out :=
  .next <| match smFind ln s.launches with
    | some l => if cardPrio l.card < 40 && hasDispatchable s ln l then setLaunch s ln { l with aged := l.aged + 1 } else s
    | none => s

/-! ## The end of a launch (R44, R264, R265, R282, R283, R311) -/

/-- Every cohort of every run has retired, or the launch ended in error and none is left. -/
def launchDone (s : State) (ln : Nat) (l : Launch) : Bool :=
  !(s.cohorts.any fun e => e.2.launch == ln) && l.batchQuads.isEmpty &&
    (l.ended || (runsOf l).all fun b => (boardOf l b).length == cardTotal l.card)

/-- STATUS: the first error, or a mismatch of the two signatures (R265, R282). -/
def statusOf (l : Launch) : Byte :=
  match l.failed with
  | some c => BitVec.ofNat 8 (codeNum c)
  | none => if cardReplica l.card && l.sigA != l.sigB then BitVec.ofNat 8 (codeNum .replicaMismatch) else 0#8

/-- The completion record (Table 19-2). -/
def completionBytes (s : State) (ln : Nat) (l : Launch) : List Byte :=
  leBytes (ln % 65536 * 2 ^ 48 + l.reason.toNat * 2 ^ 24 + l.fid % 4 * 2 ^ 16 + l.info.toNat * 2 ^ 8 + (statusOf l).toNat) 8 ++
    leBytes (l.rep.toNat * 2 ^ 32 + l.det.toNat) 8 ++ leBytes (s.clk - l.start) 8 ++
    leBytes (min l.faults (2 ^ 32 - 1) * 2 ^ 32 + min l.retired (2 ^ 32 - 1)) 8

/-- The signatures of a replica launch (R265). -/
def signatureBytes (l : Launch) : List Byte :=
  if cardReplica l.card then leBytes l.sigA.toNat 16 ++ leBytes l.sigB.toNat 16 else []

/-- Writes the completion record and, in replica mode, the signatures; a write that cannot be made is dropped with a
NOTIFY record (R265). -/
def writeCompletion (s : State) (ln : Nat) (l : Launch) : State :=
  let va := cardCompl l.card
  if va == 0#64 then s
  else
    match writeVirtual s l.tag va (completionBytes s ln l ++ signatureBytes l) with
    | some s1 => s1
    | none => notifyLaunch s ln l va

/-- An MSI-X message of a port: not sent where the entry's owner is another tenant, held where it is masked (R311). -/
def sendMsix (s : State) (port vec tenant : Nat) : State :=
  let p := portAt s port
  let e := smGet (Msix.mk 0 false false) vec p.msix
  if e.owner != tenant then setPort s port { p with misroute := p.misroute + 1 }
  else if e.masked then setPort s port { p with msix := smSet vec { e with pending := true } p.msix }
  else { s with irqs := s.irqs ++ [.msix port vec] }

/-- The completion interrupt (R264, R311). -/
def sendInterrupt (s : State) (l : Launch) : State :=
  let r := cardRoute l.card
  let vec := (r.extractLsb' 0 11).toNat
  match (r.extractLsb' 14 2).toNat with
  | 1 => sendMsix s (r.extractLsb' 12 2).toNat vec (((tenantOf s l.tag).map (·.1)).getD 0)
  | 2 => { s with irqs := s.irqs ++ [.plaza (r.extractLsb' 16 6).toNat vec] }
  | _ => s

/-- The stream advances (R260, R261). -/
def streamDone (s : State) (l : Launch) : State :=
  let k := streamKey l.page l.slot
  let st := streamAt s k
  setStream s k { st with open_ := st.open_.filter (· != l.seq), done := st.done + 1 }

/-- LAUNCH_COMPLETION: once every cohort has retired and every host store has been flushed, the completion record is
written, once hosts have given up its line, the interrupt sent, and the stream advances (R44, R256, R264, R265). -/
def execLaunchCompletion (ln : Nat) (s : State) : Out :=
  .next <| match smFind ln s.launches with
    | some l =>
      if launchDone s ln l && s.ports.all fun p => p.2.unflushed.isEmpty then
        let held := if cardCompl l.card == 0#64 then none
          else virtualHeld s l.tag (cardCompl l.card) (completionBytes s ln l ++ signatureBytes l).length
        match held with
        | some line => askBack s line
        | none =>
          let s1 := streamDone (sendInterrupt (writeCompletion s ln l) l) l
          { s1 with launches := smErase ln s1.launches }
      else s
    | none => s

/-- Clk in a millisecond at the nominal clock. -/
def clkPerMs : Nat := 1250000

/-- The deadline of a launch in clk: the card's, or the tenant's default (R262, R283). -/
def deadlineOf (s : State) (l : Launch) : Nat :=
  let ms := if cardDeadline l.card != 0 then cardDeadline l.card
    else match tenantOf s l.tag with
      | some (_, t) => t.deadline
      | none => 0
  ms * clkPerMs

/-- The watchdog counts: the launch has dispatched a cohort, and not every resident one is saved (R283). -/
def watchdogCounts (s : State) (ln : Nat) (l : Launch) : Bool :=
  let mine := s.cohorts.filter fun e => e.2.launch == ln
  l.dispatched && (mine.isEmpty || mine.any fun e => match e.2.status with
    | .saved .. => false
    | _ => true)

/-- Clk pass: cr.cycle of every tile, the watchdogs, and what the event counters count in clk (R238, R283, R333). -/
def passTime (s0 : State) (n : Nat) : State :=
  if n == 0 then s0
  else
    let s := (s0.tiles.map (·.1)).foldl (countWaits n) s0
    { s with
      clk := s.clk + n
      launches := s.launches.map fun e => if watchdogCounts s e.1 e.2 then (e.1, { e.2 with watched := e.2.watched + n }) else e }

/-- WATCHDOG: a launch that has reached its deadline ends with WATCHDOG (R44, R283). -/
def execWatchdog (ln : Nat) (s : State) : Out :=
  .next <| match smFind ln s.launches with
    | some l => if l.dispatched && !l.ended && deadlineOf s l ≤ l.watched then endLaunchWith s ln .watchdog else s
    | none => s

/-- LAUNCH_ABORT: system software ends a launch, which completes with ABORTED (R283). -/
def execLaunchAbort (ln : Nat) (s : State) : Out :=
  .next <| match smFind ln s.launches with
    | some l => if l.ended then s else endLaunchWith s ln .aborted
    | none => s

end Sys2Proof.Machine
end

