-- ==== Sys2Proof/Machine/Power.lean ====
section
/-! DEFINITION. Operating points, boost, sensors, thermal migration, input power (R305, R323-R329, R340). They change when
things happen, never what (R259). -/

namespace Sys2Proof.Machine

/-! ## Operating points (R326) -/

/-- The lowest physical point, P6; and the nominal one, P2 (Table 23-9). -/
def lowestPoint : Nat := 6
def nominalPoint : Nat := 2

/-- The physical point to which a tenant's virtual state is mapped; an unmapped one is nominal (log 23). -/
def mappedPoint (t : Tenant) (vs : Nat) : Nat := (t.vmap[vs]?).getD nominalPoint

/-- The point that the team of a quad requests: its tiles that run a task request the point of their cohort's state. -/
def requested (s : State) (q : Nat) : Option Nat :=
  match (quadAt s q).team with
  | some (key, _) =>
    match smFind key s.cohorts with
    | some c =>
      let busy := (upFrom 0 c.size).any fun i => (tileOf s (tileAt q i)).run != .idle
      if busy then
        some (match tenantOf s (tagOfCluster s c.cluster) with
          | some (_, t) => mappedPoint t c.vstate
          | none => nominalPoint)
      else none
    | none => none
  | none => none

/-- The cluster's physical quad behind a quad, as a key. -/
def pquadOf (s : State) (q : Nat) : Nat := q / 64 * 72 + (quadAt s q).pquad

/-- The point that a quad is to run at (R324, R326-R329): its request within the boost rules, lowered by the power cap, or
the lowest while a sensor, a thermal limit or the input holds it there. With no request it is the lowest (log 23). -/
def wantedPoint (s : State) (q : Nat) : Nat :=
  let p := pquadAt s (pquadOf s q)
  let cl := clusterAt s (q / 64)
  if p.fallback || p.limit.isSome || s.mgmt.undervolt then lowestPoint
  else
    let base := (requested s q).getD lowestPoint
    let boosted := if 2 ≤ base then base else if !cl.grant then nominalPoint else if cl.falling then 1 else base
    min lowestPoint (boosted + (quadAt s q).lowered)

/-- Asks for the change of point that a quad needs. -/
def retarget (s : State) (q : Nat) : State :=
  let d := quadAt s q
  let w := wantedPoint s q
  setQuad s q { d with changing := if w == d.point then none else some w }

/-- Asks for it on every quad of a cluster. -/
def retargetCluster (s : State) (c : Nat) : State := (upFrom (64 * c) 64).foldl retarget s

/-- OPERATING_POINT_CHANGE: a quad's change of point completes (R326). -/
def execOperatingPointChange (q : Nat) (s : State) : Out :=
  .next <|
    let d := quadAt s q
    match d.changing with
    | some p => setQuad s q { d with point := p, changing := none }
    | none => retarget s q

/-- VIRTUAL_STATE_SET: a cohort's virtual state, or the mapping of one, changes, and the tiles request anew (R326). -/
def execVirtualStateSet (r : StateRequest) (s : State) : Out :=
  .next <| match r with
    | .set key vs =>
      match smFind key s.cohorts with
      | some c =>
        if 8 ≤ vs then s
        else (cohortQuads c).foldl retarget (setCohort s key { c with vstate := vs })
      | none => s
    | .remap tenant vs point =>
      match smFind tenant s.tenants with
      | some t =>
        if 8 ≤ vs || lowestPoint < point then s
        else
          let m := (upFrom 0 8).map fun i => if i == vs then point else mappedPoint t i
          let s1 := { s with tenants := smSet tenant { t with vmap := m } s.tenants }
          (s1.cohorts.flatMap fun e => cohortQuads e.2).foldl retarget s1
      | none => s

/-! ## Boost (R327) -/

/-- A quad of the cluster requests P0 or P1. -/
def wantsBoost (s : State) (c : Nat) : Bool :=
  (upFrom (64 * c) 64).any fun q => match requested s q with
    | some p => p ≤ 1
    | none => false

/-- The oldest claim on a die among clusters without a grant; the lower cluster among equals. -/
def oldestBoost (s : State) (die : Nat) : Option Nat :=
  (clustersOfDie die).foldl (fun best c =>
    let cl := clusterAt s c
    match cl.boostClaim, best with
    | none, b => b
    | some _, none => if cl.grant then none else some c
    | some t, some b =>
      match (clusterAt s b).boostClaim with
      | some tb => if !cl.grant && t < tb then some c else some b
      | none => some b) none

/-- Grants go to the oldest claims while fewer than two clusters of the die hold one; `fuel` of 2 suffices. -/
def grantBoost (fuel : Nat) (s : State) (die : Nat) : State :=
  match fuel with
  | 0 => s
  | n + 1 =>
    let held := ((clustersOfDie die).filter fun c => (clusterAt s c).grant).length
    match oldestBoost s die with
    | some c =>
      if held < 2 then grantBoost n (retargetCluster (setCluster s c { clusterAt s c with grant := true }) c) die else s
    | none => s

/-- A cluster's grant and claim are gone; the grant goes to the oldest waiting claim. -/
def releaseBoost (s : State) (c : Nat) : State :=
  let s1 := setCluster s c { clusterAt s c with grant := false, boostClaim := none, falling := false }
  grantBoost 2 (retargetCluster s1 c) (dieOfCluster c)

/-- BOOST_CLAIM: a cluster that requests P0 or P1 files its claim; one that no longer does releases its grant (R327). -/
def execBoostClaim (c : Nat) (s : State) : Out :=
  .next <|
    let cl := clusterAt s c
    if wantsBoost s c then
      if cl.boostClaim.isSome || cl.permits == 0 then s
      else grantBoost 2 (setCluster s c { cl with boostClaim := some s.clk }) (dieOfCluster c)
    else if cl.grant || cl.boostClaim.isSome then releaseBoost s c
    else s

/-- Some quad of the cluster runs above P2. -/
def aboveNominal (s : State) (c : Nat) : Bool := (upFrom (64 * c) 64).any fun q => (quadAt s q).point < nominalPoint

/-- BOOST_PERMIT_INTERVAL: an interval that begins with a quad above P2 takes a permit; the last one starts the fall
(R327). -/
def execBoostPermitInterval (c : Nat) (s : State) : Out :=
  .next <|
    let cl := clusterAt s c
    if aboveNominal s c then
      let n := cl.permits - 1
      retargetCluster (setCluster s c { cl with permits := n, falling := cl.falling || n == 0 }) c
    else s

/-- BOOST_FALL: 20 µs after its fall to P1 the cluster drops to P2 and releases its grant (R327). -/
def execBoostFall (c : Nat) (s : State) : Out := .next (if (clusterAt s c).falling then releaseBoost s c else s)

/-- BOOST_PERMIT_REFILL: 40 µs with every quad at or below P2 refill one permit, up to 64 (R327). -/
def execBoostPermitRefill (c : Nat) (s : State) : Out :=
  .next <|
    let cl := clusterAt s c
    if aboveNominal s c then s else setCluster s c { cl with permits := min 64 (cl.permits + 1) }

/-! ## Reset of the module (R321, R324, R329) -/

/-- The module resets: nothing that ran is left, and what non-volatile storage, the firmware slots and the hosts hold
stays. An orderly reset commits the lifetime records first; another loses what was not committed (R341). -/
def resetModule (s : State) (orderly : Bool) : State :=
  let kept := if orderly then s.life else s.lifeSaved
  { State.reset with
    agenda := s.agenda
    freeIdx := s.freeIdx
    nextId := s.nextId
    nextAct := s.nextAct
    ports := s.ports.map fun p => (p.1, { Port.blank with mem := p.2.mem })
    mgmt := { s.mgmt with running := none, confirmed := false, step := 0, recovery := false, passing := 0, rails := false, undervolt := false, power := [], events := [] }
    life := kept
    lifeSaved := kept
    irqs := s.irqs }

/-! ## Sensors (R328, R329) -/

/-- The thermal sensors of a physical quad that are good and have been sampled. -/
def goodThermal (p : PQuad) : List Int := ([p.t0, p.t1].filter fun x => !x.bad && 0 < x.same).map (·.last)

/-- The reading of its hottest good sensor. -/
def hottest (p : PQuad) : Option Int := (goodThermal p).max?

/-- Column and row of a physical quad on the panel substrate, by the site of its die (R6, R11): each of the 9 x 8 sites has 2 x 2
clusters of 8 x 9 quads. -/
def quadXY (s : State) (p : Nat) : Nat × Nat :=
  let d := dieOfCluster (p / 72)
  let site := (dieAt s d).site
  let k := (clustersOfDie d).idxOf (p / 72)
  (site % 9 * 16 + k % 2 * 8 + p % 8, site / 9 * 18 + k / 2 * 9 + p % 72 / 8)

/-- The physical quad at a column and row, where its site holds a logical die. -/
def quadAtXY (s : State) (x y : Nat) : Option Nat :=
  if 144 ≤ x then none
  else
    ((upFrom 0 64).find? fun d => (dieAt s d).valid && (dieAt s d).site == y / 18 * 9 + x / 16).map fun d =>
      ((clustersOfDie d)[y / 9 % 2 * 2 + x / 8 % 2]?).getD 0 * 72 + y % 9 * 8 + x % 8

/-- The physical quads around one, up to eight, across the edges of clusters and of dies (R328; log 106). -/
def around (s : State) (p : Nat) : List Nat :=
  let c := quadXY s p
  let rows := upFrom (c.2 - 1) (c.2 + 2 - (c.2 - 1))
  let cols := upFrom (c.1 - 1) (c.1 + 2 - (c.1 - 1))
  rows.flatMap fun y => cols.filterMap fun x => if x == c.1 && y == c.2 then none else quadAtXY s x y

/-- The readings of a physical quad's thermal sensors that have been sampled, good or not. -/
def allThermal (p : PQuad) : List Int := ([p.t0, p.t1].filter fun x => 0 < x.same).map (·.last)

/-- Twice the median of a list: the mean of the middle two where they are two. -/
def median2 (l : List Int) : Option Int :=
  let m := sortBy (fun a b : Int => a ≤ b) l
  let n := m.length
  if n == 0 then none else some ((m[(n - 1) / 2]?).getD 0 + (m[n / 2]?).getD 0)

/-- One sample of a sensor: quarantine outside its range, after 64 equal samples, or after 3 that differ by more than
12 °C from the median around it (R328). -/
def sampleSensor (x : Sensor) (v lo hi : Int) (med2 : Option Int) : Sensor :=
  let same := if x.same != 0 && v == x.last then x.same + 1 else 1
  let off : Bool := match med2 with
    | some m => decide (24 < (2 * v - m).natAbs)
    | none => false
  let differ := if off then x.differ + 1 else 0
  ⟨v, same, differ, x.bad || v < lo || hi < v || 64 ≤ same || 3 ≤ differ⟩

/-- How many of a quad's sensors are quarantined. -/
def badCount (p : PQuad) : Nat := ([p.t0, p.t1, p.amp].filter (·.bad)).length

/-- The logical quad that a physical quad serves. -/
def quadOfP (s : State) (p : Nat) : Option Nat :=
  (upFrom (p / 72 * 64) 64).find? fun q => (quadAt s q).valid && (quadAt s q).pquad == p % 72

/-- Bin of a temperature in the histogram (Table 25-8). -/
def thermalBin (t : Int) : Nat := if t < 20 then 0 else if 115 ≤ t then 20 else ((t - 20) / 5).toNat + 1

/-- VH of a point in millivolts (Table 23-9). -/
def pointMv (p : Nat) : Nat :=
  match p with
  | 0 => 900 | 1 => 850 | 2 => 800 | 3 => 720 | 4 => 660 | _ => 620

/-- The histograms take a sample when the site's hottest quad is sampled: 10 µs in its bin of temperature, and in the bin of
its VH (R341; log 24). -/
def histograms (s : State) (p : Nat) : State :=
  let c := p / 72
  let site := siteOf s c
  let mine := ((upFrom 0 64).filter fun d => (dieAt s d).valid && (dieAt s d).site == site).flatMap clustersOfDie
  match hottest (pquadAt s p) with
  | some t =>
    let hotter := (mine.flatMap fun c => upFrom (c * 72) 72).any fun x =>
      match hottest (pquadAt s x) with
      | some u => t < u || (t == u && x < p)
      | none => false
    if hotter then s
    else
      let point := match quadOfP s p with
        | some q => (quadAt s q).point
        | none => lowestPoint
      bumpLife (bumpLife s (.thermal site (thermalBin t)) 1) (.vh site (min 28 ((pointMv point - 620) / 10))) 1
  | none => s

/-- The limit that holds a physical quad at P6 after a reading: 105 °C at once; released 10 °C below the limit, the lower one where
both held it (R329). -/
def limitAfter (p : PQuad) : Option Int :=
  match hottest p with
  | none => p.limit
  | some t =>
    if 105 < t then some (min 105 (p.limit.getD 105))
    else
      match p.limit with
      | some l => if t ≤ l - 10 then none else some l
      | none => none

/-- SENSOR_SAMPLE: one sample of a quad's three sensors; quarantine, fall-back and thermal limits follow (R328, R329). -/
def execSensorSample (p : Nat) (r : SensorReading) (s : State) : Out :=
  .next <|
    let old := pquadAt s p
    let med := median2 ((around s p).flatMap fun x => allThermal (pquadAt s x))
    let upd := { old with
      t0 := sampleSensor old.t0 r.t0 (-20) 150 med
      t1 := sampleSensor old.t1 r.t1 (-20) 150 med
      amp := sampleSensor old.amp r.amps 0 40 none }
    let few := 2 ≤ badCount upd
    let new := { upd with fallback := old.fallback || few, limit := limitAfter upd }
    let s1 := setPQuad s p new
    let s2 := if badCount upd == badCount old then s1 else bumpLife s1 (.quarantine (wearOf s p)) (badCount upd - badCount old)
    let s3 := if few && !old.fallback then
        { s2 with irqs := s2.irqs ++ [.thermal (dieOfCluster (p / 72))], mgmt := { s2.mgmt with events := p :: s2.mgmt.events } }
      else s2
    let s4 := histograms s3 p
    let melt : Bool := match hottest new with
      | some t => decide (115 < t)
      | none => false
    if melt then resetModule s4 true
    else
      match quadOfP s4 p with
      | some q => retarget s4 q
      | none => s4

/-! ## Thermal migration (R21, R305) -/

/-- The spare physical quads of a cluster: named by no entry and by no migration under way (R11). DESIGN CHOICE (log 102): a
physical quad that failed its boot test is a spare like any other, since R11 calls every quad a spare that no entry names. -/
def sparesOf (s : State) (c : Nat) : List Nat :=
  (upFrom 0 72).filter fun p =>
    !((upFrom (64 * c) 64).any fun q => (quadAt s q).valid && ((quadAt s q).pquad == p || (quadAt s q).target == some p))

/-- The coolest spare that reads at least 10 °C below the limit of 95 °C. -/
def coolSpare (s : State) (c : Nat) : Option Nat :=
  ((sparesOf s c).foldl (fun (best : Option (Nat × Int)) p =>
    let x := pquadAt s (c * 72 + p)
    match hottest x with
    | some t =>
      if 85 < t then best
      else
        match best with
        | some b => if t < b.2 then some (p, t) else best
        | none => some (p, t)
    | none => best) none).map (·.1)

/-- The cohort whose team a quad holds. -/
def cohortOfQuad (s : State) (q : Nat) : Option (Nat × Cohort) :=
  match (quadAt s q).team with
  | some (key, _) => (smFind key s.cohorts).map fun c => (key, c)
  | none => none

/-- The cohort's halt has ended and no area was left for it (R289). -/
def isStranded (c : Cohort) : Bool :=
  match c.status with
  | .stranded _ => true
  | _ => false

/-- A migration may start for the cohort: no halt of it is in progress and no other quad of it is being moved (R305; log 108). -/
def mayMigrate (s : State) (c : Cohort) : Bool :=
  (inPlace c || isStranded c) && (cohortQuads c).all fun q => (quadAt s q).target.isNone

/-- A tile may begin to move: it runs, or stands still in a halted cohort, or in one that its pre-emption found no area for. -/
def tileMoves (tl : Tile) : Bool := tl.halt == .none || tl.halt == .held false || tl.halt == .preempt true

/-- THERMAL_MIGRATION: the team of a quad above 95 °C halts to move to a cool spare, or is held at P6 where none
qualifies (R305, R329). -/
def execThermalMigration (q : Nat) (s : State) : Out :=
  .next <|
    let p := pquadOf s q
    let hot : Bool := match hottest (pquadAt s p) with
      | some t => decide (95 < t)
      | none => false
    let tiles := (upFrom 0 4).map (tileAt q)
    let free := match cohortOfQuad s q with
      | some (_, c) => mayMigrate s c
      | none => false
    if !hot || !free || !(tiles.all fun t => tileMoves (tileOf s t)) then s
    else
      match coolSpare s (q / 64) with
      | some spare =>
        tiles.foldl (fun s t => setTile s t { tileOf s t with halt := .migrate })
          (setQuad s q { quadAt s q with target := some spare })
      | none =>
        let x := pquadAt s p
        retarget (setPQuad s p { x with limit := some (x.limit.getD 95) }) q

/-- What tiles of a cohort that stands like this are held by, once they have been moved (R235, R279, R305). -/
def haltOf (c : Cohort) : Halt :=
  match c.status with
  | .halted | .halting true => .held false
  | .stranded _ => .preempt true
  | _ => .none

/-- Both sides of a tile have stopped, and its accesses and its commands at the quad unit are done (R70, R139, R158, R179, R192). -/
def readyToMove (s : State) (kept : List Nat) (t : Nat) : Bool :=
  let tl := tileOf s t
  (tl.run != .running || xOut s t) && tl.longq.isEmpty && tl.longWait != .sent && arrayStill s t &&
    !(s.accs.any fun a => a.tile == t && !kept.contains a.id)

/-- MIGRATION_COMPLETE: once the quad's tiles have stopped, the remap entry is rewritten and they resume, or stand still under the
halt of their cohort, their fetch buffers emptied; what was resolved meanwhile follows (R20, R21, R48, R235, R305). -/
def execMigrationComplete (q : Nat) (s : State) : Out :=
  .next <|
    let d := quadAt s q
    let tiles := (upFrom 0 4).map (tileAt q)
    let cohort := cohortOfQuad s q
    let kept := match cohort with
      | some (_, c) => cohortKeeps s c
      | none => []
    let halt := match cohort with
      | some (_, c) => haltOf c
      | none => .none
    match d.target with
    | some p =>
      if tiles.all (readyToMove s kept) then
        let s1 := setQuad s q { d with pquad := p, mig := true, mcount := min 16383 (d.mcount + 1), target := none }
        let s2 := tiles.foldl (fun s t => setTile s t { tileOf s t with halt := halt, lines := [], badFetch := none }) s1
        let s3 := retarget (bumpLife s2 (.migration (wearOf s (pquadOf s q))) 1) q
        match cohort with
        | some (key, c) => if inPlace c then applyWaiting s3 key else s3
        | none => s3
      else s
    | none => s

/-! ## Input power (R324) -/

/-- The quads that the remap tables name. -/
def allQuads (s : State) : List Nat := s.quads.map (·.1)

/-- INPUT_UNDERVOLTAGE: below 11.0 V every quad moves to the lowest point (R324). -/
def execInputUndervoltage (mv : Nat) (s : State) : Out :=
  .next (if mv < 11000 then (allQuads s).foldl retarget { s with mgmt := { s.mgmt with undervolt := true } } else s)

/-- INPUT_RECOVERY: above 11.0 V the quads return to the points they request (R324, R326). -/
def execInputRecovery (mv : Nat) (s : State) : Out :=
  .next (if 11000 < mv then (allQuads s).foldl retarget { s with mgmt := { s.mgmt with undervolt := false } } else s)

/-- UNDERVOLTAGE_RESET: 1 ms below 10.5 V removes the compute rails; the module resets, and running launches are lost
(R324). -/
def execUndervoltageReset (mv : Nat) (s : State) : Out :=
  .next (if mv < 10500 && s.mgmt.undervolt then resetModule s false else s)

/-- The current that a cluster's quads draw, by their sensors. -/
def clusterAmps (s : State) (c : Nat) : Int :=
  (upFrom (c * 72) 72).foldl (fun n p => n + (pquadAt s p).amp.last) 0

/-- The highest-drawing cluster that can still be lowered. -/
def hungriest (s : State) : Option Nat :=
  ((upFrom 0 256).foldl (fun (best : Option (Nat × Int)) c =>
    if (upFrom (64 * c) 64).all fun q => lowestPoint ≤ (quadAt s q).point then best
    else
      let a := clusterAmps s c
      match best with
      | some b => if b.2 < a then some (c, a) else best
      | none => some (c, a)) none).map (·.1)

/-- Withdraws every boost grant: the clusters fall as at zero permits and keep their permits (R324, R327). -/
def withdrawGrants (s : State) : State :=
  ((upFrom 0 256).filter fun c => (clusterAt s c).grant).foldl (fun s c =>
    retargetCluster (setCluster s c { clusterAt s c with falling := true }) c) s

/-- Lowers every quad of a cluster by one point. -/
def lowerCluster (s : State) (c : Nat) : State :=
  (upFrom (64 * c) 64).foldl (fun s q =>
    let d := quadAt s q
    if d.valid then retarget (setQuad s q { d with lowered := d.lowered + 1 }) q else s) s

/-- POWER_SAMPLE: while the average of 10 ms of samples exceeds 18.5 kW, boost grants are withdrawn first, and then the
highest-drawing cluster is lowered (R324). -/
def execPowerSample (w : Nat) (s : State) : Out :=
  .next <|
    let h := (w :: s.mgmt.power).take 100
    let s1 := { s with mgmt := { s.mgmt with power := h } }
    if h.length == 100 && 1850000 < h.foldl (· + ·) 0 then
      if (upFrom 0 256).any fun c => (clusterAt s1 c).grant then withdrawGrants s1
      else
        match hungriest s1 with
        | some c => lowerCluster s1 c
        | none => s1
    else s1

end Sys2Proof.Machine
end

