-- ==== Sys2Proof/Machine/Outside.lean ====
section
/-! DEFINITION. Host windows, span ports, die links, boot, firmware and attestation (R6, R11, R20, R306-R308, R311-R322,
R342-R344). -/

namespace Sys2Proof.Machine

/-! ## The lifetime block (R341, Table 25-8) -/

/-- A lifetime count. -/
def lifeCount (s : State) (k : Life) : Nat := ((s.life.find? fun e => e.1 == k).map (·.2)).getD 0

/-- Word `i` of two for each of several 64-bit counts. -/
def halfOf (v i : Nat) : Nat := if i % 2 == 0 then v % 2 ^ 32 else v / 2 ^ 32

/-- The sections of the lifetime block in the order of Table 25-8, each with its number of 4-byte words; the histograms in seconds.
The lane sheds, whose links the table does not number, stand last (log 109). -/
def lifeSections (s : State) : List (Nat × (Nat → Nat)) :=
  [(648, fun i => lifeCount s (.corrected i)), (136, fun i => lifeCount s (.uncorrectable i)),
    (1512, fun i => lifeCount s (.thermal (i / 21) (i % 21)) / 100000), (2088, fun i => lifeCount s (.vh (i / 29) (i % 29)) / 100000),
    (144, fun i => halfOf (lifeCount s (.det (i / 2))) i), (144, fun i => halfOf (lifeCount s (.rep (i / 2))) i),
    (32, fun i => lifeCount s (.retrain i)), (32, fun i => lifeCount s (.loss i)), (20736, fun i => lifeCount s (.migration i)),
    (20736, fun i => lifeCount s (.quarantine i)), (20736, fun i => lifeCount s (.droop i)),
    (1, fun _ => lifeCount s .boots), (1, fun _ => lifeCount s .reverts), (1, fun _ => lifeCount s .attest)]

/-- A word of the lifetime block. -/
def lifeWord (s : State) (secs : List (Nat × (Nat → Nat))) (i : Nat) : Nat :=
  match secs with
  | [] => lifeCount s (.shed i)
  | x :: rest => if i < x.1 then x.2 i else lifeWord s rest (i - x.1)

/-- Bytes of the lifetime block from an offset. -/
def lifeBytes (s : State) (off n : Nat) : List Byte :=
  (upFrom off n).map fun o => BitVec.ofNat 8 (lifeWord s (lifeSections s) (o / 4) / 2 ^ (8 * (o % 4)))

/-! ## BAR0 and BAR2 (R260, R306, R309, R311, R313, R320) -/

/-- What BAR0 shows. -/
def bar0Bytes (s : State) (port : Nat) (r : Bar0Reg) : List Byte :=
  match r with
  | .passing => leBytes s.mgmt.passing 4
  | .misroute => leBytes (portAt s port).misroute 4
  | .spanLanes p => leBytes (smGet (Span.mk 8 false) p s.spans).lanes 4
  | .spanRetrains p => leBytes (lifeCount s (.retrain p)) 4
  | .spanLosses p => leBytes (lifeCount s (.loss p)) 4
  | .lifetime off n => lifeBytes s off n
  | .mailbox off n => (upFrom off n).map (Config.gwemonMailbox s.freeIdx)

/-- The register belongs to the management window, which answers while the module stays in recovery (R320). -/
def inWindow (r : Bar0Reg) : Bool :=
  match r with
  | .passing | .mailbox .. => true
  | _ => false

/-- A read of BAR0. While the module stays in recovery, port 0 alone answers, with the management window (R320). -/
def bar0Read (s : State) (port : Nat) (r : Bar0Reg) : Reply :=
  if s.mgmt.recovery then (if port == 0 && inWindow r then ⟨.done, bar0Bytes s port r⟩ else ⟨.unsupported, []⟩)
  else if s.mgmt.step < 4 then ⟨.retry, []⟩
  else ⟨.done, bar0Bytes s port r⟩

/-- The 128 bytes of a slot as a read sees them (R260); an unbound page reads zero (R309). -/
def slotImage (s : State) (page slot : Nat) : List Byte :=
  match smFind page s.pages with
  | none => List.replicate 128 0#8
  | some p =>
    let st := streamAt s (streamKey page slot)
    let away := p.suspended || s.mgmt.step < 5
    leBytes (st.queue.length % 512 + if away then 512 else 0) 8 ++ leBytes st.done 8 ++ List.replicate 112 0#8

/-- A read of the submission pages of a port (R309). -/
def pageRead (s : State) (port off n : Nat) : Reply :=
  if s.mgmt.recovery then ⟨.unsupported, []⟩
  else if s.mgmt.step < 4 then ⟨.retry, []⟩
  else if 2 ^ 26 < off + n || off / 4096 != (off + n - 1) / 4096 then ⟨.unsupported, []⟩
  else ⟨.done, (((upFrom 0 32).flatMap (slotImage s (pageKey port (off / 4096)))).drop (off % 4096)).take n⟩

/-- What Table 23-1 fixes of a port's PCIe configuration space, as runs of bytes at their offsets: one physical function with a list of
capabilities, no interrupt pin; the PCI Express capability with a Max Payload Size of 512 bytes, 64 GT/s at x16 and no ASPM, 32- and
64-bit AtomicOps completed, extended tags, Deferrable Memory Writes of up to 128 bytes, no TPH; MSI-X with 2,048 vectors; the power
states D0 and D3; and two extended capabilities, one with 14-bit tags and the one that CXL puts its own fields in: no SR-IOV, MSI, ATS, PRI, PASID or IDE stands in either list. The
layout is that of PCI Express, the offsets of the capabilities are the model's (PRESUMED, log 129). -/
def pcieFixed : List (Nat × List Nat) :=
  [(0x06, [0x10]), (0x0e, [0x00]), (0x34, [0x40]), (0x3d, [0x00]),
    (0x40, [0x10, 0x80, 0x02, 0x00, 0x22, 0x80, 0x00, 0x00]), (0x4c, [0x06, 0x01, 0x40, 0x00]),
    (0x64, [0x80, 0x01, 0x03, 0x30]), (0x6c, [0x7e, 0x00, 0x00, 0x00]),
    (0x80, [0x11, 0x90, 0xff]), (0x90, [0x01, 0x00, 0x03, 0x00]),
    (0x100, [0x2f, 0x00, 0x01, 0x12, 0x06, 0x00, 0x00, 0x00]), (0x120, [0x23, 0x00, 0x01, 0x00])]

/-- A byte of a port's configuration space; bits 5:0 of the MSI-X control's high byte end its table size. -/
def pcieByte (port off : Nat) : Byte :=
  match pcieFixed.find? fun r => r.1 ≤ off && off < r.1 + r.2.length with
  | some r => BitVec.ofNat 8 ((r.2[off - r.1]?).getD 0)
  | none => if off == 0x83 then (Config.pcieConfig port off &&& 0xc0#8) ||| 0x07#8 else Config.pcieConfig port off

/-- A configuration request: the ports train in step 3 of the boot and answer with Request Retry Status until step 4 completes
(R320). -/
def configRequest (s : State) (port off n : Nat) : State :=
  if s.mgmt.step < 3 then { s with reply := ⟨.unsupported, []⟩ }
  else if s.mgmt.step < 4 then { s with reply := ⟨.retry, []⟩ }
  else { s with reply := ⟨.done, (upFrom off n).map (pcieByte port)⟩ }

/-! ## BAR4 (R306, R307, R308) -/

/-- Port, offset and length of a request. -/
def bar4Span : Bar4Req → Nat × Nat × Nat
  | .read p o n => (p, o, n)
  | .write p o bs => (p, o, bs.length)
  | .fetchAdd p o w _ => (p, o, if w then 8 else 4)
  | .swap p o w _ => (p, o, if w then 8 else 4)
  | .cas p o w _ _ => (p, o, if w then 8 else 4)
  | .config p o n => (p, o, n)
  | .bar0 p _ => (p, 0, 0)
  | .page p o n => (p, o, n)
  | .deferrable p o bs => (p, o, bs.length)
  | .mailbox p o bs => (p, o, bs.length)
  | .feature p => (p, 0, 0)

/-- What a request to BAR4 writes, once it has read `old`: `none` for a read, or a compare that fails. -/
def bar4Put (r : Bar4Req) (old : Nat) : Option (List Byte) :=
  match r with
  | .write _ _ bs => some bs
  | .fetchAdd _ _ w v => some (leBytes ((old + v.toNat) % 2 ^ 64) (if w then 8 else 4))
  | .swap _ _ w v => some (leBytes v.toNat (if w then 8 else 4))
  | .cas _ _ w c v =>
    let n := if w then 8 else 4
    if old == c.toNat % 2 ^ (8 * n) then some (leBytes v.toNat n) else none
  | _ => none

/-- The request is a read or an AtomicOp, whose completion carries data. -/
def bar4Reads : Bar4Req → Bool
  | .write _ _ _ => false
  | _ => true

/-- A write that carries more than the Max Payload Size of 512 bytes (R306; log 107). -/
def overPayload : Bar4Req → Bool
  | .write _ _ bs => 512 < bs.length
  | _ => false

/-- A host that negotiated CXL may hold the line it has read (R308). -/
def hostCaches (s : State) (port pa n : Nat) : State :=
  let p := portAt s port
  if p.cxl then setPort s port { p with cached := linesOf pa n ++ p.cached } else s

/-- Carries out a BAR4 request at its home controller, in the order the port delivers them (R256): a write to a line that a host may
hold is performed once it has been given up, the port's later writes after it, and what must answer waits for the writes before it.
Data that leave with an uncorrectable error are poisoned; a merge into a granule whose check fails is not performed; the checks of
written granules are made anew (R342-R344). -/
def bar4At (s : State) (r : Bar4Req) (port pa n : Nat) : State :=
  let place := Place.gl (.edge pa) 0#2
  let bs := memRead s.edge pa n
  let hit := damaged s place n
  let counted := if hit then bumpLife s (.uncorrectable (unitOf s place)) 1 else s
  if bar4Reads r && (queuedAt s pa n || behind s (.port port)) then { s with reply := ⟨.held, []⟩ }
  else
    match bar4Put r (leNat bs) with
    | none => { hostCaches counted port pa n with reply := ⟨if hit then .poisoned else .done, bs⟩ }
    | some new =>
      if (heldLine s pa n).isSome && bar4Reads r then { (askLines s pa n) with reply := ⟨.held, []⟩ }
      else if hit && bar4Reads r then { counted with reply := ⟨.poisoned, bs⟩ }
      else if !homeHolds s (.port port) pa n && badMerge s pa n then { counted with reply := ⟨.discarded, []⟩ }
      else { (edgeStoreFrom s (.port port) pa new) with reply := ⟨.done, if bar4Reads r then bs else []⟩ }

/-- A request to BAR4: outside the window, across a 4 KiB boundary or above the payload limit it is Unsupported Request; one of no
bytes does nothing, and is answered behind the port's writes (R256). -/
def bar4Request (s : State) (r : Bar4Req) : State :=
  let q := bar4Span r
  let p := portAt s q.1
  let pa := p.bar4base + q.2.1
  let n := q.2.2
  if s.mgmt.recovery then { s with reply := ⟨.unsupported, []⟩ }
  else if s.mgmt.step < 4 then { s with reply := ⟨.retry, []⟩ }
  else if p.bar4size < q.2.1 + n || edgeTop < pa + n || (n != 0 && q.2.1 / 4096 != (q.2.1 + n - 1) / 4096) || overPayload r then
    { s with reply := ⟨.unsupported, []⟩ }
  else if n == 0 then { s with reply := ⟨if bar4Reads r && behind s (.port q.1) then .held else .done, []⟩ }
  else bar4At s r q.1 pa n

/-- A write to the Gwemon mailbox: the port takes it, and what Gwemon does for it comes as a step of its own, such as FIRMWARE_UPDATE or
ATTESTATION_REPORT (R306; log 129). -/
def mailboxWrite (s : State) (port : Nat) : Reply :=
  if s.mgmt.recovery then ⟨if port == 0 then .done else .unsupported, []⟩
  else if s.mgmt.step < 4 then ⟨.retry, []⟩
  else ⟨.done, []⟩

/-- HOST_BAR4_ACCESS: a host request to a port (R306-R309, R320). -/
def execHostBar4Access (r : Bar4Req) (s : State) : Out :=
  .next <| match r with
    | .config p o n => configRequest s p o n
    | .bar0 p x => { s with reply := bar0Read s p x, freeIdx := s.freeIdx + 1 }
    | .mailbox p _ _ => { s with reply := mailboxWrite s p }
    | .page p o n => { s with reply := pageRead s p o n }
    | .deferrable .. | .feature _ => { s with reply := ⟨.unsupported, []⟩ }
    | r => bar4Request s r

/-- MSI_X_UNMASK: an entry is unmasked and sends the message it holds (R311). -/
def execMsiXUnmask (port vec : Nat) (s : State) : Out :=
  .next <|
    let p := portAt s port
    let e := smGet (Msix.mk 0 false false) vec p.msix
    let s1 := setPort s port { p with msix := smSet vec { e with masked := false, pending := false } p.msix }
    if e.masked && e.pending then { s1 with irqs := s1.irqs ++ [.msix port vec] } else s1

/-! ## Span ports and die links (R312-R314, R318) -/

def spanAt (s : State) (p : Nat) : Span := smGet (Span.mk 8 false) p s.spans

/-- SPAN_LANE_LOSS: a port that loses a lane retrains at 4 while it has 4 or more, and is lost with fewer until the next boot; or a
peer module is lost (R314). -/
def execSpanLaneLoss (p : SpanLoss) (lanes : Nat) (s : State) : Out :=
  .next <| match p with
    | .port p =>
      let x := spanAt s p
      if 32 ≤ p || x.lanes == 0 || x.lanes ≤ lanes then s
      else if 4 ≤ lanes then bumpLife { s with spans := smSet p ⟨4, true⟩ s.spans } (.retrain p) 1
      else bumpLife { s with spans := smSet p ⟨0, false⟩ s.spans } (.loss p) 1
    | .module id => if s.lostModules.contains id || 65536 ≤ id then s else { s with lostModules := id :: s.lostModules }

/-- SPAN_RETRAIN_COMPLETE: the port carries flits again, beginning with those cut off (R314). -/
def execSpanRetrainComplete (p : Nat) (s : State) : Out :=
  .next <|
    let x := spanAt s p
    if x.retraining then { s with spans := smSet p { x with retraining := false } s.spans } else s

def linkAt (s : State) (l : Nat) : Link := smGet (Link.mk 0#16 16 false) l s.links

/-- The width of a link with failed lanes: all 16 while none has failed, 8 with a good half, 4 otherwise; it never widens
(R318). -/
def linkWidth (old : Nat) (bad : BitVec 16) : Nat :=
  min old (if bad == 0#16 then 16 else if bad.extractLsb' 0 8 == 0#8 || bad.extractLsb' 8 8 == 0#8 then 8 else 4)

/-- LANE_SHED: a link beyond its error threshold closes and sheds lanes (R318). -/
def execLaneShed (link : Nat) (bad : BitVec 16) (s : State) : Out :=
  .next <|
    let x := linkAt s link
    let b := x.bad ||| bad
    if linkWidth x.lanes b < x.lanes then
      bumpLife { s with links := smSet link ⟨b, linkWidth x.lanes b, true⟩ s.links } (.shed link) 1
    else s

/-- LINK_REOPEN: the link accepts flits at its new width (R318). -/
def execLinkReopen (link : Nat) (s : State) : Out :=
  .next <|
    let x := linkAt s link
    if x.closed then { s with links := smSet link { x with closed := false } s.links } else s

/-! ## Boot (R6, R11, R20, R319-R321) -/

/-- The digest of the image public key that the boot ROM holds is inside the free signature check (R319; log 8). -/
def slotRuns (m : Mgmt) (x : Option Slot) : Bool :=
  match x with
  | some sl => !sl.invalid && m.minVersion ≤ sl.img.version && Config.imageSignatureOk sl.img.bytes sl.img.signature
  | none => false

/-- The slot that boots: the active one, or first an update that has not yet been booted (log 25); then the other
(R319). -/
def bootSlot (m : Mgmt) : Option Bool :=
  let get (a : Bool) := if a then m.slotA else m.slotB
  let first := m.activeA != m.fresh
  if slotRuns m (get first) then some first
  else if slotRuns m (get (!first)) then some (!first)
  else none

/-- Bad physical quads of a cluster of a site. -/
def badOf (r : BootReport) (site k : Nat) : List Nat :=
  (r.badQuads.filter fun e => e.1 == site * 4 + k).flatMap (·.2)

/-- The sites that pass: a site with a cluster of fewer than 64 good quads is bypassed (R11). -/
def passingSites (r : BootReport) : List Nat :=
  (upFrom 0 72).filter fun site =>
    r.sites.contains site && (upFrom 0 4).all fun k => ((upFrom 0 72).filter fun p => !(badOf r site k).contains p).length ≥ 64

/-- The physical quads that a cluster's 64 logical quads map to: its own number, or a spare for one that failed (R11). -/
def quadMap (bad : List Nat) : List Nat :=
  let own := (upFrom 0 64).filter fun p => !bad.contains p
  let spare := (upFrom 64 8).filter fun p => !bad.contains p
  ((upFrom 0 64).foldl (fun (acc : List Nat × List Nat) q =>
    if own.contains q then (acc.1 ++ [q], acc.2)
    else (acc.1 ++ [(acc.2[0]?).getD 64], acc.2.drop 1)) ([], spare)).1

/-- The quads of a cluster as boot maps them. -/
def bootQuads (c : Nat) (bad : List Nat) : SMap Quad :=
  ((upFrom 0 64).zip (quadMap bad)).map fun e => (64 * c + e.1, { Quad.blank with valid := true, pquad := e.2 })

/-- Which die holds a cluster and which of its four it is, for every cluster in increasing number. -/
def clusterHomes : List (Nat × Nat × Nat) :=
  (upFrom 0 256).map fun c => (c, dieOfCluster c, (clustersOfDie (dieOfCluster c)).idxOf c)

/-- A host port as it comes up in step 3, and with its window in step 5 (R307, R308). -/
def portUp (s : State) (p : Nat) (x : PortSetup) : State := setPort s p { portAt s p with cxl := x.cxl }
def portWindow (s : State) (p : Nat) (x : PortSetup) : State :=
  setPort s p { portAt s p with bar4base := x.base, bar4size := min x.size (2 ^ 39) }

/-- Does something for each host port of a report. -/
def eachPort (f : State → Nat → PortSetup → State) (s : State) (r : BootReport) : State :=
  ((upFrom 0 4).zip r.ports).foldl (fun s e => f s e.1 e.2) s

/-- Steps 4 and 5 of Table 23-7: the remap tables are written and the Plazas released; cr.cycle counts from here (R237). -/
def bootPanel (s : State) (r : BootReport) (sites : List Nat) : State :=
  { (eachPort portWindow s r) with
    clk := 0
    dies := ((upFrom 0 64).zip sites).map fun e => (e.1, { Die.blank with site := e.2, valid := true })
    quads := clusterHomes.flatMap fun h => bootQuads h.1 (badOf r ((sites[h.2.1]?).getD 0) h.2.2)
    clusters := (upFrom 0 256).map fun c => (c, Cluster.blank)
    pquads := []
    spans := []
    lostModules := []
    links := []
    mgmt := { s.mgmt with step := 5, rails := true, passing := 64 } }

/-- The 12 V input is within its operating range (Table 23-8). -/
def inputOk (r : BootReport) : Bool := 11000 ≤ r.input && r.input ≤ 13000

/-- Steps 1 to 3 of Table 23-7: with 12 V in range the boot ROM verifies a slot, Gwemon starts, and the host ports train; where no
slot verifies the module stays in recovery (R319-R321). -/
def bootPorts (s : State) (r : BootReport) : State :=
  let s0 := bumpLife s .boots 1
  match bootSlot s0.mgmt with
  | none => { s0 with mgmt := { s0.mgmt with recovery := true, running := none, fresh := false, step := 1 } }
  | some a =>
    eachPort portUp { s0 with mgmt := { s0.mgmt with running := some a, confirmed := false, fresh := false, step := 3 } } r

/-- POWER_ON: the module boots: steps 1 to 3 of Table 23-7, where the host ports train and answer with Request Retry Status, and, as
the boot goes on, steps 4 and 5. Where fewer than 64 sites pass, the boot stops after step 4 (R319-R321; log 110). -/
def execPowerOn (r : BootReport) (s : State) : Out :=
  .next <|
    if s.mgmt.recovery then s
    else if s.mgmt.step == 0 then (if inputOk r then bootPorts s r else s)
    else if s.mgmt.step == 3 then
      let sites := passingSites r
      if sites.length < 64 then { s with mgmt := { s.mgmt with step := 4, recovery := true, passing := sites.length } }
      else bootPanel s r sites
    else s

/-- HEALTH_CONFIRMATION: the running slot becomes the active one and the minimum security version rises to its version
(R320, R321). -/
def execHealthConfirmation (s : State) : Out :=
  .next <|
    let m := s.mgmt
    match m.running with
    | some a =>
      if m.step != 5 || m.recovery then s
      else
        let v := (((if a then m.slotA else m.slotB).map fun x => x.img.version)).getD 0
        { s with mgmt := { m with confirmed := true, step := 6, activeA := a, minVersion := max m.minVersion v } }
    | none => s

/-- Marks a slot invalid. -/
def Mgmt.spoil (m : Mgmt) (a : Bool) : Mgmt :=
  let f (x : Option Slot) : Option Slot := x.map fun sl => { sl with invalid := true }
  if a then { m with slotA := f m.slotA } else { m with slotB := f m.slotB }

/-- HEALTH_WATCHDOG: no confirmation within 120 s: the module resets, the slot is invalid, and the other slot boots next
(R321). -/
def execHealthWatchdog (s : State) : Out :=
  .next <|
    match s.mgmt.running with
    | some a =>
      if s.mgmt.confirmed then s
      else
        let s1 := resetModule (bumpLife s .reverts 1) true
        { s1 with mgmt := s1.mgmt.spoil a }
    | none => s

/-- FIRMWARE_UPDATE: a new image goes into the slot that is not active; in the recovery state the management window takes one
into slot A (R319, R321). -/
def execFirmwareUpdate (slotA : Bool) (img : Image) (s : State) : Out :=
  .next <|
    let m := s.mgmt
    let ok := if m.recovery then slotA else slotA != m.activeA
    let m1 := { m with fresh := slotA != m.activeA }
    if !ok then { s with reply := ⟨.discarded, []⟩ }
    else if slotA then { s with mgmt := { m1 with slotA := some ⟨img, false⟩ }, reply := ⟨.done, []⟩ }
    else { s with mgmt := { m1 with slotB := some ⟨img, false⟩ }, reply := ⟨.done, []⟩ }

/-! ## Attestation (R322) -/

/-- The SHAKE256 digest, 64 bytes, and the security version of a slot; zeros for an empty one. -/
def slotDigest (x : Option Slot) : List Byte :=
  match x with
  | some sl => shake256 sl.img.bytes 64 ++ leBytes sl.img.version 8
  | none => List.replicate 72 0#8

/-- The entries of the die remap table and of the quad remap tables (Tables 1-4 and 1-5). -/
def dieEntry (d : Die) : Nat := (if d.valid then 2 ^ 31 else 0) + d.site % 128
def quadEntry (q : Quad) : Nat :=
  (if q.valid then 2 ^ 31 else 0) + (if q.mig then 2 ^ 30 else 0) + q.mcount % 2 ^ 14 * 2 ^ 16 + q.pquad % 128

/-- The bytes of both tables. -/
def remapBytes (s : State) : List Byte :=
  ((upFrom 0 64).flatMap fun d => leBytes (dieEntry (dieAt s d)) 4) ++
    (upFrom 0 16384).flatMap fun q => leBytes (quadEntry (quadAt s q)) 4

/-- The report that is signed: nonce, digests and versions of both slots, digest of the remap tables, key index.
DESIGN CHOICE (log 125): the digest of the tables is 64 bytes of SHAKE256 over `remapBytes`. -/
def reportBytes (s : State) (nonce : BitVec 256) : List Byte :=
  leBytes nonce.toNat 32 ++ slotDigest s.mgmt.slotA ++ slotDigest s.mgmt.slotB ++ shake256 (remapBytes s) 64 ++
    leBytes s.mgmt.keyIndex 8

/-- ATTESTATION_REPORT: the next key index is committed before the signature leaves; after 2^20 signatures the report is
refused (R322). -/
def execAttestationReport (nonce : BitVec 256) (s : State) : Out :=
  .next <|
    if s.mgmt.running.isNone then { s with reply := ⟨.unsupported, []⟩ }
    else if 2 ^ 20 ≤ s.mgmt.keyIndex then { s with reply := ⟨.exhausted, []⟩ }
    else
      let rep := reportBytes s nonce
      let s1 := bumpLife { s with mgmt := { s.mgmt with keyIndex := s.mgmt.keyIndex + 1 } } .attest 1
      { s1 with reply := ⟨.done, rep ++ Config.deviceSignature s.mgmt.keyIndex rep⟩ }

end Sys2Proof.Machine
end

