-- ==== Sys2Proof/Machine/Fetch.lean ====
section
/-! DEFINITION. Fetching a bundle from the fetch buffer (R47, R48, R71-R74). -/

namespace Sys2Proof.Machine

/-- What the fetch buffer holds of a bundle. -/
inductive Fetched where
  /-- The line is not there yet. -/
  | missing
  /-- The fetch of its line met this fault. -/
  | bad (c : Code)
  | words (w0 w1 : Word)
  deriving DecidableEq, Repr

/-- The bundle at an address, from the lines of a tile, or the fault that the fetch of its line met for the task. -/
def fetchBundle (tl : Tile) (pc : DWord) : Fetched :=
  match tl.lines.find? fun l => l.base == lineOf pc with
  | none =>
    match tl.badFetch with
    | some (act, base, c) => if act == tl.task.act && base == lineOf pc then .bad c else .missing
    | none => .missing
  | some l =>
    let o := pc.toNat % 256
    .words (BitVec.ofNat 32 (leNat (memRead l.bytes o 4))) (BitVec.ofNat 32 (leNat (memRead l.bytes (o + 4) 4)))

/-- The decoded bundle at a tile's PC, where its line is there. -/
def nextBundle (s : State) (t : Nat) : Option Bundle :=
  let tl := tileOf s t
  match fetchBundle tl tl.task.pc with
  | .words w0 w1 => (decodeWords w0 w1).toOption
  | _ => none

end Sys2Proof.Machine
end

