-- ==== Sys2Proof/Machine/Debug.lean ====
section
/-! DEFINITION. Profiling sessions, snapshots, tagged samples, droop records and lifetime records (R330-R341). -/

namespace Sys2Proof.Machine

/-! ## Run state (R338) -/

/-- Bits 56:3 of a PC. -/
def pcBits (pc : DWord) : DWord := pc &&& 0x01fffffffffffff8#64

/-- The task with this GTID belongs to the cohort that is resident on the tile: a frame of a cohort saved from the tile does not
stop the tile (R28, R32). -/
def ofCohortOn (s : State) (t : Nat) (gtid : DWord) : Bool :=
  match cohortOf s t with
  | some (_, c, _) => (gtid.extractLsb' 16 48).toNat == (c.launch * 2 ^ 32 + c.index) % 2 ^ 48
  | none => false

/-- The trap whose frame, not yet resolved, stands for a task of the tile (R338). -/
def frameOn (s : State) (t : Nat) : Option (TrapInfo × DWord) :=
  (s.frames.find? fun f => f.2.tile == t && f.2.answer.isNone && ofCohortOn s t f.2.task.gtid).map fun f => (f.2.trap, f.2.task.gtid)

/-- The record that an idle tile is writing or loading: a stolen one in flight to it, or one that it stores to its slab, whose
first 32 bytes hold its PC and its GTID (R219, R276, R338). -/
def recordOn (s : State) (t : Nat) : Option (DWord × DWord) :=
  match (tileOf s t).landing with
  | some (_, _, r) => some (r.pc, r.gtid)
  | none =>
    (s.accs.find? fun a => a.tile == t && a.op == .spill && a.res.isNone && a.ea.toNat % 64 == 0).map fun a =>
      (a.data.extractLsb' 0 64, a.data.extractLsb' 64 64)

/-- STATE, PC and GTID of a tile (R338). -/
def runState (s : State) (t : Nat) : BitVec 4 × DWord × DWord :=
  let tl := tileOf s t
  match tl.run with
  | .stopping i => (4#4, pcBits i.pc, tl.task.gtid)
  | .idle =>
    match frameOn s t, recordOn s t with
    | some (i, g), _ => (4#4, pcBits i.pc, g)
    | none, some (pc, g) => (3#4, pcBits pc, g)
    | none, none => (0#4, 0#64, 0#64)
  | .running =>
    let k := tl.task
    match tl.halt with
    | .migrate => (6#4, pcBits k.pc, k.gtid)
    | .preempt _ | .held _ => (5#4, pcBits k.pc, k.gtid)
    | .none =>
      match tl.lastIssue with
      | some (c, pc) => if c == s.clk then (1#4, pcBits pc, k.gtid) else (2#4, pcBits k.pc, k.gtid)
      | none => (2#4, pcBits k.pc, k.gtid)

/-! ## The sampling pulse (R337, R338) -/

/-- The tiles of a cluster in the order of R338. -/
def tilesOfCluster (c : Nat) : List Nat :=
  (upFrom 0 16).flatMap fun y => (upFrom 0 16).map fun x => (c / 16 * 16 + y) * 256 + (c % 16 * 16 + x)

/-- PULSE: a write of T sends the sampling pulse to every cluster; it is discarded while a record of the last one is
unwritten (R337). -/
def execPulse (_core : Nat) (tick : DWord) (s : State) : Out :=
  .next <|
    if !s.pulse.todo.isEmpty then { s with reply := ⟨.discarded, []⟩ }
    else
      let todo := (upFrom 0 256).filter fun c => (dieAt s (dieOfCluster c)).ring.on.getLsbD 0
      { s with
        pulse := ⟨tick, todo⟩
        tiles := s.tiles.map fun e => (e.1, { e.2 with latch := none })
        reply := ⟨.done, []⟩ }

/-- Latches a tile's run state. -/
def latchTile (s : State) (t : Nat) : State :=
  let r := runState s t
  setTile s t { tileOf s t with latch := some ⟨s.pulse.tick, r.1, r.2.1, r.2.2, decide (s.pulse.tick.toNat < s.clk)⟩ }

/-- SAMPLE_LATCH: a tile that the pulse has reached latches at T, or on arrival (R337). -/
def execSampleLatch (t : Nat) (s : State) : Out :=
  .next <|
    if s.pulse.todo.contains (clusterOf t) && s.pulse.tick.toNat ≤ s.clk && (tileOf s t).latch.isNone then latchTile s t
    else s

/-- A run of a snapshot: its first tile, its length, what its first tile latched, the serial that its next tile has. -/
structure SnapRun where
  tile : Nat
  len : Nat
  first : Latch
  next : Nat
  deriving DecidableEq, Repr

/-- A tile's latch joins the current run, the last of the list, or starts one (R338). -/
def joinRun (runs : List SnapRun) (t : Nat) (l : Latch) : List SnapRun :=
  let fresh : SnapRun := ⟨t, 1, l, (l.gtid.extractLsb' 0 16).toNat + 1⟩
  match runs.getLast? with
  | none => [fresh]
  | some r =>
    let same := l.runState == r.first.runState && l.pc == r.first.pc &&
      l.gtid.extractLsb' 16 48 == r.first.gtid.extractLsb' 16 48 && (l.gtid.extractLsb' 0 16).toNat == r.next
    if same || (l.runState == 0#4 && r.first.runState == 0#4) then
      runs.dropLast ++ [{ r with len := r.len + 1, next := r.next + 1 }]
    else runs ++ [fresh]

/-- The word with first tile, LEN and STATE. -/
def runWord (tile len : Nat) (st : BitVec 4) : Nat := tile + len * 2 ^ 16 + st.toNat * 2 ^ 28

/-- The 32 bytes of a run. -/
def runBytes (r : SnapRun) : List Byte :=
  leBytes r.first.gtid.toNat 8 ++ leBytes r.first.pc.toNat 8 ++ leBytes (runWord r.tile r.len r.first.runState) 8 ++
    List.replicate 8 0#8

/-- SNAPSHOT_RECORD: once its tiles have latched, a cluster writes its record to its die's ring (R337, R338). -/
def execSnapshotRecord (c : Nat) (s : State) : Out :=
  .next <|
    if !s.pulse.todo.contains c || s.clk < s.pulse.tick.toNat then s
    else
      let ts := tilesOfCluster c
      let s1 := (ts.filter fun t => (tileOf s t).latch.isNone).foldl latchTile s
      let ls := ts.filterMap fun t => (tileOf s1 t).latch.map fun l => (t, l)
      let runs := ls.foldl (fun r e => joinRun r e.1 e.2) []
      let late := ls.any fun e => e.2.late
      let body := leBytes (c + runs.length * 2 ^ 16 + if late then 2 ^ 31 else 0) 8 ++ List.replicate 8 0#8 ++
        runs.flatMap runBytes
      let s2 := ringPut s1 (.die (dieOfCluster c)) 1 body (if late then s.clk else s.pulse.tick.toNat)
      { s2 with pulse := { s2.pulse with todo := s2.pulse.todo.filter (· != c) } }

/-! ## Tagged samples (R339) -/

/-- TAGGED_SAMPLE_MARK: when the gap has passed and no marked bundle is in flight, the next bundle is marked and a new gap
is drawn (R339; log 6). -/
def execTaggedSampleMark (t : Nat) (s : State) : Out :=
  .next <|
    let tl := tileOf s t
    let se := sessionAt s (tagOf s t)
    if !se.open_ || se.sper == 0#5 || tl.gap != 0 || tl.mark.isSome || tl.run != .running || tl.halt != .none ||
        tl.task.xpushed then s
    else
      match nextBundle s t with
      | some b =>
        let m : Mark := match b with
          | .paired _ _ _ x => ⟨tl.task.pc, tl.task.gtid, false, x == .nopX, false, 0, 0, s.nextId, false, 0⟩
          | .loneA _ _ => ⟨tl.task.pc, tl.task.gtid, true, true, false, 0, 0, s.nextId, false, 0⟩
          | .loneX _ _ => ⟨tl.task.pc, tl.task.gtid, true, false, false, 0, 0, s.nextId, false, 0⟩
        let gap := 1 + Config.sampleGap s.freeIdx % (2 ^ (se.sper.toNat + 1) - 1)
        setTile { s with freeIdx := s.freeIdx + 1 } t { tl with gap := gap, mark := some m }
      | none => s

/-- The marked bundle's X instruction still stands in the queue of its task. -/
def markWaits (k : Task) (m : Mark) : Bool := k.gtid == m.gtid && k.xinstr.any fun x => x.pc == m.pc

/-- The task has trapped at the marked bundle. -/
def markTrapped (s : State) (t : Nat) (m : Mark) : Bool :=
  (match (tileOf s t).run with
    | .stopping i => i.pc == m.pc
    | _ => false) ||
    s.frames.any fun f => f.2.tile == t && f.2.task.gtid == m.gtid && f.2.trap.pc == m.pc

/-- A count saturates at its field's width. -/
def satField (n w : Nat) : Nat := min n (2 ^ w - 1)

/-- The last 48 bytes of a tagged-sample record: SLIP, ACAUSE, BANK, and MEM of a bundle without an access, are the tile's, the
other counts the event's (R339). -/
def sampleBytes (t : Nat) (m : Mark) (c : SampleCounts) (abort : Bool) : List Byte :=
  leBytes m.gtid.toNat 8 ++ leBytes m.pc.toNat 8 ++
    leBytes (satField c.iwait 16 + satField m.slip 5 * 2 ^ 16 + m.cause % 8 * 2 ^ 21 + satField c.xwait 16 * 2 ^ 32 +
      satField c.owait 16 * 2 ^ 48) 8 ++
    leBytes (satField m.bank 16 + satField c.latency 16 * 2 ^ 16 + (if m.access then satField c.mem 32 else 0) * 2 ^ 32) 8 ++
    leBytes ((if abort then 1 else 0) + (if m.lone then 2 else 0) + if m.noX then 4 else 0) 8 ++ leBytes t 8

/-- TAGGED_SAMPLE_RECORD: the marked bundle's record is written as its X instruction completes, at issue where it has none,
and with ABORT where the task traps at it or its cohort halts first (R339). The counts are the event's: the model has no
timing. -/
def execTaggedSampleRecord (t : Nat) (c : SampleCounts) (s : State) : Out :=
  .next <|
    let tl := tileOf s t
    match tl.mark with
    | some m =>
      let trapped := markTrapped s t m
      let completed := m.out && !markWaits tl.task m && !trapped
      let stopped := trapped || tl.halt != .none || tl.run != .running || tl.task.gtid != m.gtid
      if completed || stopped then
        ringPut (setTile s t { tl with mark := none }) (.session (tagOf s t)) 3 (sampleBytes t m c (!completed)) s.clk
      else s
    | none => s

/-! ## Sessions (R332, R334, R336) -/

/-- Portable event `e` exists: EVCAP has bits 0x01 to 0x11 set (R334). -/
def eventExists (e : Nat) : Bool := 1 ≤ e && e ≤ 0x11

/-- A slot's ABSENT bit once its session opens (R334): EVENT 0 counts nothing and is not absent. -/
def slotAbsent (e : BitVec 16) : Bool := !(e == 0#16 || eventExists e.toNat)

/-- A ring whose first source is turned on (R330). -/
def Ring.start (r : Ring) : Ring := { r with widx := 0#64, ridx := 0#64, lost := 0#32, seq := 0#32 }

/-- The sums of the region's barrier phases under way are gone, those of its saved cohorts among them: they belong to one session
(R332, R335; log 126). -/
def forgetSums (s : State) (tag : Nat) : State :=
  { s with
    sums := s.sums.filter fun e => tagOf s (e.1 / 32) != tag
    areas := s.areas.map fun a => if tagOfCluster s a.2.cohort.cluster == tag then (a.1, { a.2 with sums := [] }) else a }

/-- SESSION_OPEN: OPEN = 1, written to a closed or an open session, clears the counters of the region's tiles, the TOTAL values
and the ring indices, and sets the ABSENT bits (R332); the first source of the ring turns on where it was closed (R330). -/
def execSessionOpen (tag : Nat) (s : State) : Out :=
  .next <|
    let se := sessionAt s tag
    let zero := Vector.replicate 16 (0#32 : Word)
    let s1 := { (forgetSums s tag) with
      tiles := s.tiles.map fun e => if tagOf s e.1 == tag then (e.1, { e.2 with counters := zero, snap := zero }) else e }
    setSession (forgetRing s1 (.session tag)) tag { se with
      open_ := true, absent := se.slots.map slotAbsent, total := Vector.replicate 16 0#64
      ring := if se.open_ then { se.ring with widx := 0#64, ridx := 0#64 } else se.ring.start }

/-- SESSION_CLOSE: all counting stops (R332), and with it the sums of the phases under way (R335). -/
def execSessionClose (tag : Nat) (s : State) : Out :=
  .next (setSession (forgetSums s tag) tag { sessionAt s tag with open_ := false })

/-- TOTAL of a slot: an absent event's reads zero (R334). -/
def readTotal (se : Session) (i : Nat) : DWord :=
  if se.absent[i % 16]'(Nat.mod_lt _ (by decide)) then 0#64 else se.total[i % 16]'(Nat.mod_lt _ (by decide))

/-- A 32-bit read of the low half of TOTAL latches the high half in the core's SHADOW (R336). -/
def totalLow (s : State) (core tag i : Nat) : State :=
  let v := readTotal (sessionAt s tag) i
  replyBytes (setCore s core { coreAt s core with
    shValid := true, shTag := BitVec.ofNat 8 tag, shSlot := BitVec.ofNat 4 i, shHigh := v.extractLsb' 32 32 })
    (leBytes v.toNat 4)

/-- A 32-bit read of the high half of TOTAL returns the latched one where SHADOW matches, else the live one (R336). -/
def totalHigh (s : State) (core tag i : Nat) : State :=
  let c := coreAt s core
  if c.shValid && c.shTag == BitVec.ofNat 8 tag && c.shSlot == BitVec.ofNat 4 i then
    replyBytes (setCore s core { c with shValid := false }) (leBytes c.shHigh.toNat 4)
  else replyBytes s (leBytes ((readTotal (sessionAt s tag) i).extractLsb' 32 32).toNat 4)

/-- TOTAL_LOW_READ: a 32-bit read of the low half latches the high half in the core's SHADOW (R336). -/
def execTotalLowRead (core tag i : Nat) (s : State) : Out := .next (totalLow s core tag i)

/-- TOTAL_HIGH_READ: a 32-bit read of the high half returns the latched one where SHADOW matches, else the live one
(R336). -/
def execTotalHighRead (core tag i : Nat) (s : State) : Out := .next (totalHigh s core tag i)

/-! ## Rings and records -/

/-- A read of LOST returns the count and clears it (R330). -/
def readLost (s : State) (r : RingName) : State :=
  let g := ringOf s r
  replyBytes (setRing s r { g with lost := 0#32 }) (leBytes g.lost.toNat 8)

/-- LOST: a read returns the count and clears it (R330). -/
def execLost (r : RingName) (s : State) : Out := .next (readLost s r)

/-- RING_SOURCE_ENABLE: ENABLE of a die ring is written; turning on the first source of an idle ring zeroes its indices,
LOST and SEQ (R330). -/
def execRingSourceEnable (die : Nat) (val : DWord) (s : State) : Out :=
  .next <|
    let r := (dieAt s die).ring
    let on : BitVec 2 := val.extractLsb' 0 2
    let first := r.on == 0#2 && on != 0#2
    setRing (if first then forgetRing s (.die die) else s) (.die die) { (if first then r.start else r) with on := on }

/-- What a droop record holds of a tile: PC, GTID and the STATE word of a run of one (R340). -/
def droopTile (s : State) (t : Nat) : List Byte :=
  let r := runState s t
  leBytes r.2.1.toNat 8 ++ leBytes r.2.2.toNat 8 ++ leBytes (runWord t 1 r.1) 8


/-- DROOP: VH of a quad falls 30 mV or more; the lifetime records count it, and where the die asks for it a record is written,
at most one per 1 µs (R340). -/
def execDroop (q depth dur : Nat) (s : State) : Out :=
  .next <|
    if depth < 30 then s
    else
      let s1 := bumpLife s (.droop (wearOf s (pquadOf s q))) 1
      let die := dieOfCluster (q / 64)
      let d := quadAt s1 q
      let soon := match d.droopAt with
        | some c => decide (s1.clk < c + clkPerUs)
        | none => false
      if !(dieAt s1 die).ring.on.getLsbD 1 || soon then s1
      else
        let body := leBytes (tileAt q 0 + min depth 255 * 2 ^ 16 + min dur 65535 * 2 ^ 32) 8 ++ List.replicate 8 0#8 ++
          (upFrom 0 4).flatMap fun i => droopTile s1 (tileAt q i)
        ringPut (setQuad s1 q { d with droopAt := some s1.clk }) (.die die) 4 body s1.clk

/-- LIFETIME_COMMIT: the lifetime records go to non-volatile storage (R341). -/
def execLifetimeCommit (s : State) : Out := .next { s with lifeSaved := s.life }

end Sys2Proof.Machine
end

