-- ==== Sys2Proof/Machine/Reads.lean ====
section
/-! DEFINITION. What a Plaza core does at homes: its loads, stores, AMOs, LR/SC pairs and fences to edge memory and host memory
(R240, R255-R257), and its reads of the panel configuration space (R20, R289, R290, R310, R330, R332, R336, R337, R341). -/

namespace Sys2Proof.Machine

/-! ## Accesses of Plaza cores (R240, R257) -/

/-- Where `n` bytes from a physical address lie, if all of them lie in edge memory or in the host memory of one port. -/
def plazaPlace (pa n : Nat) : Phys :=
  match physOf pa with
  | .edge a => if a + n ≤ edgeTop then .edge a else .nowhere
  | .host q a => if a + n ≤ 2 ^ 48 then .host q a else .nowhere
  | .nowhere => .nowhere

/-- A request that reaches nothing, or that its target does not carry out. -/
def plazaRefused (s : State) : State := { s with reply := ⟨.unsupported, []⟩ }

/-- A request that stands at its home until hosts have given up the lines, and the writes held before it are done (R256). -/
def plazaHeld (s : State) (pa n : Nat) : State :=
  { (askLines s pa n) with reply := ⟨.held, []⟩ }

/-- Bytes stand in host memory, by a store that its port has yet to flush (R255). -/
def hostPut (s : State) (q a : Nat) (bs : List Byte) : State :=
  let p := portAt s q
  setPort { s with nextId := s.nextId + 1 } q { p with mem := memWrite p.mem a bs, unflushed := s.nextId :: p.unflushed }

/-- An error that a home finds for a Plaza core is counted (R341, R344). -/
def countError (s : State) (pa : Nat) : State := bumpLife s (.uncorrectable (unitOf s (.gl (.edge pa) 0#2))) 1

/-- A load: the bytes; an uncorrectable error is counted, and the manual says no more of it (log 112). -/
def plazaLoad (s : State) (pa n : Nat) : State :=
  match plazaPlace pa n with
  | .nowhere => plazaRefused s
  | .host q a => replyBytes s (memRead (portAt s q).mem a n)
  | .edge a =>
    if queuedAt s a n then plazaHeld s a n
    else replyBytes (if damaged s (.gl (.edge a) 0#2) n then countError s a else s) (memRead s.edge a n)

/-- A store. -/
def plazaStore (s : State) (pa : Nat) (bs : List Byte) : State :=
  match plazaPlace pa bs.length with
  | .nowhere => plazaRefused s
  | .host q a => { (hostPut s q a bs) with reply := ⟨.done, []⟩ }
  | .edge a =>
    if !homeHolds s .other a bs.length && badMerge s a bs.length then { (countError s a) with reply := ⟨.discarded, []⟩ }
    else { (edgeStore s a bs) with reply := ⟨.done, []⟩ }

/-- Earlier stores of Plaza cores that are performed later than they were made hold a release or a fence back: those at homes of
edge memory, and at .sy those to host memory (R255, R257). -/
def plazaPending (s : State) (sy : Bool) : Bool :=
  !s.homeQ.isEmpty || (sy && s.ports.any fun p => !p.2.unflushed.isEmpty)

/-- The AMOs of a RISC-V core, by the codes of Table 5-7: all but `sub` and the two on floating-point values (log 93). -/
def amoExists (op : BitVec 4) : Bool := op != 1#4 && op != 8#4 && op != 9#4 && op.toNat < 12

/-- An AMO: to host memory a FetchAdd or a Swap that its host completes (R150, R255). -/
def plazaAmo (s : State) (pa : Nat) (op : BitVec 4) (wide rl : Bool) (v : DWord) : State :=
  let n := if wide then 8 else 4
  let new (old : Nat) : List Byte := leBytes (atomNew op n old (v.toNat % 2 ^ (8 * n))) n
  if pa % n != 0 || !amoExists op then plazaRefused s
  else
    match plazaPlace pa n with
    | .nowhere => plazaRefused s
    | .host q a =>
      if rl && plazaPending s true then plazaHeld s pa 0
      else if (op == 0#4 || op == 7#4) && Config.hostCompletes s.freeIdx then
        let old := memRead (portAt s q).mem a n
        replyBytes (hostPut { s with freeIdx := s.freeIdx + 1 } q a (new (leNat old))) old
      else plazaRefused { s with freeIdx := s.freeIdx + 1 }
    | .edge a =>
      if (rl && plazaPending s false) || queuedAt s a n || (heldLine s a n).isSome then plazaHeld s a n
      else if damaged s (.gl (.edge a) 0#2) n then { (countError s a) with reply := ⟨.discarded, []⟩ }
      else
        let old := memRead s.edge a n
        replyBytes (edgePut s a (new (leNat old))) old

/-- A load-reserved: it reads, and its core holds a reservation of the bytes (log 93). -/
def plazaLr (s : State) (core pa : Nat) (wide : Bool) : State :=
  let n := if wide then 8 else 4
  if pa % n != 0 then plazaRefused s
  else
    match plazaPlace pa n with
    | .edge a =>
      if queuedAt s a n then plazaHeld s a n
      else replyBytes (setCore s core { coreAt s core with resv := some (a, n) }) (memRead s.edge a n)
    | _ => plazaRefused s

/-- A store-conditional: it stores and answers 0 while the reservation stands, else it answers 1; either way the reservation is gone
(log 93). -/
def plazaSc (s : State) (core pa : Nat) (wide rl : Bool) (v : DWord) : State :=
  let n := if wide then 8 else 4
  if pa % n != 0 then plazaRefused s
  else
    match plazaPlace pa n with
    | .edge a =>
      if (coreAt s core).resv != some (a, n) then
        replyBytes (setCore s core { coreAt s core with resv := none }) (leBytes 1 n)
      else if (rl && plazaPending s false) || queuedAt s a n || (heldLine s a n).isSome then plazaHeld s a n
      else if badMerge s a n then { (countError s a) with reply := ⟨.discarded, []⟩ }
      else
        let s1 := edgePut s a (leBytes v.toNat n)
        replyBytes (setCore s1 core { coreAt s1 core with resv := none }) (leBytes 0 n)
    | _ => plazaRefused s

/-- A `FENCE` ends once every earlier store is performed at .pn, or, with its I/O bits, at .sy (R257). -/
def plazaFence (s : State) (io : Bool) : State :=
  { s with reply := ⟨if plazaPending s io then .held else .done, []⟩ }

/-! ## Reads of the panel configuration space -/

/-- The value of CONTROL and of a SLOT of a session page (Table 25-4): reserved bits read zero. -/
def controlWord (se : Session) : DWord :=
  BitVec.ofNat 64 ((if se.open_ then 2 ^ 63 else 0) + se.sumbar.toNat * 2 ^ 32 + se.sper.toNat * 2 ^ 24)
def slotWord (se : Session) (i : Nat) : Word :=
  BitVec.ofNat 32 ((if se.absent[i % 16]'(Nat.mod_lt _ (by decide)) then 2 ^ 31 else 0) +
    (se.slots[i % 16]'(Nat.mod_lt _ (by decide))).toNat)

/-- The value of SHADOW (Table 25-5). -/
def shadowWord (c : Core_) : DWord :=
  BitVec.ofNat 64 ((if c.shValid then 2 ^ 63 else 0) + c.shTag.toNat * 2 ^ 40 + c.shSlot.toNat * 2 ^ 32 + c.shHigh.toNat)

/-- EVCAP: bit e is set when portable event e exists (R334). -/
def evcap : BitVec 256 := 0x3fffe#256

/-- A read that changes nothing, of the width that its register has; another width is refused (R290). -/
def readWord (s : State) (r : CfgRead) (n : Nat) (v : Nat) : State :=
  if r.width == n then replyBytes s (leBytes v n)
  else refuseAccess { s with reply := ⟨.discarded, []⟩ } r.core r.off .commandInvalid

/-- A read of a table of bytes: aligned, of 4 to 64 bytes, within the table (log 112). -/
def readTable (s : State) (r : CfgRead) (room : Nat) (bytes : List Byte) : State :=
  if (r.width == 4 || r.width == 8 || r.width == 16 || r.width == 32 || r.width == 64) && r.off % r.width == 0 && r.width ≤ room then
    replyBytes s (bytes.take r.width)
  else refuseAccess { s with reply := ⟨.discarded, []⟩ } r.core r.off .commandInvalid

/-- A read that a guest may not make reads zero and is refused as PRIVILEGE (R289, R290, R330). -/
def guestRead (s : State) (r : CfgRead) (go : State) : State :=
  if r.guest then refuseAccess (replyBytes s (List.replicate r.width 0#8)) r.core r.off .privilege else go

/-- A read with a side effect of a 64-bit register: another width is refused and has no effect. -/
def readOnce (s : State) (r : CfgRead) (go : State) : State :=
  if r.width == 8 then go else refuseAccess { s with reply := ⟨.discarded, []⟩ } r.core r.off .commandInvalid

/-- A read at an offset without a register, or of one that only takes writes: it is discarded and reads zero (log 112). -/
def readNothing (s : State) (r : CfgRead) : State := { s with reply := ⟨.discarded, List.replicate r.width 0#8⟩ }

/-- A ring's registers RBASE, RSIZE, WIDX, RIDX and LOST in this order (R330). -/
def readRing (s : State) (r : CfgRead) (n : RingName) (i : Nat) : State :=
  let g := ringOf s n
  match i with
  | 0 => readWord s r 8 g.base.toNat
  | 1 => readWord s r 8 g.size.toNat
  | 2 => readWord s r 8 (widxOf s n).toNat
  | 3 => readWord s r 8 g.ridx.toNat
  | _ => readOnce s r (readLost s n)

/-- The panel block of a die (Table 21-8). -/
def readBlock (s : State) (r : CfgRead) (die off : Nat) : State :=
  let d := dieAt s die
  let w : BlockAccess := ⟨r.core, r.guest, die, r.width, 0#64⟩
  match off with
  | 0x00 => readWord s r 8 d.fpbase.toNat
  | 0x08 => readWord s r 8 d.fpsize.toNat
  | 0x18 => readWord s r 8 d.fp.length
  | 0x20 => readFpovf s w
  | 0x60 => readWord s r 8 d.resolve0.toNat
  | 0x80 => readWord s r 8 (min d.mailbox.length 256)
  | 0x100 => readMbpop s w
  | _ => readNothing s r

/-- A session page (Table 25-3): TOTAL is read whole, or in halves of 32 bits (R336). -/
def readSession (s : State) (r : CfgRead) (tag off : Nat) : State :=
  let se := sessionAt s tag
  if off == 0 then readWord s r 8 (controlWord se).toNat
  else if off % 8 == 0 && off ≤ 0x28 then readRing s r (.session tag) (off / 8 - 1)
  else if 0x40 ≤ off && off < 0x80 && off % 4 == 0 then readWord s r 4 (slotWord se ((off - 0x40) / 4)).toNat
  else if 0x100 ≤ off && off < 0x180 && off % 4 == 0 then
    let i := (off - 0x100) / 8
    if off % 8 == 0 then
      if r.width == 4 then totalLow s r.core tag i else readWord s r 8 (readTotal se i).toNat
    else if r.width == 4 then totalHigh s r.core tag i
    else readWord s r 4 0
  else readNothing s r

/-- A read at an offset of the panel configuration space (R20, R266, R289, R290, R310, R330, R332). -/
def readConfig (s : State) (r : CfgRead) : State :=
  let o := r.off
  if 0x100 ≤ o && o < 0x110 then readTable s r (0x110 - o) ((leBytes capability.toNat 16).drop (o - 0x100))
  else if 0x140 ≤ o && o < 0x160 then readTable s r (0x160 - o) ((leBytes evcap.toNat 32).drop (o - 0x140))
  else if 0x1000 ≤ o && o < 0x1100 && o % 4 == 0 then readWord s r 4 (dieEntry (dieAt s ((o - 0x1000) / 4)))
  else if 0x10000 ≤ o && o < 0x20000 && o % 4 == 0 then readWord s r 4 (quadEntry (quadAt s ((o - 0x10000) / 4)))
  else if 0x20000 ≤ o && o < 0x21000 && o % 8 == 0 then readOnce s r (readSubmission s ((o - 0x20000) / 8))
  else if 0x21000 ≤ o && o < 0x22000 && o % 8 == 0 then readOnce s r (readAccessStatus s ((o - 0x21000) / 8))
  else if 0x30000 ≤ o && o < 0x31000 && o % 8 == 0 then
    guestRead s r (readWord s r 8 (shadowWord (coreAt s ((o - 0x30000) / 8))).toNat)
  else if 0x200000 ≤ o && o < 0x201000 && o % 8 == 0 && (o - 0x200000) % 0x40 ≤ 0x28 then
    let die := (o - 0x200000) / 0x40
    let i := (o - 0x200000) % 0x40 / 8
    if i == 5 then readWord s r 8 (dieAt s die).ring.on.toNat else readRing s r (.die die) i
  else if o == 0x201000 then readWord s r 8 (if s.pulse.todo.isEmpty then 0 else 1)
  else if 0x400000 ≤ o && o < 0x800000 then readTable s r 64 (lifeBytes s (o - 0x400000) 64)
  else if 0x800000 ≤ o && o < 0x840000 then guestRead s r (readBlock s r ((o - 0x800000) / 0x1000) ((o - 0x800000) % 0x1000))
  else if 0x1000000 ≤ o && o < 0x1100000 then readSession s r ((o - 0x1000000) / 0x1000) ((o - 0x1000000) % 0x1000)
  else readNothing s r

/-- HOME_ACCESS: a home performs one access of a tile or of a Plaza core (R240, R241, R257), or a core reads a configuration
register. -/
def execHomeAccess (r : HomeReq) (s : State) : Out :=
  .next <| match r with
    | .tile id => homeTile s id
    | .plazaLoad _ pa n => plazaLoad s pa n
    | .plazaStore _ pa bs => plazaStore s pa bs
    | .plazaAmo _ pa op wide rl v => plazaAmo s pa op wide rl v
    | .plazaLr c pa wide => plazaLr s c pa wide
    | .plazaSc c pa wide rl v => plazaSc s c pa wide rl v
    | .plazaFence _ io => plazaFence s io
    | .configRead r => readConfig s r

end Sys2Proof.Machine
end

