-- ==== Sys2Proof/Machine/Issue.lean ====
section
/-! DEFINITION. The turns of a tile's two sides: how a bundle is fetched, checked, pushed and carried out (R47-R49, R54-R56,
R69, R86, R285, R294, R295), and how the head of the X instruction queue runs (R49, R68, R70). `ex` stands for `exec`.
The last part is the model's own: the policy when the agenda is empty, and the ranges of what an event names. -/

namespace Sys2Proof.Machine

/-! ## Before a bundle issues -/

/-- The access side of the tile may issue: a task runs, no halt holds it, its replayed accesses are done, and no queue that must
take a record or an entry is full (R70, R135, R288, R292, R295). -/
def mayIssue (s : State) (t : Nat) : Bool :=
  let tl := tileOf s t
  tl.run == .running && haltAllows tl && !replaying s t && !replayFull s t && !(tl.halt == .held true && recordsFull s t)

/-- The lowest breakpoint of a tile's launch that matches the bundle (R294). -/
def breakAt (s : State) (t : Nat) : Option Nat :=
  let k := (tileOf s t).task
  match launchAt s t with
  | some (_, l) =>
    if k.skipbp then none
    else (upFrom 0 16).find? fun i =>
      let b := l.brks[i % 16]'(Nat.mod_lt _ (by decide))
      b.on && pcBits b.addr == pcBits k.pc && (k.gtid ^^^ b.gtid) &&& b.mask == 0#64
  | none => none

/-- The acting bundle of a tile: its PC, its EXT, the guard slot that its X word opens. -/
def curA (s : State) (t : Nat) (ext : Word) (opened : Nat) : State :=
  { s with
    cur := { tile := t, pc := (tileOf s t).task.pc, ext := ext, opened := opened, pushed := false, went := false, ha := false, hb := false } }

/-- STEP is raised at the next bundle, where neither a breakpoint nor ILLEGAL_ENCODING comes first (R285, R294), once the stepped bundle's X instructions have completed (R295). -/
def stepTrap (s : State) (t : Nat) : State :=
  let k := (tileOf s t).task
  if k.xinstr.isEmpty then
    takeTrap s t
      { code := .step, xside := false, precise := true, info := 0#8, pc := k.pc, apc := k.pc, arg0 := 0#64, arg1 := 0#64,
        arg2 := 0#64, rpc := k.pc, xpushed := k.xpushed }
  else s

/-! ## Pushing the X instruction (R49, R55) -/

/-- The X instruction of a bundle with its EXT and hold bits; a lone A bundle has none. -/
def xPart (b : Bundle) : Option (Instr × Word × Bool × Bool) :=
  match b with
  | .paired ha hb _ x => some (x, 0#32, ha, hb)
  | .loneA _ _ => none
  | .loneX x ext => some (x, ext, false, false)

/-- The guard slot that an X instruction opens a generation of; 0 for none. -/
def opensSlot (i : Instr) : Nat :=
  match i with
  | .gset f => f.s.toNat % 8
  | _ => 0

/-- The slot that a bundle's X word opens. -/
def opensOf (b : Bundle) : Nat :=
  match xPart b with
  | some (x, _) => opensSlot x
  | none => 0

/-- What becomes of the push. -/
inductive Pushed where
  /-- The bundle does not issue now. -/
  | no (s : State)
  | yes (s : State)

/-- Pushes the X instruction of the acting bundle: not onto a full queue, and not where its `gset` would open a ninth
unresolved generation (R49, R55 item 9). -/
def pushX (s : State) (t : Nat) (x : Instr) (ext : Word) (ha hb : Bool) : Pushed :=
  let k := (tileOf s t).task
  let n := opensSlot x
  let g := k.gd[n % 8]'(Nat.mod_lt _ (by decide))
  if 16 ≤ k.slip then .no (noteCause (markWait s t 3) t 1)
  else if n != 0 && 8 ≤ unresolved g then .no (noteCause (markWait s t 4) t 4)
  else
    let e : XEntry := ⟨x, ext, ha, hb, k.pc⟩
    let gd := if n == 0 then k.gd else k.gd.set (n % 8) g.openGen (Nat.mod_lt _ (by decide))
    .yes { setTask s t { k with xinstr := k.xinstr ++ [e], gd := gd } with cur := { s.cur with pushed := true } }

/-! ## One bundle -/

/-- The A word of a bundle; a lone X bundle has none and is complete once pushed. -/
def runA (ex : Instr → State → Out) (s : State) (b : Bundle) : Out :=
  match b with
  | .paired _ _ a _ => ex a s
  | .loneA a _ => ex a s
  | .loneX _ _ => .next (finish s)

/-- EXT of the A word of a bundle. -/
def extOfA (b : Bundle) : Word :=
  match b with
  | .loneA _ ext => ext
  | _ => 0#32

/-- Issues a decoded bundle: the X instruction is pushed, unless it has been already, and then the A word acts (R49,
R69). -/
def issueBundle (ex : Instr → State → Out) (s : State) (t : Nat) (b : Bundle) : Out :=
  let s1 := curA s t (extOfA b) (opensOf b)
  if (tileOf s t).task.xpushed then runA ex s1 b
  else
    match xPart b with
    | none => runA ex s1 b
    | some (x, ext, ha, hb) =>
      match pushX s1 t x ext ha hb with
      | .no s2 => .next s2
      | .yes s2 => runA ex s2 b

/-- The bundle at the PC: a breakpoint first, then the fetch, then the static checks, then STEP of a stepped task, then the bundle
itself (R47, R86, R285, R294, R295). STEP comes before a fault of the fetch, which the manual does not rank (log 105). -/
def issueAt (ex : Instr → State → Out) (s : State) (t : Nat) : Out :=
  let k := (tileOf s t).task
  let here := curA s t 0#32 0
  match breakAt s t with
  | some i => .next (preciseTrapInfo here .brk (BitVec.ofNat 8 i) 0#64 0#64)
  | none =>
    match fetchBundle (tileOf s t) k.pc with
    | .missing => .next s
    | .bad c =>
      if k.stepping == .issued then .next (stepTrap s t)
      else .next (preciseTrap (setTile here t { tileOf here t with badFetch := none }) c k.pc 0#64)
    | .words w0 w1 =>
      match decodeWords w0 w1 with
      | .ok b => if k.stepping == .issued then .next (stepTrap s t) else issueBundle ex s t b
      | .error _ => .next (preciseTrap here .illegalEncoding 0#64 0#64)

/-- A tile of a halted cohort that was to issue one bundle halts again: a HALTED record with INFO 1 names where it stands,
unless the bundle trapped (R295). -/
def afterSingle (s : State) (t : Nat) : State :=
  let tl := tileOf s t
  if tl.halt != .held true then s
  else
    match tl.run with
    | .stopping _ => setTile s t { tl with halt := .held false }
    | .running =>
      if s.cur.went then
        let s1 := setTile s t { tl with halt := .held false }
        queueRecord s1 t (haltedRecord s1 t 1#8 tl.task.gtid tl.task.pc)
      else s
    | .idle =>
      if s.cur.went then
        let s1 := setTile s t { tl with halt := .held false }
        queueRecord s1 t (haltedRecord s1 t 1#8 0#64 0#64)
      else s

/-- What follows a bundle of a stepped tile. -/
def afterAccess (o : Out) (t : Nat) : Out :=
  match o with
  | .next s => .next (afterSingle s t)
  | .fault f => .fault f
  | .refused r => .refused r

/-- The access side's turn (R49, R68). -/
def accessTurn (ex : Instr → State → Out) (t : Nat) (s0 : State) : Out :=
  let s := clearWaits s0 t [3, 4]
  if !mayIssue s t then .next s
  else afterAccess (issueAt ex { s with cur := { s.cur with went := false } } t) t

/-! ## The execute side (R49, R68-R70) -/

/-- The execute side goes on: under a task that runs, or to complete what comes before an access-side trap (R69). -/
def executes (tl : Tile) : Bool :=
  match tl.run with
  | .running => true
  | .stopping i => !i.xside
  | .idle => false

/-- A halt under which a trap of the execute side is put off until the tile goes on (R298). -/
def putsOff (tl : Tile) : Bool := !haltAllows tl

/-- The tile's task has been stopped by this X instruction. -/
def xStopped (before after : Tile) : Bool :=
  match after.run with
  | .stopping i => i.xside && !(match before.run with
      | .stopping j => j.xside
      | _ => false)
  | _ => false

/-- An X instruction that has not completed waits outside the queue, which it has left (R49). -/
def markBusy (before : Tile) (s : State) (t : Nat) : State :=
  let k := (tileOf s t).task
  if k.xinstr.length == before.task.xinstr.length then setTask s t { k with xbusy := true } else s

/-- The outcome of an X instruction, unless it would raise a trap under a halt: then it is run again after it (R298). -/
def afterExecute (o : Out) (t : Nat) (s : State) : Out :=
  match o with
  | .next s1 => .next (if putsOff (tileOf s t) && xStopped (tileOf s t) (tileOf s1 t) then s else markBusy (tileOf s t) s1 t)
  | .fault f => .fault f
  | .refused r => .refused r

/-- The execute side's turn: the head of the X instruction queue runs, or waits (R49). -/
def executeTurn (ex : Instr → State → Out) (t : Nat) (s0 : State) : Out :=
  let s := clearWaits s0 t [5]
  let tl := tileOf s t
  match tl.task.xinstr with
  | x :: _ => if executes tl && !replaying s t then afterExecute (ex x.x (curX s t x)) t s else .next s
  | [] => .next s

/-! ## MODEL: the policy of an empty agenda, and the ranges of events -/

/-- What the policy chooses: a side of a tile, or one of the steps that bring work back to a tile. -/
inductive Auto where
  | access (t : Nat)
  | execute (t : Nat)
  | response (id : Nat)
  | descriptor (t n : Nat)
  | home (id : Nat)
  | walk (die tag va : Nat)
  | line (t : Nat) (base : DWord)
  | frame (t : Nat)
  | record (t : Nat)
  | select (t : Nat)
  deriving DecidableEq, Repr

/-- What may come back to a tile: a response, an access that its home can perform, a walk that an access waits for. -/
def autoAccess (s : State) : Option Auto :=
  s.accs.findSome? fun a =>
    match a.res with
    | some _ =>
      match a.dest with
      | .tensor n => some (.descriptor a.tile n.toNat)
      | _ => some (.response a.id)
    | none =>
      if !mayPerform s a then none
      else
        match reach s a with
        | .walking => some (.walk (dieOf a.tile) (tagOf s a.tile) (glVa s a).toNat)
        | .at p => if stillWaits s a p then none else some (.home a.id)
        | .faults _ => some (.home a.id)

/-- What a tile does next: its trap, its records, its code line, one of its sides. -/
def autoTile (s : State) (t : Nat) (execute : Bool) : Auto :=
  let tl := tileOf s t
  match tl.run with
  | .stopping i => if frameReady s t i then .frame t else .execute t
  | .idle => if tl.records.isEmpty then .select t else .record t
  | .running =>
    let base := BitVec.ofNat 64 (lineOf tl.task.pc)
    if execute then .execute t
    else if tl.lines.any fun l => l.base == base.toNat then .access t
    else if (tlbFind s (dieOf t) (tagOf s t) base).isSome then .line t base
    else .walk (dieOf t) (tagOf s t) base.toNat

/-- The policy of an empty agenda: accesses first, then the tiles in turn, each side in turn. -/
def autoAct (s : State) : Option Auto :=
  match autoAccess s with
  | some a => some a
  | none => (s.tiles[s.clk / 2 % s.tiles.length]?).map fun e => autoTile s e.1 (s.clk % 2 == 0)

/-- Carries out what the policy chose. -/
def runAuto (ex : Instr → State → Out) (a : Auto) (s : State) : Out :=
  match a with
  | .access t => accessTurn ex t s
  | .execute t => executeTurn ex t s
  | .response id => execAccessResponse id s
  | .descriptor t n => execTdefDescriptorArrival t n s
  | .home id => execHomeAccess (.tile id) s
  | .walk d g va => execPageWalk d g va s
  | .line t base => execFetchLineFill t base s
  | .frame t => execFrameWrite t s
  | .record t => execTrapRecordDelivery t s
  | .select t => execTaskSelect t s

/-- A tile, die, cluster, quad, physical quad, core. -/
def isTile (t : Nat) : Bool := t < 65536
def isDie (d : Nat) : Bool := d < 64
def isCluster (c : Nat) : Bool := c < 256
def isQuad (q : Nat) : Bool := q < 16384
def isPQuad (p : Nat) : Bool := p < 18432
def isCore (c : Nat) : Bool := c < 512

/-- A page of a host port (Table 23-1). -/
def slotOk (w : SlotWrite) : Bool := w.port < 4 && w.page < 16384

/-- What an event names exists: tiles, dies, clusters, quads, cores and region tags within the panel. -/
def eventOk (i : Instr) : Bool :=
  match i with
  | .fetchLineFill t _ | .replayQueueFull t | .matrixCommandComplete t | .ringwayForwardLanding t | .engineReply t
  | .ringValueArrival t | .taskSelect t | .stealLanding t | .stealRetry t | .frameWrite t | .trapRecordDelivery t
  | .preemptionHalt t | .batchChunkClaim t | .sampleLatch t | .taggedSampleMark t => isTile t
  | .tdefDescriptorArrival t _ | .copyComplete t _ | .streamDataArrival t _ _ _ | .endOfStreamToken t _ _
  | .quadUnitCommand t _ | .joinReread t _ | .taggedSampleRecord t _ => isTile t
  | .stealClaim t v => isTile t && isTile v
  | .resume r | .step r | .endTask r | .endLaunch r => isDie r.die && isCore r.core
  | .fppush w | .fpovf w | .mbpop w | .preempt w | .restore w => isDie w.die && isCore w.core
  | .panelAccessStatus c | .submissionStatus c | .pulse c _ => isCore c
  | .cardSubmission w => slotOk w
  | .plazaSubmission c w => isCore c && slotOk w
  | .registerWrite w => isCore w.core
  | .thermalMigration q | .migrationComplete q | .operatingPointChange q | .droop q _ _ => isQuad q
  | .sensorSample p _ => isPQuad p
  | .boostClaim c | .boostPermitInterval c | .boostFall c | .boostPermitRefill c | .burstEnd c | .cohortDispatch c
  | .ticketSteal c _ | .snapshotRecord c => isCluster c
  | .tokenCirculation d | .gatewayInvalidation d _ _ | .pageWalk d _ _ | .ringSourceEnable d _ => isDie d
  | .sessionOpen g | .sessionClose g => g < 256
  | .totalLowRead c g i | .totalHighRead c g i => isCore c && g < 256 && i < 16
  | .lost r =>
    match r with
    | .die d => isDie d
    | .session g => g < 256
  | .flushingReadCompletion p | .msiXUnmask p _ => p < 4
  | .inboxDelivery r =>
    match r with
    | .plaza t _ _ | .engine t _ _ _ => isTile t
    | .tagZero d _ => isDie d
    | .net _ => true
  | .hostBar4Access r => (bar4Span r).1 < 4
  | .homeAccess r =>
    match r with
    | .tile _ => true
    | .plazaLoad c _ _ | .plazaStore c _ _ | .plazaAmo c .. | .plazaLr c .. | .plazaSc c .. | .plazaFence c _ => isCore c
    | .configRead r => isCore r.core
  | _ => true

end Sys2Proof.Machine
end

