-- ==== Sys2Proof/Machine/Dispatch.lean ====
section
/-! DEFINITION. One arm per instruction and step of the opcode table. -/

namespace Sys2Proof.Machine

def exec (i : Instr) (s : State) : Host.Outcome State Fault Refusal :=
  match i with
  | .nopA => Sys2Proof.Machine.execNopA s
  | .hintA f => Sys2Proof.Machine.execHintA f s
  | .jmp f => Sys2Proof.Machine.execJmp f s
  | .call f => Sys2Proof.Machine.execCall f s
  | .jr f => Sys2Proof.Machine.execJr f s
  | .callr f => Sys2Proof.Machine.execCallr f s
  | .beq f => Sys2Proof.Machine.execBeq f s
  | .bne f => Sys2Proof.Machine.execBne f s
  | .blt f => Sys2Proof.Machine.execBlt f s
  | .bge f => Sys2Proof.Machine.execBge f s
  | .bltu f => Sys2Proof.Machine.execBltu f s
  | .bgeu f => Sys2Proof.Machine.execBgeu f s
  | .bxz f => Sys2Proof.Machine.execBxz f s
  | .bxnz f => Sys2Proof.Machine.execBxnz f s
  | .bxlt f => Sys2Proof.Machine.execBxlt f s
  | .bxge f => Sys2Proof.Machine.execBxge f s
  | .bgd f => Sys2Proof.Machine.execBgd f s
  | .bngd f => Sys2Proof.Machine.execBngd f s
  | .loop f => Sys2Proof.Machine.execLoop f s
  | .aadd f => Sys2Proof.Machine.execAadd f s
  | .asub f => Sys2Proof.Machine.execAsub f s
  | .aand f => Sys2Proof.Machine.execAand f s
  | .aor f => Sys2Proof.Machine.execAor f s
  | .axor f => Sys2Proof.Machine.execAxor f s
  | .ashl f => Sys2Proof.Machine.execAshl f s
  | .ashr f => Sys2Proof.Machine.execAshr f s
  | .asra f => Sys2Proof.Machine.execAsra f s
  | .amul f => Sys2Proof.Machine.execAmul f s
  | .apeer f => Sys2Proof.Machine.execApeer f s
  | .aaddi f => Sys2Proof.Machine.execAaddi f s
  | .aandi f => Sys2Proof.Machine.execAandi f s
  | .aori f => Sys2Proof.Machine.execAori f s
  | .axori f => Sys2Proof.Machine.execAxori f s
  | .ashli f => Sys2Proof.Machine.execAshli f s
  | .ashri f => Sys2Proof.Machine.execAshri f s
  | .asrai f => Sys2Proof.Machine.execAsrai f s
  | .ali f => Sys2Proof.Machine.execAli f s
  | .alh f => Sys2Proof.Machine.execAlh f s
  | .ldSp f => Sys2Proof.Machine.execLdSp f s
  | .ldPr f => Sys2Proof.Machine.execLdPr f s
  | .ldQl f => Sys2Proof.Machine.execLdQl f s
  | .ldGl f => Sys2Proof.Machine.execLdGl f s
  | .stSp f => Sys2Proof.Machine.execStSp f s
  | .stPr f => Sys2Proof.Machine.execStPr f s
  | .stQl f => Sys2Proof.Machine.execStQl f s
  | .stGl f => Sys2Proof.Machine.execStGl f s
  | .atomSp f => Sys2Proof.Machine.execAtomSp f s
  | .atomPr f => Sys2Proof.Machine.execAtomPr f s
  | .atomGl f => Sys2Proof.Machine.execAtomGl f s
  | .casSp f => Sys2Proof.Machine.execCasSp f s
  | .casPr f => Sys2Proof.Machine.execCasPr f s
  | .casGl f => Sys2Proof.Machine.execCasGl f s
  | .prefGl f => Sys2Proof.Machine.execPrefGl f s
  | .prefQl f => Sys2Proof.Machine.execPrefQl f s
  | .tdef f => Sys2Proof.Machine.execTdef f s
  | .tinv f => Sys2Proof.Machine.execTinv f s
  | .tinvAll => Sys2Proof.Machine.execTinvAll s
  | .mmz f => Sys2Proof.Machine.execMmz f s
  | .mma f => Sys2Proof.Machine.execMma f s
  | .mmaBl f => Sys2Proof.Machine.execMmaBl f s
  | .mmaR f => Sys2Proof.Machine.execMmaR f s
  | .mld f => Sys2Proof.Machine.execMld f s
  | .mldBl f => Sys2Proof.Machine.execMldBl f s
  | .mst f => Sys2Proof.Machine.execMst f s
  | .cpy f => Sys2Proof.Machine.execCpy f s
  | .cpyG f => Sys2Proof.Machine.execCpyG f s
  | .cpyS f => Sys2Proof.Machine.execCpyS f s
  | .cpyT f => Sys2Proof.Machine.execCpyT f s
  | .cpyM f => Sys2Proof.Machine.execCpyM f s
  | .cpyMma f => Sys2Proof.Machine.execCpyMma f s
  | .strm f => Sys2Proof.Machine.execStrm f s
  | .drain f => Sys2Proof.Machine.execDrain f s
  | .chain f => Sys2Proof.Machine.execChain f s
  | .ksend f => Sys2Proof.Machine.execKsend f s
  | .kbinAdd f => Sys2Proof.Machine.execKbinAdd f s
  | .kbinApp f => Sys2Proof.Machine.execKbinApp f s
  | .kbinOff => Sys2Proof.Machine.execKbinOff s
  | .coll f => Sys2Proof.Machine.execColl f s
  | .collRed f => Sys2Proof.Machine.execCollRed f s
  | .engK f => Sys2Proof.Machine.execEngK f s
  | .engGo f => Sys2Proof.Machine.execEngGo f s
  | .spawn f => Sys2Proof.Machine.execSpawn f s
  | .forkBr f => Sys2Proof.Machine.execForkBr f s
  | .join f => Sys2Proof.Machine.execJoin f s
  | .jdec f => Sys2Proof.Machine.execJdec f s
  | .suspend => Sys2Proof.Machine.execSuspend s
  | .yield => Sys2Proof.Machine.execYield s
  | .exit => Sys2Proof.Machine.execExit s
  | .send f => Sys2Proof.Machine.execSend f s
  | .sendEos f => Sys2Proof.Machine.execSendEos f s
  | .put f => Sys2Proof.Machine.execPut f s
  | .putX f => Sys2Proof.Machine.execPutX f s
  | .wfm => Sys2Proof.Machine.execWfm s
  | .nbarInit f => Sys2Proof.Machine.execNbarInit f s
  | .nbarArr f => Sys2Proof.Machine.execNbarArr f s
  | .nbarWt f => Sys2Proof.Machine.execNbarWt f s
  | .nbarTx f => Sys2Proof.Machine.execNbarTx f s
  | .fence f => Sys2Proof.Machine.execFence f s
  | .stv f => Sys2Proof.Machine.execStv f s
  | .ldv f => Sys2Proof.Machine.execLdv f s
  | .ldvS f => Sys2Proof.Machine.execLdvS f s
  | .vrcl f => Sys2Proof.Machine.execVrcl f s
  | .sys f => Sys2Proof.Machine.execSys f s
  | .trap f => Sys2Proof.Machine.execTrap f s
  | .brk f => Sys2Proof.Machine.execBrk f s
  | .rdcr f => Sys2Proof.Machine.execRdcr f s
  | .wrcr f => Sys2Proof.Machine.execWrcr f s
  | .halt => Sys2Proof.Machine.execHalt s
  | .nopX => Sys2Proof.Machine.execNopX s
  | .hintX f => Sys2Proof.Machine.execHintX f s
  | .vmode f => Sys2Proof.Machine.execVmode f s
  | .gset f => Sys2Proof.Machine.execGset f s
  | .plog f => Sys2Proof.Machine.execPlog f s
  | .sel f => Sys2Proof.Machine.execSel f s
  | .add f => Sys2Proof.Machine.execAdd f s
  | .sub f => Sys2Proof.Machine.execSub f s
  | .addsI32 f => Sys2Proof.Machine.execAddsI32 f s
  | .addsN32 f => Sys2Proof.Machine.execAddsN32 f s
  | .subsI32 f => Sys2Proof.Machine.execSubsI32 f s
  | .subsN32 f => Sys2Proof.Machine.execSubsN32 f s
  | .mul f => Sys2Proof.Machine.execMul f s
  | .mulhI32 f => Sys2Proof.Machine.execMulhI32 f s
  | .mulhN32 f => Sys2Proof.Machine.execMulhN32 f s
  | .divI32 f => Sys2Proof.Machine.execDivI32 f s
  | .divN32 f => Sys2Proof.Machine.execDivN32 f s
  | .remI32 f => Sys2Proof.Machine.execRemI32 f s
  | .remN32 f => Sys2Proof.Machine.execRemN32 f s
  | .minI32 f => Sys2Proof.Machine.execMinI32 f s
  | .minN32 f => Sys2Proof.Machine.execMinN32 f s
  | .maxI32 f => Sys2Proof.Machine.execMaxI32 f s
  | .maxN32 f => Sys2Proof.Machine.execMaxN32 f s
  | .and f => Sys2Proof.Machine.execAnd f s
  | .or f => Sys2Proof.Machine.execOr f s
  | .xor f => Sys2Proof.Machine.execXor f s
  | .andn f => Sys2Proof.Machine.execAndn f s
  | .shl f => Sys2Proof.Machine.execShl f s
  | .shr f => Sys2Proof.Machine.execShr f s
  | .sra f => Sys2Proof.Machine.execSra f s
  | .rol f => Sys2Proof.Machine.execRol f s
  | .clz f => Sys2Proof.Machine.execClz f s
  | .ctz f => Sys2Proof.Machine.execCtz f s
  | .popc f => Sys2Proof.Machine.execPopc f s
  | .bfx f => Sys2Proof.Machine.execBfx f s
  | .bfi f => Sys2Proof.Machine.execBfi f s
  | .addc f => Sys2Proof.Machine.execAddc f s
  | .subc f => Sys2Proof.Machine.execSubc f s
  | .addi f => Sys2Proof.Machine.execAddi f s
  | .andi f => Sys2Proof.Machine.execAndi f s
  | .ori f => Sys2Proof.Machine.execOri f s
  | .xori f => Sys2Proof.Machine.execXori f s
  | .shli f => Sys2Proof.Machine.execShli f s
  | .shri f => Sys2Proof.Machine.execShri f s
  | .srai f => Sys2Proof.Machine.execSrai f s
  | .li f => Sys2Proof.Machine.execLi f s
  | .cmpI32 f => Sys2Proof.Machine.execCmpI32 f s
  | .cmpN32 f => Sys2Proof.Machine.execCmpN32 f s
  | .cmpF32 f => Sys2Proof.Machine.execCmpF32 f s
  | .addF32 f => Sys2Proof.Machine.execAddF32 f s
  | .subF32 f => Sys2Proof.Machine.execSubF32 f s
  | .mulF32 f => Sys2Proof.Machine.execMulF32 f s
  | .fmaF32 f => Sys2Proof.Machine.execFmaF32 f s
  | .fmsF32 f => Sys2Proof.Machine.execFmsF32 f s
  | .fnmaF32 f => Sys2Proof.Machine.execFnmaF32 f s
  | .fnmsF32 f => Sys2Proof.Machine.execFnmsF32 f s
  | .minF32 f => Sys2Proof.Machine.execMinF32 f s
  | .maxF32 f => Sys2Proof.Machine.execMaxF32 f s
  | .absF32 f => Sys2Proof.Machine.execAbsF32 f s
  | .negF32 f => Sys2Proof.Machine.execNegF32 f s
  | .rcpF32 f => Sys2Proof.Machine.execRcpF32 f s
  | .sqrtF32 f => Sys2Proof.Machine.execSqrtF32 f s
  | .rsqF32 f => Sys2Proof.Machine.execRsqF32 f s
  | .ex2F32 f => Sys2Proof.Machine.execEx2F32 f s
  | .lg2F32 f => Sys2Proof.Machine.execLg2F32 f s
  | .tanhF32 f => Sys2Proof.Machine.execTanhF32 f s
  | .cvt f => Sys2Proof.Machine.execCvt f s
  | .vaddF32 f => Sys2Proof.Machine.execVaddF32 f s
  | .vsubF32 f => Sys2Proof.Machine.execVsubF32 f s
  | .vmulF32 f => Sys2Proof.Machine.execVmulF32 f s
  | .vfmaF32 f => Sys2Proof.Machine.execVfmaF32 f s
  | .vminF32 f => Sys2Proof.Machine.execVminF32 f s
  | .vmaxF32 f => Sys2Proof.Machine.execVmaxF32 f s
  | .vaddI32 f => Sys2Proof.Machine.execVaddI32 f s
  | .vsubI32 f => Sys2Proof.Machine.execVsubI32 f s
  | .vmulI32 f => Sys2Proof.Machine.execVmulI32 f s
  | .vand f => Sys2Proof.Machine.execVand f s
  | .vor f => Sys2Proof.Machine.execVor f s
  | .vxor f => Sys2Proof.Machine.execVxor f s
  | .vshl f => Sys2Proof.Machine.execVshl f s
  | .vshr f => Sys2Proof.Machine.execVshr f s
  | .vsra f => Sys2Proof.Machine.execVsra f s
  | .vperm f => Sys2Proof.Machine.execVperm f s
  | .vbcast f => Sys2Proof.Machine.execVbcast f s
  | .vext f => Sys2Proof.Machine.execVext f s
  | .vins f => Sys2Proof.Machine.execVins f s
  | .vredAddF32 f => Sys2Proof.Machine.execVredAddF32 f s
  | .vredMaxF32 f => Sys2Proof.Machine.execVredMaxF32 f s
  | .vredAddI32 f => Sys2Proof.Machine.execVredAddI32 f s
  | .vredqF32 f => Sys2Proof.Machine.execVredqF32 f s
  | .vcvt f => Sys2Proof.Machine.execVcvt f s
  | .waddF32 f => Sys2Proof.Machine.execWaddF32 f s
  | .wsubF32 f => Sys2Proof.Machine.execWsubF32 f s
  | .wmulF32 f => Sys2Proof.Machine.execWmulF32 f s
  | .wfmaF32 f => Sys2Proof.Machine.execWfmaF32 f s
  | .wminF32 f => Sys2Proof.Machine.execWminF32 f s
  | .wmaxF32 f => Sys2Proof.Machine.execWmaxF32 f s
  | .wbcastF32 f => Sys2Proof.Machine.execWbcastF32 f s
  | .wins f => Sys2Proof.Machine.execWins f s
  | .wext f => Sys2Proof.Machine.execWext f s
  | .wredAddF32 f => Sys2Proof.Machine.execWredAddF32 f s
  | .wredMaxF32 f => Sys2Proof.Machine.execWredMaxF32 f s
  | .fetchLineFill t base => Sys2Proof.Machine.execFetchLineFill t base s
  | .accessResponse id => Sys2Proof.Machine.execAccessResponse id s
  | .homeAccess r => Sys2Proof.Machine.execHomeAccess r s
  | .replayQueueFull t => Sys2Proof.Machine.execReplayQueueFull t s
  | .tdefDescriptorArrival t n => Sys2Proof.Machine.execTdefDescriptorArrival t n s
  | .matrixCommandComplete t => Sys2Proof.Machine.execMatrixCommandComplete t s
  | .ringwayForwardLanding t => Sys2Proof.Machine.execRingwayForwardLanding t s
  | .copyComplete t i0 => Sys2Proof.Machine.execCopyComplete t i0 s
  | .streamDataArrival t i0 prod bytes => Sys2Proof.Machine.execStreamDataArrival t i0 prod bytes s
  | .endOfStreamToken t i0 prod => Sys2Proof.Machine.execEndOfStreamToken t i0 prod s
  | .ksendArrival m => Sys2Proof.Machine.execKsendArrival m s
  | .collectiveRoundComplete g peers => Sys2Proof.Machine.execCollectiveRoundComplete g peers s
  | .quadUnitCommand t chain => Sys2Proof.Machine.execQuadUnitCommand t chain s
  | .engineReply t => Sys2Proof.Machine.execEngineReply t s
  | .streamEngineQuery m => Sys2Proof.Machine.execStreamEngineQuery m s
  | .ctrRead m => Sys2Proof.Machine.execCtrRead m s
  | .ctrClear m => Sys2Proof.Machine.execCtrClear m s
  | .dropRead m => Sys2Proof.Machine.execDropRead m s
  | .dropClear m => Sys2Proof.Machine.execDropClear m s
  | .quadUnitQuery m => Sys2Proof.Machine.execQuadUnitQuery m s
  | .mergeRead m => Sys2Proof.Machine.execMergeRead m s
  | .probe m => Sys2Proof.Machine.execProbe m s
  | .groupInfo m => Sys2Proof.Machine.execGroupInfo m s
  | .streamInfo m => Sys2Proof.Machine.execStreamInfo m s
  | .engGoUnaccepted m => Sys2Proof.Machine.execEngGoUnaccepted m s
  | .inboxDelivery r => Sys2Proof.Machine.execInboxDelivery r s
  | .putLanding m => Sys2Proof.Machine.execPutLanding m s
  | .ringValueArrival t => Sys2Proof.Machine.execRingValueArrival t s
  | .joinWake m => Sys2Proof.Machine.execJoinWake m s
  | .joinReread t i0 => Sys2Proof.Machine.execJoinReread t i0 s
  | .nbarRemoteAccess id => Sys2Proof.Machine.execNbarRemoteAccess id s
  | .taskSelect t => Sys2Proof.Machine.execTaskSelect t s
  | .stealClaim t victim => Sys2Proof.Machine.execStealClaim t victim s
  | .stealLanding t => Sys2Proof.Machine.execStealLanding t s
  | .stealRetry t => Sys2Proof.Machine.execStealRetry t s
  | .frameWrite t => Sys2Proof.Machine.execFrameWrite t s
  | .trapRecordDelivery t => Sys2Proof.Machine.execTrapRecordDelivery t s
  | .resume r => Sys2Proof.Machine.execResume r s
  | .step r => Sys2Proof.Machine.execStep r s
  | .endTask r => Sys2Proof.Machine.execEndTask r s
  | .endLaunch r => Sys2Proof.Machine.execEndLaunch r s
  | .fppush w => Sys2Proof.Machine.execFppush w s
  | .fpovf w => Sys2Proof.Machine.execFpovf w s
  | .mbpop w => Sys2Proof.Machine.execMbpop w s
  | .preempt w => Sys2Proof.Machine.execPreempt w s
  | .restore w => Sys2Proof.Machine.execRestore w s
  | .panelAccessStatus core => Sys2Proof.Machine.execPanelAccessStatus core s
  | .registerWrite w => Sys2Proof.Machine.execRegisterWrite w s
  | .preemptionHalt t => Sys2Proof.Machine.execPreemptionHalt t s
  | .cohortSave c => Sys2Proof.Machine.execCohortSave c s
  | .cohortRestore c => Sys2Proof.Machine.execCohortRestore c s
  | .thermalMigration q => Sys2Proof.Machine.execThermalMigration q s
  | .migrationComplete q => Sys2Proof.Machine.execMigrationComplete q s
  | .sensorSample p r => Sys2Proof.Machine.execSensorSample p r s
  | .inputUndervoltage mv => Sys2Proof.Machine.execInputUndervoltage mv s
  | .undervoltageReset mv => Sys2Proof.Machine.execUndervoltageReset mv s
  | .powerSample w => Sys2Proof.Machine.execPowerSample w s
  | .boostClaim c => Sys2Proof.Machine.execBoostClaim c s
  | .boostPermitInterval c => Sys2Proof.Machine.execBoostPermitInterval c s
  | .boostFall c => Sys2Proof.Machine.execBoostFall c s
  | .boostPermitRefill c => Sys2Proof.Machine.execBoostPermitRefill c s
  | .operatingPointChange q => Sys2Proof.Machine.execOperatingPointChange q s
  | .droop q depth dur => Sys2Proof.Machine.execDroop q depth dur s
  | .tokenCirculation die => Sys2Proof.Machine.execTokenCirculation die s
  | .burstEnd c => Sys2Proof.Machine.execBurstEnd c s
  | .cardSubmission w => Sys2Proof.Machine.execCardSubmission w s
  | .plazaSubmission core w => Sys2Proof.Machine.execPlazaSubmission core w s
  | .submissionStatus core => Sys2Proof.Machine.execSubmissionStatus core s
  | .admission page slot => Sys2Proof.Machine.execAdmission page slot s
  | .cohortDispatch c => Sys2Proof.Machine.execCohortDispatch c s
  | .ticketSteal c l => Sys2Proof.Machine.execTicketSteal c l s
  | .batchChunkClaim t => Sys2Proof.Machine.execBatchChunkClaim t s
  | .cohortRetirement c => Sys2Proof.Machine.execCohortRetirement c s
  | .ageing l => Sys2Proof.Machine.execAgeing l s
  | .launchCompletion l => Sys2Proof.Machine.execLaunchCompletion l s
  | .watchdog l => Sys2Proof.Machine.execWatchdog l s
  | .hostBar4Access r => Sys2Proof.Machine.execHostBar4Access r s
  | .backInvalidationResponse pa => Sys2Proof.Machine.execBackInvalidationResponse pa s
  | .flushingReadCompletion port => Sys2Proof.Machine.execFlushingReadCompletion port s
  | .spanLaneLoss p lanes => Sys2Proof.Machine.execSpanLaneLoss p lanes s
  | .spanRetrainComplete p => Sys2Proof.Machine.execSpanRetrainComplete p s
  | .laneShed link bad => Sys2Proof.Machine.execLaneShed link bad s
  | .linkReopen link => Sys2Proof.Machine.execLinkReopen link s
  | .powerOn r => Sys2Proof.Machine.execPowerOn r s
  | .healthConfirmation => Sys2Proof.Machine.execHealthConfirmation s
  | .healthWatchdog => Sys2Proof.Machine.execHealthWatchdog s
  | .attestationReport nonce => Sys2Proof.Machine.execAttestationReport nonce s
  | .pulse core tick => Sys2Proof.Machine.execPulse core tick s
  | .sampleLatch t => Sys2Proof.Machine.execSampleLatch t s
  | .snapshotRecord c => Sys2Proof.Machine.execSnapshotRecord c s
  | .taggedSampleMark t => Sys2Proof.Machine.execTaggedSampleMark t s
  | .taggedSampleRecord t c => Sys2Proof.Machine.execTaggedSampleRecord t c s
  | .sessionOpen tag => Sys2Proof.Machine.execSessionOpen tag s
  | .sessionClose tag => Sys2Proof.Machine.execSessionClose tag s
  | .totalLowRead core tag i0 => Sys2Proof.Machine.execTotalLowRead core tag i0 s
  | .totalHighRead core tag i0 => Sys2Proof.Machine.execTotalHighRead core tag i0 s
  | .lost r => Sys2Proof.Machine.execLost r s
  | .lifetimeCommit => Sys2Proof.Machine.execLifetimeCommit s
  | .gatewayInvalidation die tenant range => Sys2Proof.Machine.execGatewayInvalidation die tenant range s
  | .pageWalk die tag va => Sys2Proof.Machine.execPageWalk die tag va s
  | .launchAbort l => Sys2Proof.Machine.execLaunchAbort l s
  | .msiXUnmask port vec => Sys2Proof.Machine.execMsiXUnmask port vec s
  | .inputRecovery mv => Sys2Proof.Machine.execInputRecovery mv s
  | .virtualStateSet r => Sys2Proof.Machine.execVirtualStateSet r s
  | .ringSourceEnable die val => Sys2Proof.Machine.execRingSourceEnable die val s
  | .firmwareUpdate slotA img => Sys2Proof.Machine.execFirmwareUpdate slotA img s
  | .streamerSendArrival m => Sys2Proof.Machine.execStreamerSendArrival m s

end Sys2Proof.Machine
end

