-- ==== Sys2Proof/Machine/Step.lean ====
section
/-! DEFINITION. One step of the machine: the next turn of the agenda, or what the fixed policy chooses when it is empty;
and the state in which a given word of the opcode table is the next to run. -/

namespace Sys2Proof.Machine

/-- One act: a side of a tile has a turn, or a step of the table happens. An act that names no tile, no step of the table,
or something outside the panel does nothing. -/
def runAct (a : Act) (s : State) : Out :=
  match a with
  | .access t => if isTile t then accessTurn exec t s else .next s
  | .execute t => if isTile t then executeTurn exec t s else .next s
  | .event i => if isA i || isX i || !eventOk i then .next s else exec i { s with cur := Cur.none }

/-- One step: the clk of the turn pass, and then its act happens. -/
def step (s : State) : Host.Outcome State Fault Refusal :=
  match s.agenda with
  | u :: rest => runAct u.act (passTime { s with agenda := rest } u.dt)
  | [] =>
    let s1 := passTime s 1
    match autoAct s1 with
    | some a => runAuto exec a s1
    | none => .next s1

/-! ## The word that runs next -/

/-- The card of the launch that `withFetchWord` stands its task in: all zero. -/
def plainLaunch : Launch :=
  { card := 0#1024, page := 0, slot := 0, seq := 0, tag := 0, fid := 0, info := 0#8, failed := none, ended := false,
    reason := 0#8, start := 0, det := 0#32, rep := 0#32, retired := 0, faults := 0, boardA := [], boardB := [],
    tickets := [], parked := [], moved := [], batchNext := 0, batchNextB := 0, batchQuads := [], placed := [], sigA := 0#128,
    sigB := 0#128, aged := 0, dispatched := true, watched := 0, brks := Vector.replicate 16 ⟨false, 0#64, 0#64, 0#64⟩ }

/-- A cohort of one team of one task on quad 0 of cluster 0. -/
def plainCohort : Cohort :=
  { launch := 0, index := 0, runB := false, cluster := 0, quads := [0], size := 1, status := .resident, serial := 1,
    live := 1, merged := 0, vstate := 0, restoreAsked := none, waiting := [] }

/-- A state in which tile 0 belongs to a cohort: the state itself, or one with a plain launch and cohort on quad 0 (log 26:
a program is loaded from outside). -/
def withCohort (s : State) : State :=
  if (cohortOf s 0).isSome then s
  else
    let s1 := setLaunch (setCohort s (cohortKey 0 0 false) plainCohort) 0 plainLaunch
    setQuad s1 0 { quadAt s1 0 with team := some (cohortKey 0 0 false, 0) }

/-- Tile 0 with a task that is ready to issue: its own, or a fresh one. -/
def readyTask (s : State) : Task :=
  let tl := tileOf s 0
  let k := if tl.run == .running then tl.task else Task.zero
  { k with xpushed := false, stepping := .no, skipbp := true, xinstr := [], xbusy := false, taken := [], hold := none }

/-- Tile 0 stands ready with this task. -/
def placeTask (s : State) (k : Task) (lines : List FetchLine) : State :=
  let tl := tileOf s 0
  setTile s 0 { tl with
    run := .running, halt := .none, task := k, lines := lines, replay := if replayFull s 0 then [] else tl.replay }

/-- The words of a bundle stand in the fetch buffer at the task's PC, and the access side has the next turn. -/
def placeWords (s : State) (w0 w1 : Word) : State :=
  let k := readyTask s
  let o := k.pc.toNat % 256
  let bytes := memWrite [] o (leBytes w0.toNat 4 ++ leBytes w1.toNat 4)
  { placeTask s k [⟨lineOf k.pc, bytes⟩] with agenda := [⟨0, .access 0⟩] }

/-- An X instruction stands at the head of the X instruction queue, and the execute side has the next turn. -/
def placeX (s : State) (x : Instr) (ext : Word) (ha hb : Bool) : State :=
  let k := readyTask s
  { placeTask s { k with xinstr := [⟨x, ext, ha, hb, k.pc⟩] } (tileOf s 0).lines with agenda := [⟨0, .execute 0⟩] }

/-- The state in which the very next step runs the instruction of a table word: an A instruction from the fetch buffer of
tile 0, an X instruction from its X instruction queue (log 26). -/
def State.withFetchWord (s : State) (nbits w : Nat) : State :=
  let v : Word := BitVec.ofNat 32 w
  let s1 := withCohort s
  if nbits != 32 then s1
  else
    match decodeWords v 0#32 with
    | .ok (.loneX x ext) => placeX s1 x ext false false
    | .ok _ => placeWords s1 v 0#32
    | .error _ =>
      match decodeWords 0#32 v with
      | .ok (.paired ha hb _ x) => placeX s1 x 0#32 ha hb
      | _ => placeWords s1 v 0#32

end Sys2Proof.Machine
end

