-- ==== Sys2Proof/Machine/WennuText.lean ====
section
/-! DEFINITION. Wennu source as text: the words and numbers of a line (R87, R90), register names (R89), and expressions
(R90). -/

namespace Sys2Proof.Machine

/-! ## What can be wrong -/

/-- Why a line is an assembly error (R87-R94). Every one is raised by the assembler alone; none is a step of the machine.
Safe: an erroneous source has no image. -/
inductive AsmFail where
  /-- A character, or a number, that no line may hold (R87, R90). -/
  | text
  /-- The line is no label, bundle, directive or key (R87, R88, R93, R94). -/
  | statement
  /-- No mnemonic, or a suffix out of order (R91). -/
  | mnemonic
  /-- A guard that the instruction does not take (R88). -/
  | guard
  /-- An operand that its position does not take, or too few or too many of them (R89). -/
  | operand
  /-- An expression that is not one, or a shift count outside 0 to 63 (R90). -/
  | expression
  | unknownSymbol
  /-- A symbol that is defined twice, or spells a register or a mnemonic (R87, R93). -/
  | symbol
  /-- A value that fits neither its field nor its extension immediate, or lies outside the range of its field (R90, R93,
  R94). -/
  | range
  /-- An offset, target or address that is not a multiple of what it must be (R90, R93). -/
  | alignment
  /-- An operand held in a lone bundle, or a partner beside an instruction that needs its extension immediate (R88). -/
  | lone
  /-- What the static checks would refuse (R90, Table 5-10). -/
  | refused
  /-- An instruction in .data, or a data directive in .text (R93). -/
  | place
  /-- A target of `spawn` or `fork.br`, or the entry of a card, that is no task entry (R93, R94). -/
  | taskEntry
  /-- A key that a block does not have, or has twice, or lacks (R94). -/
  | key
  /-- The symbols of the source do not settleNames. -/
  | unsettled
  deriving DecidableEq, Repr

/-! ## Words and numbers of a line (R87, R90) -/

/-- A piece of a line. -/
inductive Tok where
  | word (w : String)
  | num (n : Nat)
  /-- A decimal literal with a point or an exponent, as a digit string and a power of ten (R89). -/
  | dec (m : Nat) (e : Int)
  | mark (c : Char)
  | shl
  | shr
  /-- `||`, between the two instructions of a bundle. -/
  | bars
  deriving DecidableEq, Repr

def isDigit (c : Char) : Bool := '0' ≤ c && c ≤ '9'
def isLetter (c : Char) : Bool := ('a' ≤ c && c ≤ 'z') || ('A' ≤ c && c ≤ 'Z')

/-- Characters of a symbol after its first: letters, digits, `_` and `.` (R87). -/
def inWord (c : Char) : Bool := isLetter c || isDigit c || c == '_' || c == '.'

/-- The first character of a symbol; a directive begins with a point (R87, R93). -/
def startsWord (c : Char) : Bool := isLetter c || c == '_' || c == '.'

/-- The value of a digit of a base. -/
def digitOf (base : Nat) (c : Char) : Option Nat :=
  let v := if isDigit c then c.toNat - 48
    else if 'a' ≤ c && c ≤ 'f' then c.toNat - 87
    else if 'A' ≤ c && c ≤ 'F' then c.toNat - 55
    else 99
  if v < base then some v else none

/-- The number that digits spell, with `_` between them (R90). -/
def digits (base : Nat) (cs : List Char) : Option Nat :=
  let ds := cs.filter (· != '_')
  if ds.isEmpty then none
  else ds.foldl (fun acc c =>
    match acc, digitOf base c with
    | some n, some d => some (base * n + d)
    | _, _ => none) (some 0)

/-- The exponent of a decimal literal, behind its `e`. -/
def exponentOf (cs : List Char) : Option Int :=
  match cs with
  | '-' :: r => (digits 10 r).map fun n => -(n : Int)
  | '+' :: r => (digits 10 r).map fun n => (n : Int)
  | _ => (digits 10 cs).map fun n => (n : Int)

/-- A decimal literal: a whole number, or one with a point or an exponent (R89, R90). -/
def decimal (cs : List Char) : Option Tok :=
  let isE (c : Char) : Bool := c == 'e' || c == 'E'
  let body := cs.takeWhile fun c => !isE c
  let ex := cs.dropWhile fun c => !isE c
  let whole := body.takeWhile (· != '.')
  let frac := (body.dropWhile (· != '.')).drop 1
  let e := match ex with
    | [] => some 0
    | _ :: r => exponentOf r
  if !body.contains '.' && ex.isEmpty then (digits 10 cs).map .num
  else
    match digits 10 (whole ++ frac), e with
    | some m, some n => some (.dec m (n - (frac.filter (· != '_')).length))
    | _, _ => none

/-- A number: decimal, hexadecimal or binary (R90). -/
def number (cs : List Char) : Option Tok :=
  match cs with
  | '0' :: 'x' :: r => (digits 16 r).map .num
  | '0' :: 'b' :: r => (digits 2 r).map .num
  | _ => decimal cs

/-- How many characters a number takes: a sign may follow the `e` of a decimal exponent. -/
def numberSpan (cs : List Char) : Nat :=
  let run := cs.takeWhile inWord
  let hex := run.take 2 == ['0', 'x'] || run.take 2 == ['0', 'b']
  match run.getLast?, cs.drop run.length with
  | some c, s :: r =>
    if !hex && (c == 'e' || c == 'E') && (s == '+' || s == '-') then run.length + 1 + (r.takeWhile inWord).length
    else run.length
  | _, _ => run.length

/-- The pieces of a line, up to its comment (R87). -/
def lexGo : Nat → List Char → Except AsmFail (List Tok)
  | 0, _ => .ok []
  | _, [] => .ok []
  | n + 1, c :: r =>
    if c == ' ' || c == '\t' || c == '\r' then lexGo n r
    else if c == ';' then .ok []
    else if startsWord c then
      let k := ((c :: r).takeWhile inWord).length
      (lexGo n ((c :: r).drop k)).map (.word (String.ofList ((c :: r).take k)) :: ·)
    else if isDigit c then
      let k := numberSpan (c :: r)
      match number ((c :: r).take k) with
      | some t => (lexGo n ((c :: r).drop k)).map (t :: ·)
      | none => .error .text
    else
      match c, r with
      | '/', '/' :: _ => .ok []
      | '|', '|' :: r' => (lexGo n r').map (.bars :: ·)
      | '<', '<' :: r' => (lexGo n r').map (.shl :: ·)
      | '>', '>' :: r' => (lexGo n r').map (.shr :: ·)
      | _, _ =>
        if ['(', ')', '[', ']', ',', '+', '-', '*', '&', '|', '~', '^', ':', '=', '/'].contains c then
          (lexGo n r).map (.mark c :: ·)
        else .error .text

/-- The pieces of a line. -/
def lex (line : String) : Except AsmFail (List Tok) := lexGo line.toList.length line.toList

/-! ## Register names (R89) -/

/-- A register, a queue, or a control register, as it is written. -/
inductive RegName where
  | a (n : Nat) | g (n : Nat) | p (n : Nat) | gd (n : Nat) | v (n : Nat) | w (n : Nat) | lq (n : Nat) | e (n : Nat)
  | m (n : Nat) | t (n : Nat) | k (n : Nat) | lc (n : Nat)
  | sq | xq | ri | ro | ef | acc
  | cr (n : Nat)
  deriving DecidableEq, Repr

/-- The number of a register name, without leading zeros, below a limit. -/
def regNumber (cs : List Char) (lim : Nat) : Option Nat :=
  if cs.contains '_' || (cs.take 1 == ['0'] && cs != ['0']) then none
  else
    match digits 10 cs with
    | some n => if n < lim then some n else none
    | none => none

/-- The register that a word names, if it names one (R67, R89). -/
def regOf (s : String) : Option RegName :=
  match s.toList with
  | ['s', 'q'] => some .sq
  | ['x', 'q'] => some .xq
  | ['r', 'i'] => some .ri
  | ['r', 'o'] => some .ro
  | ['e', 'f'] => some .ef
  | ['a', 'c', 'c'] => some .acc
  | 'c' :: 'r' :: '.' :: r =>
    let names := ["gtid", "tile", "mode", "vshare", "redq", "lfsr", "cycle"]
    let i := names.idxOf (String.ofList r)
    if i < 7 then some (.cr i) else none
  | 'g' :: 'd' :: r => (regNumber r 8).map .gd
  | 'l' :: 'q' :: r => (regNumber r 2).map .lq
  | 'l' :: 'c' :: r => (regNumber r 2).map .lc
  | 'a' :: r => (regNumber r 16).map .a
  | 'g' :: r => (regNumber r 48).map .g
  | 'p' :: r => (regNumber r 8).map .p
  | 'v' :: r => (regNumber r 16).map .v
  | 'w' :: r => (regNumber r 8).map .w
  | 'e' :: r => (regNumber r 8).map .e
  | 'm' :: r => (regNumber r 4).map .m
  | 't' :: r => (regNumber r 64).map .t
  | 'k' :: r => (regNumber r 4).map .k
  | _ => none

/-! ## Expressions (R90) -/

/-- The symbols that a source defines, with their values. -/
abbrev Symbols := List (String × DWord)

/-- The level at which an operator binds: `|` 1, `&` 2, shifts 3, sums 4, products 5; 0 for none (R90). -/
def opLevel (t : Tok) : Nat :=
  match t with
  | .mark '|' => 1
  | .mark '&' => 2
  | .shl | .shr => 3
  | .mark '+' | .mark '-' => 4
  | .mark '*' => 5
  | _ => 0

/-- Applies a binary operator to 64-bit values; a shift count outside 0 to 63 is an error (R90). -/
def applyOp (t : Tok) (x y : DWord) : Except AsmFail DWord :=
  match t with
  | .mark '|' => .ok (x ||| y)
  | .mark '&' => .ok (x &&& y)
  | .shl => if y.toNat < 64 then .ok (x <<< y.toNat) else .error .expression
  | .shr => if y.toNat < 64 then .ok (x >>> y.toNat) else .error .expression
  | .mark '+' => .ok (x + y)
  | .mark '-' => .ok (x - y)
  | _ => .ok (x * y)

/-- Reads an expression whose operators bind at `level` or closer: without `left` from its start, else on behind that
operand. Level 6 is a unary operator, a number, a symbol or parentheses (R90). DESIGN CHOICE (log 114): a number of 2^64 or more is
taken modulo 2^64. -/
def climb (look : String → Except AsmFail DWord) : Nat → Nat → Option DWord → List Tok → Except AsmFail (DWord × List Tok)
  | 0, _, _, _ => .error .expression
  | n + 1, level, none, ts =>
    if level == 6 then
      match ts with
      | .num k :: r => .ok (BitVec.ofNat 64 k, r)
      | .word s :: r => (look s).map fun v => (v, r)
      | .mark '-' :: r => (climb look n 6 none r).map fun v => (-v.1, v.2)
      | .mark '~' :: r => (climb look n 6 none r).map fun v => (~~~ v.1, v.2)
      | .mark '(' :: r =>
        match climb look n 1 none r with
        | .ok (v, .mark ')' :: r') => .ok (v, r')
        | .ok _ => .error .expression
        | .error e => .error e
      | _ => .error .expression
    else
      match climb look n (level + 1) none ts with
      | .ok (v, r) => climb look n level (some v) r
      | .error e => .error e
  | n + 1, level, some x, ts =>
    match ts with
    | t :: r =>
      if opLevel t == level then
        match climb look n (level + 1) none r with
        | .ok (y, r') =>
          match applyOp t x y with
          | .ok v => climb look n level (some v) r'
          | .error e => .error e
        | .error e => .error e
      else .ok (x, ts)
    | [] => .ok (x, [])

/-- The value of a symbol; a register name is none. While the symbols are still being settled an unknown one is 0. -/
def lookSymbol (syms : Symbols) (settled : Bool) (s : String) : Except AsmFail DWord :=
  if (regOf s).isSome then .error .operand
  else
    match syms.find? fun e => e.1 == s with
    | some e => .ok e.2
    | none => if settled then .error .unknownSymbol else .ok 0#64

/-- The value of an expression that takes all of its tokens (R90). -/
def evalExpr (look : String → Except AsmFail DWord) (ts : List Tok) : Except AsmFail DWord :=
  match climb look (8 * ts.length + 8) 1 none ts with
  | .ok (v, []) => .ok v
  | .ok _ => .error .expression
  | .error e => .error e

/-- A decimal literal as FP32 bits, rounded by RNE (R89, R93). -/
def decimalF32 (m : Nat) (e : Int) : Word :=
  if 0 ≤ e then toF32 .rne (.fin false (m * 10 ^ e.toNat) 0)
  else
    let k := (-e).toNat
    let s := 4 * k + 64
    toF32 .rne (if m == 0 then .fin false 0 0 else sticky false (m * 2 ^ s / 10 ^ k) (m * 2 ^ s % 10 ^ k == 0) (-(s : Int)))

/-- A literal with a point or an exponent, with a sign before it or none (log 88). -/
def literalF32 (ts : List Tok) : Option Word :=
  match ts with
  | [.dec m e] => some (decimalF32 m e)
  | [.mark '-', .dec m e] => some (decimalF32 m e ||| 0x80000000#32)
  | _ => none

/-- Splits at the commas that stand outside parentheses and brackets. -/
def splitCommas : Nat → List Tok → List Tok → List (List Tok)
  | _, cur, [] => [cur.reverse]
  | depth, cur, t :: r =>
    match t with
    | .mark '(' | .mark '[' => splitCommas (depth + 1) (t :: cur) r
    | .mark ')' | .mark ']' => splitCommas (depth - 1) (t :: cur) r
    | .mark ',' => if depth == 0 then cur.reverse :: splitCommas 0 [] r else splitCommas depth (t :: cur) r
    | _ => splitCommas depth (t :: cur) r

/-- The operands of a line: none where nothing stands there. -/
def operandsOf (ts : List Tok) : List (List Tok) := if ts.isEmpty then [] else splitCommas 0 [] ts

end Sys2Proof.Machine
end

