-- ==== Sys2Proof/Machine/WennuForms.lean ====
section
/-! DEFINITION. The mnemonics of Wennu and the operands that each is written with (R88, R89, R91, R92; Tables 5-7 to 5-9, 5-12,
5-13, 13-1, 15-2). -/

namespace Sys2Proof.Machine

/-- The coding of an operand of an X instruction (Table 5-4). -/
inductive Coding where
  | scalar | vector | long
  deriving DecidableEq, Repr

/-- A position of a written instruction, with the lowest bit of the field it fills; `w` is the field's width. -/
inductive Spot where
  | a (lo : Nat) | t (lo : Nat) | m (lo : Nat) | k (lo : Nat) | e (lo : Nat) | p (lo : Nat) | gd (lo : Nat)
  | lc
  /-- The count of a `loop`: a1 to a15, or CNT with its extension immediate. -/
  | count
  /-- The last bundle of a `loop`. -/
  | last
  /-- A target in bundles from this bundle, in bits w - 1 to 0, with its extension immediate. -/
  | target (w : Nat)
  /-- The same; it must be a task entry. -/
  | entry (w : Nat)
  /-- A signed immediate in bits w - 1 to 0; `ext` where an extension immediate may take its place. -/
  | imm (w : Nat) (ext : Bool)
  /-- A number up to a limit. -/
  | num (lo lim : Nat)
  /-- The same, which may be left out; it is then 0. -/
  | numOpt (lo lim : Nat)
  /-- The length of a ring: its logarithm. -/
  | log2 (lo : Nat)
  /-- `[aN+off]`: BASE in bits 18 to 15, OFF in bits 6 to 0 in units of the access width. -/
  | mem (unit : Nat) (ext : Bool)
  /-- `[aN]`. -/
  | base (lo : Nat)
  /-- DATA of a load, and of a store (Table 5-7). -/
  | dest | data
  /-- RES of an atomic (Table 5-7). -/
  | res
  /-- The name of a space in bits 1 to 0. -/
  | space
  /-- A control register in bits 2 to 0 (Table 15-6). -/
  | cr
  /-- Source operands A and B, and the destination D, of an X instruction. -/
  | srcA (c : Coding) | srcB (c : Coding) | dst (c : Coding)
  /-- `acc`, which the instruction's other bits encode. -/
  | acc
  /-- The source of a `vredq.f32` (R175). -/
  | queue
  /-- `short` or `long` in bit 0. -/
  | mode
  /-- The tensor of a `chain` that may be left out; F4 says that it is there (Table 13-1). -/
  | tOpt
  deriving DecidableEq, Repr

/-- A written instruction: its class, the bits that its mnemonic fixes, whether it takes a guard, its operands in order. -/
structure Form where
  x : Bool
  body : Nat
  guard : Bool
  spots : List Spot
  deriving DecidableEq, Repr

/-- Bits 29:22 hold the opcode (R72). -/
def opBits (op : Nat) : Nat := op * 2 ^ 22

def formA (op fn : Nat) (spots : List Spot) : Form := ⟨false, opBits op + fn, false, spots⟩
def formAG (op fn : Nat) (spots : List Spot) : Form := ⟨false, opBits op + fn, true, spots⟩
def formX (op fn : Nat) (spots : List Spot) : Form := ⟨true, opBits op + fn, true, spots⟩

/-- Names numbered from an opcode on. -/
def numbered (from_ : Nat) (names : List String) : List (String × Nat) := names.zip ((List.range names.length).map (from_ + ·))

/-! ## Fixed mnemonics -/

/-- Control flow and address arithmetic (R123 to R132). -/
def formsControl : List (String × Form) :=
  [("nop", formA 0x00 0 []), ("jmp", formA 0x01 0 [.target 22]), ("call", formA 0x02 0 [.target 22]), ("jr", formA 0x03 0 [.a 14]),
    ("callr", formA 0x04 0 [.a 18, .a 14]), ("ret", formA 0x03 (15 * 2 ^ 14) []),
    ("bgd", formA 0x0a (2 ^ 18) [.gd 19, .target 18]), ("bngd", formA 0x0a 0 [.gd 19, .target 18]),
    ("loop", formA 0x0b 0 [.lc, .count, .last]), ("amov", formA 0x13 0 [.a 18, .a 14]), ("ali", formA 0x27 0 [.a 18, .imm 14 true])] ++
  (numbered 0 ["beq", "bne", "blt", "bge", "bltu", "bgeu"]).map (fun e => (e.1, formA 0x08 (e.2 * 2 ^ 11) [.a 18, .a 14, .target 11])) ++
  (numbered 0 ["bxz", "bxnz", "bxlt", "bxge"]).map (fun e => (e.1, formA 0x09 (e.2 * 2 ^ 19) [.target 19])) ++
  (numbered 0x10 ["aadd", "asub", "aand", "aor", "axor", "ashl", "ashr", "asra", "amul", "apeer"]).map
    (fun e => (e.1, formA e.2 0 [.a 18, .a 14, .a 10])) ++
  (numbered 0x20 ["aaddi", "aandi", "aori", "axori", "ashli", "ashri", "asrai"] ++ numbered 0x28 ["alh"]).map
    fun e => (e.1, formA e.2 0 [.a 18, .a 14, .imm 14 true])

/-- The matrix, tensor and engine instructions (Table 13-1). -/
def formsEngine : List (String × Form) :=
  [("pref.gl", formA 0xf0 0x1000 [.mem 32 false]), ("pref.ql", formA 0xf1 0x1000 [.mem 32 false]),
    ("tinv", formA 0x81 0 [.t 13]), ("tinv.all", formA 0x81 1 []), ("mmz", formAG 0x82 0 [.m 7]),
    ("mma", formAG 0x83 0 [.m 5, .t 13, .t 7, .a 1]), ("mma.bl", formAG 0x83 1 [.m 5, .t 13]),
    ("mma.r", formAG 0x84 1 [.m 5, .t 13, .log2 7]), ("mld", formAG 0x85 0 [.m 7, .t 13]),
    ("chain", formAG 0x91 0 [.t 13, .t 7, .tOpt]), ("ksend", formAG 0x92 0 [.t 13, .a 7, .a 1]),
    ("ksend.h", formAG 0x92 1 [.t 13, .a 7, .a 1]), ("kbin.add", formA 0x93 0 [.t 13]),
    ("kbin.app", formA 0x93 (2 ^ 7) [.t 13, .num 1 32]), ("kbin.off", formA 0x93 (2 ^ 8) []),
    ("coll", formAG 0x94 0 [.t 13, .t 7, .a 1]), ("coll.red", formAG 0x94 1 [.t 13, .t 7, .a 1]),
    ("eng.k", formA 0x95 0 [.k 13, .a 7]), ("eng.k.hi", formA 0x95 1 [.k 13, .a 7]), ("eng.go", formAG 0x96 0 [.a 13]),
    ("eng.go.r", formAG 0x96 1 [.a 13])]

/-- `mld.bl` with its depth suffixes (R191). -/
def formsSlab : List (String × Form) :=
  (numbered 0 ["mld.bl", "mld.bl.d16", "mld.bl.d32", "mld.bl.d64"]).map fun e => (e.1, formAG 0x85 (e.2 * 2 ^ 7 + 1) [.t 13, .a 1])

/-- A copy, and the same with `.chg` (R181). -/
def formsCopy (s : String) (op : Nat) (spots : List Spot) : List (String × Form) :=
  [(s, formAG op 0 spots), (s ++ ".chg", formAG op 1 spots)]

/-- The copies and the stream (Table 13-1). -/
def formsCopies : List (String × Form) :=
  formsCopy "cpy" 0x88 [.t 13, .t 7] ++ formsCopy "cpy.g" 0x89 [.t 13, .t 7, .t 1] ++ formsCopy "cpy.s" 0x8a [.t 13, .t 7, .t 1] ++
    formsCopy "cpy.t" 0x8b [.t 13, .t 7] ++ formsCopy "cpy.m" 0x8c [.t 13, .t 7, .a 1] ++
    formsCopy "cpy.mma" 0x8d [.t 13, .t 7, .k 1] ++ formsCopy "strm" 0x8e [.t 13, .a 7]

/-- The task, message and synchronisation instructions (Table 15-2). -/
def formsTask : List (String × Form) :=
  [("spawn", formAG 0xa0 0 [.entry 11, .a 15, .a 11]), ("fork.br", formA 0xa1 0 [.entry 11, .a 15, .a 11]),
    ("join", formA 0xa2 0 [.a 15, .space]), ("jdec", formAG 0xa3 0 [.a 15, .space]), ("suspend", formA 0xa4 0 []),
    ("yield", formA 0xa5 0 []), ("exit", formA 0xa6 0 []), ("send", formAG 0xa8 0 [.a 15, .a 11, .num 0 256]),
    ("send.eos", formAG 0xa8 0x200 [.a 15, .a 11]), ("put", formAG 0xa9 0 [.e 0, .a 15, .a 11]),
    ("put.x", formAG 0xa9 8 [.e 0, .a 15]), ("wfm", formA 0xaa 0 []), ("nbar.init", formA 0xac 0 [.num 0 31, .a 15]),
    ("nbar.arr", formAG 0xad 0 [.num 0 31, .a 15, .a 11]), ("nbar.wt", formA 0xae 0 [.num 0 31, .a 15, .a 11]),
    ("nbar.tx", formAG 0xaf 0 [.num 0 31, .a 15, .a 11]), ("stv", formAG 0xb1 0 [.base 15, .a 11]),
    ("ldv", formA 0xb2 0 [.a 11, .base 15]), ("ldv.s", formA 0xb2 1 [.a 11, .base 15]), ("vrcl", formAG 0xb3 0 [.base 15]),
    ("sys", formA 0xb8 0 [.num 0 1023, .a 15, .a 11]), ("trap", formA 0xb9 0 [.num 0 1023, .a 15]),
    ("brk", formA 0xba 0 [.num 0 1023]), ("rdcr", formA 0xbb 0 [.a 15, .cr]), ("wrcr", formA 0xbc 0 [.cr, .a 11]),
    ("halt", formA 0xbd 0 [])]

/-- A destination and operands A and B of one coding. -/
def dab (c : Coding) : List Spot := [.dst c, .srcA c, .srcB c]

/-- The scalar X instructions (Table 5-9, R159 to R168), with the other spellings of R92. -/
def formsScalar : List (String × Form) :=
  [("nop", ⟨true, 0, false, []⟩), ("vmode", formX 0x01 0 [.mode]), ("gset", formX 0x02 0 [.gd 16, .p 13]),
    ("gset.n", formX 0x02 (2 ^ 12) [.gd 16, .p 13]), ("plog", formX 0x03 0 [.p 16, .p 13, .p 10, .num 6 15]),
    ("pand", formX 0x03 (0b1000 * 2 ^ 6) [.p 16, .p 13, .p 10]), ("por", formX 0x03 (0b1110 * 2 ^ 6) [.p 16, .p 13, .p 10]),
    ("pxor", formX 0x03 (0b0110 * 2 ^ 6) [.p 16, .p 13, .p 10]), ("pnot", formX 0x03 (0b0011 * 2 ^ 6) [.p 16, .p 13]),
    ("pmov", formX 0x03 (0b1100 * 2 ^ 6) [.p 16, .p 13]),
    ("sel", ⟨true, opBits 0x04, false, [.dst .scalar, .p 19, .srcA .scalar, .srcB .scalar]⟩),
    ("mov", formX 0x1a 0 [.dst .scalar, .srcA .scalar]), ("addc", formX 0x26 0 (dab .scalar)), ("addc.c", formX 0x26 1 (dab .scalar)),
    ("subc", formX 0x27 0 (dab .scalar)), ("subc.c", formX 0x27 1 (dab .scalar)),
    ("li", formX 0x2f 0 [.dst .scalar, .imm 7 false])] ++
  (numbered 0x08 ["add", "sub", "adds.i32", "adds.n32", "subs.i32", "subs.n32", "mul", "mulh.i32", "mulh.n32", "div.i32", "div.n32",
    "rem.i32", "rem.n32", "min.i32", "min.n32", "max.i32", "max.n32", "and", "or", "xor", "andn", "shl", "shr", "sra",
    "rol"]).map (fun e => (e.1, formX e.2 0 (dab .scalar))) ++
  (numbered 0x24 ["bfx", "bfi"]).map (fun e => (e.1, formX e.2 0 (dab .scalar))) ++
  (numbered 0x38 ["add.f32", "sub.f32", "mul.f32", "fma.f32", "fms.f32", "fnma.f32", "fnms.f32", "min.f32", "max.f32"]).map
    (fun e => (e.1, formX e.2 0 (dab .scalar))) ++
  (numbered 0x21 ["clz", "ctz", "popc"] ++
    numbered 0x41 ["abs.f32", "neg.f32", "rcp.f32", "sqrt.f32", "rsq.f32", "ex2.f32", "lg2.f32", "tanh.f32"]).map
    (fun e => (e.1, formX e.2 0 [.dst .scalar, .srcA .scalar])) ++
  (numbered 0x28 ["addi", "andi", "ori", "xori", "shli", "shri", "srai"]).map
    fun e => (e.1, formX e.2 0 [.dst .scalar, .srcA .scalar, .imm 7 false])

/-- The short and long vector instructions (Table 5-9, R171 to R177). -/
def formsVector : List (String × Form) :=
  (numbered 0x60 ["vadd.f32", "vsub.f32", "vmul.f32", "vfma.f32", "vmin.f32", "vmax.f32", "vadd.i32", "vsub.i32", "vmul.i32", "vand",
    "vor", "vxor", "vshl", "vshr", "vsra", "vperm"]).map (fun e => (e.1, formX e.2 0 (dab .vector))) ++
  [("vbcast", formX 0x70 0 [.dst .vector, .srcA .vector]),
    ("vext", formX 0x71 (63 * 2 ^ 13) [.acc, .srcA .vector, .srcB .vector]), ("vins", formX 0x72 0 (dab .vector)),
    ("vredq.f32", formX 0x76 (63 * 2 ^ 13) [.acc, .queue, .srcB .vector])] ++
  (numbered 0x73 ["vred.add.f32", "vred.max.f32", "vred.add.i32"]).map
    (fun e => (e.1, formX e.2 (63 * 2 ^ 13) [.acc, .srcA .vector])) ++
  (numbered 0x90 ["wadd.f32", "wsub.f32", "wmul.f32", "wfma.f32", "wmin.f32", "wmax.f32"]).map
    (fun e => (e.1, formX e.2 0 (dab .long))) ++
  [("wbcast.f32", formX 0x96 0 [.dst .long, .srcA .scalar]), ("wins", formX 0x97 0 [.dst .long, .srcA .scalar, .srcB .scalar]),
    ("wext", formX 0x98 0 [.dst .scalar, .srcA .long, .srcB .scalar]), ("wred.add.f32", formX 0x99 0 [.dst .scalar, .srcA .long]),
    ("wred.max.f32", formX 0x9a 0 [.dst .scalar, .srcA .long])]

/-! ## Composed mnemonics (R91, Table 5-12) -/

/-- The place of a name in a list, from a number on. -/
def codeOf (names : List String) (s : String) : Option Nat :=
  let i := names.idxOf s
  if i < names.length then some i else none

def spaceCode (s : String) : Option Nat := codeOf ["sp", "pr", "ql", "gl"] s
def widthSuffix (s : String) : Option Nat := codeOf ["w8", "w16", "w32", "w64", "w256"] s

/-- Bytes of a width code. -/
def widthUnit (w : Nat) : Nat := if w == 4 then 32 else 2 ^ w

/-- A scope by its suffix (Tables 0-2 and 5-7). -/
def scopeCode (s : String) : Option Nat := (codeOf ["tl", "qd", "cl", "di", "pn", "sy"] s).map (· + 1)

/-- An order: none, or a suffix with its scope. -/
def ordCode (word : String) (ps : List String) : Option Nat :=
  match ps with
  | [] => some 0
  | [w, sc] => if w == word then scopeCode sc else none
  | _ => none

/-- The operation of an `atom` with its suffixes, and what follows (R91). -/
def atomOp (ps : List String) : Option (Nat × List String) :=
  match ps with
  | "fadd" :: "f32" :: r => some (8, r)
  | "fmax" :: "f32" :: r => some (9, r)
  | p :: r => (codeOf ["add", "sub", "min", "max", "and", "or", "xor", "swap"] p).map (fun n => (n, r)) |>.orElse
      fun _ => (codeOf ["minu", "maxu"] p).map fun n => (n + 10, r)
  | [] => none

/-- W of an atomic. -/
def atomWidth (s : String) : Option Nat := codeOf ["w32", "w64"] s

/-- A scalar type (Table 5-5). -/
def typeCode (s : String) : Option Nat :=
  codeOf ["f32", "fr19", "bf16", "f16", "e5m2", "e4m3", "e3m2", "e2m3", "e2m1", "i8", "n8", "i16", "n16", "i32", "n32"] s

/-- A rounding mode (R91). -/
def rmCode (s : String) : Option Nat := codeOf ["rne", "rz", "ru", "rd", "rna", "rs"] s

/-- RM of a conversion: 6 where it is left out (R91). -/
def rmOf (ps : List String) : Option Nat :=
  match ps with
  | [] => some 6
  | [r] => rmCode r
  | _ => none

/-- A load or a store (R140). -/
def formMem (load : Bool) (sp w : String) (ord : Option Nat) : Option Form :=
  match spaceCode sp, widthSuffix w, ord with
  | some s, some n, some o =>
    let spots := [Spot.mem (widthUnit n) true]
    some (if load then formA (0x30 + 8 * s + n) (o * 2 ^ 7) (.dest :: spots)
      else formAG (0x50 + 8 * s + n) (o * 2 ^ 7) (spots ++ [.data]))
  | _, _, _ => none

/-- The number of a space that an atomic may name: sp, pr and gl have the opcodes 0, 1 and 2 (R148, R149). -/
def atomSpace (s : String) : Option Nat := codeOf ["sp", "pr", "gl"] s

/-- The form of a mnemonic that is composed of suffixes (Table 5-12). -/
def composed (ps : List String) : Option Form :=
  match ps with
  | "ld" :: sp :: w :: r => formMem true sp w (ordCode "acq" r)
  | "st" :: sp :: w :: r => formMem false sp w (ordCode "rel" r)
  | "atom" :: sp :: r =>
    match atomSpace sp, atomOp r with
    | some s, some (op, w :: r') =>
      match atomWidth w, ordCode "ar" r' with
      | some n, some o => some (formAG (0x70 + s) (op * 2 ^ 7 + o * 2 ^ 4 + n * 2 ^ 3) [.res, .base 15, .a 11])
      | _, _ => none
    | _, _ => none
  | "cas" :: sp :: w :: r =>
    match atomSpace sp, atomWidth w, ordCode "ar" r with
    | some s, some n, some o => some (formAG (0x74 + s) (o * 2 ^ 4 + n * 2 ^ 3) [.res, .base 15, .a 7, .a 11])
    | _, _, _ => none
  | ["tdef", sp] => (spaceCode sp).map fun s => formA 0x80 (s * 2) [.t 13, .base 7]
  | ["drain", sp] => (spaceCode sp).map fun s => formA 0x90 s []
  | ["fence", sc] => (scopeCode sc).map fun s => formA 0xb0 s []
  | "mst" :: r =>
    let scaled := r.getLast? == some "s"
    (rmOf (if scaled then r.dropLast else r)).map fun rm =>
      formAG 0x86 (rm * 2 + if scaled then 2 ^ 6 else 0) [.t 13, .m 7, .numOpt 4 3]
  | ["cmp", c, t] =>
    match codeOf ["eq", "ne", "lt", "le", "gt", "ge", "un"] c, codeOf ["i32", "n32", "f32"] t with
    | some n, some k => some (formX (0x30 + k) (n * 2 ^ 13) [.p 16, .srcA .scalar, .srcB .scalar])
    | _, _ => none
  | "cvt" :: d :: t :: r =>
    match typeCode d, typeCode t, rmOf r with
    | some n, some k, some rm => some (formX (0x50 + n) (rm * 2 ^ 4 + k) [.dst .scalar, .srcA .scalar])
    | _, _, _ => none
  | "vcvt" :: "f32" :: t :: r =>
    match typeCode t, rmOf r with
    | some k, some rm => some (formX 0x77 (rm * 2 ^ 4 + k) [.dst .vector, .srcA .vector])
    | _, _ => none
  | _ => none

/-- Splits a mnemonic at its points. -/
def splitPoints : List Char → List Char → List String
  | cur, [] => [String.ofList cur.reverse]
  | cur, c :: r => if c == '.' then String.ofList cur.reverse :: splitPoints [] r else splitPoints (c :: cur) r

/-- The forms of a mnemonic: two for `nop`, which both maps have (R85). -/
def formsOf (s : String) : List Form :=
  ((formsControl ++ formsEngine ++ formsSlab ++ formsCopies ++ formsTask ++ formsScalar ++ formsVector).filter fun e => e.1 == s).map (·.2) ++
    (composed (splitPoints [] s.toList)).toList

/-- A word that no symbol may be: it spells a register or a mnemonic (R87). -/
def reservedWord (s : String) : Bool := (regOf s).isSome || !(formsOf s).isEmpty

end Sys2Proof.Machine
end

