-- ==== Sys2Proof/Machine/WennuCode.lean ====
section
/-! DEFINITION. The two words that Wennu makes of a written bundle (R88 to R90). -/

namespace Sys2Proof.Machine

/-- What a line of Wennu is read against. -/
structure AsmEnv where
  /-- The symbols of the source (R93). -/
  syms : Symbols
  /-- The addresses of its task entries (R93). -/
  entries : List DWord
  /-- Whether the symbols have settled; until then an unknown one reads 0. -/
  settled : Bool
  /-- Pair mode (Table 5-11). -/
  pair : Bool
  /-- The address of the current location. -/
  here : DWord
  deriving DecidableEq, Repr

/-- The value of an expression in an environment. -/
def AsmEnv.value (env : AsmEnv) (ts : List Tok) : Except AsmFail DWord := evalExpr (lookSymbol env.syms env.settled) ts

/-- An instruction in the making: its body, its extension immediate if it needs one, and its hold bits. -/
structure Made where
  body : Word
  ext : Option Word
  ha : Bool
  hb : Bool
  deriving DecidableEq, Repr

/-- A field filled from bit `lo` on. -/
def Made.put (m : Made) (lo v : Nat) : Made := { m with body := m.body ||| BitVec.ofNat 32 (v * 2 ^ lo) }

/-- The extension immediate set; one instruction has one (R74). -/
def Made.extend (m : Made) (v : Word) : Except AsmFail Made :=
  match m.ext with
  | none => .ok { m with ext := some v }
  | some w => if w == v then .ok m else .error .range

/-- A signed immediate in the low `w` bits, or in EXT where it does not fit them and an extension immediate may stand in
(R90). -/
def Made.signed (m : Made) (w : Nat) (ext : Bool) (v : Int) : Except AsmFail Made :=
  if -(2 ^ (w - 1) : Int) ≤ v && v < 2 ^ (w - 1) then .ok (m.put 0 (v % 2 ^ w).toNat)
  else if ext && -(2 ^ 31 : Int) ≤ v && v < 2 ^ 31 then m.extend (BitVec.ofInt 32 v)
  else .error .range

/-- The register that tokens name. -/
def regIn (ts : List Tok) : Option RegName :=
  match ts with
  | [.word s] => regOf s
  | _ => none

/-- A register number in its field, or an error where the tokens name no such register. -/
def Made.reg (m : Made) (lo : Nat) (n : Option Nat) : Except AsmFail Made :=
  match n with
  | some k => .ok (m.put lo k)
  | none => .error .operand

/-- A word of a list, as its number. -/
def wordIn (names : List String) (ts : List Tok) : Option Nat :=
  match ts with
  | [.word s] => codeOf names s
  | _ => none

/-! ## Operand codes (Table 5-4) -/

/-- The code of a register in a source position. -/
def sourceCode (c : Coding) (r : RegName) : Option Nat :=
  match c, r with
  | .scalar, .g n => some n
  | .scalar, .lq n | .vector, .lq n => some (48 + n)
  | .scalar, .ri => some 50
  | .scalar, .ef => some 53
  | .scalar, .e n => some (54 + n)
  | .scalar, .acc | .vector, .acc => some 63
  | .vector, .v n => some n
  | .long, .w n => some n
  | _, _ => none

/-- The code of a register in a destination position. -/
def dstCode (c : Coding) (r : RegName) : Option Nat :=
  match c, r with
  | .scalar, .g n => some n
  | .scalar, .ro => some 50
  | .scalar, .sq | .vector, .sq => some 51
  | .scalar, .xq => some 52
  | .scalar, .acc | .vector, .acc => some 63
  | .vector, .v n => some n
  | .long, .w n => some n
  | _, _ => none

/-- An expression in a source position: its 32 bits (R89, R90). DESIGN CHOICE (log 115): a literal with a point or an exponent inside a
larger expression is an error. -/
def sourceValue (env : AsmEnv) (ts : List Tok) : Except AsmFail Word :=
  match literalF32 ts with
  | some w => .ok w
  | none => do
    let v ← env.value ts
    if -(2 ^ 31 : Int) ≤ v.toInt && v.toInt < 2 ^ 32 then .ok (v.setWidth 32) else .error .range

/-- A source operand in bits from `lo` on: a register, or code 62 with an extension immediate (R89). -/
def Made.source (m : Made) (env : AsmEnv) (c : Coding) (lo : Nat) (ts : List Tok) : Except AsmFail Made :=
  match regIn ts with
  | some r => m.reg lo (sourceCode c r)
  | none =>
    if c == .long then .error .operand
    else do
      let v ← sourceValue env ts
      (m.put lo 62).extend v

/-- The tokens of an operand without its hold mark, and whether it had one (R88). -/
def unheld (ts : List Tok) : List Tok × Bool :=
  match ts.getLast? with
  | some (.mark '^') => (ts.dropLast, true)
  | _ => (ts, false)

/-! ## Operands by position -/

/-- The distance in bundles from the current bundle to an address (R80). -/
def bundlesTo (env : AsmEnv) (target : DWord) : Except AsmFail Int :=
  let d := (target - env.here).toInt
  if d % 8 == 0 then .ok (d / 8) else .error .alignment

/-- A number up to a limit. -/
def upTo (lim : Nat) (v : DWord) : Except AsmFail Nat := if v.toNat ≤ lim then .ok v.toNat else .error .range

/-- The register and the offset in bytes of a memory operand (R89). -/
def memOperand (env : AsmEnv) (ts : List Tok) : Except AsmFail (Nat × Int) :=
  match ts with
  | .mark '[' :: .word s :: r =>
    match regOf s, r.getLast? with
    | some (.a n), some (.mark ']') =>
      match r.dropLast with
      | [] => .ok (n, 0)
      | .mark '+' :: e => (env.value e).map fun v => (n, v.toInt)
      | .mark '-' :: e => (env.value e).map fun v => (n, (-v).toInt)
      | _ => .error .operand
    | _, _ => .error .operand
  | _ => .error .operand

/-- Places an operand that is a register of one file. -/
def placeReg (m : Made) (s : Spot) (r : Option RegName) : Except AsmFail Made :=
  match s, r with
  | .a lo, some (.a n) | .t lo, some (.t n) | .m lo, some (.m n) | .k lo, some (.k n) | .e lo, some (.e n)
  | .p lo, some (.p n) | .gd lo, some (.gd n) => .ok (m.put lo n)
  | .lc, some (.lc n) => .ok (m.put 21 n)
  | .dest, some (.a n) | .data, some (.a n) => .ok (m.put 10 n)
  | .dest, some (.lq n) => .ok (m.put 10 (16 + n))
  | .data, some .sq => .ok (m.put 10 16)
  | .res, some (.a 0) => .ok m
  | .res, some (.lq n) => .ok (m.put 1 (n + 1))
  | .cr, some (.cr n) => .ok (m.put 0 n)
  | .dst c, some r => m.reg 13 (dstCode c r)
  | .acc, some .acc => .ok m
  | .queue, some (.lq n) => .ok (m.put 7 (48 + n))
  | .queue, some .ri => .ok (m.put 0 1)
  | .tOpt, some (.t n) => .ok ((m.put 1 n).put 0 1)
  | _, _ => .error .operand

/-- Places an operand in its position. -/
def placeSpot (env : AsmEnv) (m : Made) (s : Spot) (ts : List Tok) : Except AsmFail Made :=
  match s with
  | .count =>
    match regIn ts with
    | some (.a n) => if n == 0 then .error .operand else .ok (m.put 17 n)
    | some _ => .error .operand
    | none => do
      let v ← env.value ts
      if v.toNat < 2 ^ 8 then .ok (m.put 9 v.toNat)
      else if v.toNat < 2 ^ 32 then m.extend (v.setWidth 32)
      else .error .range
  | .last => do
    let d ← bundlesTo env (← env.value ts)
    if 1 ≤ d && d ≤ 511 then .ok (m.put 0 d.toNat) else .error .range
  | .target w => do m.signed w true (← bundlesTo env (← env.value ts))
  | .entry w => do
    let v ← env.value ts
    if env.settled && !env.entries.contains v then .error .taskEntry else m.signed w true (← bundlesTo env v)
  | .imm w ext => do m.signed w ext (← env.value ts).toInt
  | .num lo lim | .numOpt lo lim => do .ok (m.put lo (← upTo lim (← env.value ts)))
  | .log2 lo => do
    match [1, 2, 4, 8, 16].idxOf? (← env.value ts).toNat with
    | some n => .ok (m.put lo n)
    | none => .error .range
  | .mem unit ext => do
    let (n, off) ← memOperand env ts
    if off % unit == 0 then (m.put 15 n).signed 7 ext (off / unit) else .error .alignment
  | .base lo => do
    let (n, off) ← memOperand env ts
    if off == 0 then .ok (m.put lo n) else .error .operand
  | .space => m.reg 0 (wordIn ["sp", "pr", "ql", "gl"] ts)
  | .mode => m.reg 0 (wordIn ["short", "long"] ts)
  | .srcA c =>
    let (r, held) := unheld ts
    ({ m with ha := held }).source env c 7 r
  | .srcB c =>
    let (r, held) := unheld ts
    ({ m with hb := held }).source env c 1 r
  | .a _ | .t _ | .m _ | .k _ | .e _ | .p _ | .gd _ | .lc | .dest | .data | .res | .cr | .dst _ | .acc | .queue
  | .tOpt => placeReg m s (regIn ts)

/-- Whether an operand may be left out. -/
def Spot.mayLack (s : Spot) : Bool :=
  match s with
  | .numOpt _ _ | .tOpt => true
  | _ => false

/-- Places the operands of an instruction in their order. -/
def placeSpots (env : AsmEnv) : Made → List Spot → List (List Tok) → Except AsmFail Made
  | m, [], [] => .ok m
  | m, s :: ss, [] => if s.mayLack then placeSpots env m ss [] else .error .operand
  | m, s :: ss, t :: ts =>
    match placeSpot env m s t with
    | .ok m' => placeSpots env m' ss ts
    | .error e => .error e
  | _, [], _ :: _ => .error .operand

/-! ## Instructions and bundles (R88) -/

/-- The guard of an instruction, and the tokens behind it. -/
def takeGuard (ts : List Tok) : Option RegName × List Tok :=
  match ts with
  | .mark '(' :: .word s :: .mark ')' :: r => (regOf s, r)
  | _ => (none, ts)

/-- The guard of an instruction in its field: `(pN)` on an X, `(gdN)` on an A instruction (R88). -/
def placeGuard (f : Form) (m : Made) (guarded : Bool) (g : Option RegName) : Except AsmFail Made :=
  match guarded, f.x, g with
  | false, _, _ => .ok m
  | true, true, some (.p n) | true, false, some (.gd n) => if f.guard || n == 0 then .ok (m.put 19 n) else .error .guard
  | _, _, _ => .error .guard

/-- The instruction that a line writes, of the class that its place in the bundle asks for, or of either; whether it is an
X instruction comes with it. -/
def makeInstr (env : AsmEnv) (cls : Option Bool) (ts : List Tok) : Except AsmFail (Bool × Made) := do
  let (g, r) := takeGuard ts
  match r with
  | .word s :: ops =>
    match (formsOf s).find? fun f => cls == none || cls == some f.x with
    | some f =>
      let m ← placeGuard f ⟨BitVec.ofNat 32 f.body, none, false, false⟩ (r.length != ts.length) g
      .ok (f.x, ← placeSpots env m f.spots (operandsOf ops))
    | none => .error .mnemonic
  | _ => .error .statement

/-- Word 1 of a paired bundle: an X body under its hold bits (Table 5-1). -/
def Made.pairedX (m : Made) : Word :=
  m.body ||| (if m.ha then 0x80000000#32 else 0#32) ||| (if m.hb then 0x40000000#32 else 0#32)

/-- A lone bundle (Table 5-1); it holds no operand (R88). -/
def loneWords (x : Bool) (m : Made) : Except AsmFail (Word × Word) :=
  if m.ha || m.hb then .error .lone
  else .ok (m.body ||| (if x then 0xc0000000#32 else 0x80000000#32), m.ext.getD 0#32)

/-- A single instruction: lone, or beside a `nop` of the other class (Table 5-11). -/
def singleWords (paired x : Bool) (m : Made) : Except AsmFail (Word × Word) :=
  if m.ext.isSome || !paired then loneWords x m
  else .ok (if x then (0#32, m.pairedX) else (m.body, 0#32))

/-- The words of a written bundle, before the static checks. -/
def bundleWords (env : AsmEnv) (ts : List Tok) : Except AsmFail (Word × Word) := do
  let left := ts.takeWhile (· != .bars)
  let right := (ts.dropWhile (· != .bars)).drop 1
  if !ts.contains .bars then
    let (x, m) ← makeInstr env none ts
    singleWords env.pair x m
  else if right.isEmpty then
    let (_, m) ← makeInstr env (some false) left
    singleWords true false m
  else if left.isEmpty then
    let (_, m) ← makeInstr env (some true) right
    singleWords true true m
  else
    let (_, a) ← makeInstr env (some false) left
    let (_, x) ← makeInstr env (some true) right
    if a.ext.isSome || x.ext.isSome then .error .lone else .ok (a.body, x.pairedX)

/-- The words of a written bundle: an error where the static checks would refuse them (R90). -/
def assembleBundle (env : AsmEnv) (ts : List Tok) : Except AsmFail (Word × Word) := do
  let w ← bundleWords env ts
  match decodeWords w.1 w.2 with
  | .ok _ => .ok w
  | .error _ => .error .refused

end Sys2Proof.Machine
end

