-- ==== Sys2Proof/Machine/Wennu.lean ====
section
/-! DEFINITION. The Wennu assembler: lines, directives, card and tensor blocks, and the image they make (R87, R93, R94). -/

namespace Sys2Proof.Machine

/-! ## The state of a pass -/

/-- The keys that an open block has been given, with what stands behind their `=`. -/
abbrev Keys := List (String × List Tok)

/-- An open `.card` or `.tensor` block. -/
inductive Block where
  | card (keys : Keys)
  | tensor (keys : Keys)
  deriving DecidableEq, Repr

/-- A placement map that lies inside a declared region (Table 5-14). -/
structure MapCheck where
  line : Nat
  addr : DWord
  count : Nat
  cw : Nat
  ch : Nat
  deriving DecidableEq, Repr

/-- What an earlier pass found of the whole source. -/
structure Found where
  syms : Symbols
  entries : List DWord
  origin : DWord
  /-- Bytes of .text and of .data. -/
  textLen : Nat
  dataLen : Nat
  /-- Whether some `.scratch` area has guard granules. -/
  guarded : Bool
  deriving DecidableEq, Repr

/-- Where a pass over the source stands. -/
structure Pass where
  line : Nat
  inData : Bool
  /-- Whether a `.text` has stood. -/
  seenText : Bool
  origin : DWord
  /-- The bytes emitted, last first. -/
  text : List Byte
  data : List Byte
  syms : Symbols
  entries : List DWord
  team : Nat
  cohort : Nat
  guard : Nat
  pair : Bool
  region : Option (Nat × Nat)
  /-- The next free scratchpad offset (Table 5-14). -/
  scratch : Nat
  /-- The granules that guards occupy. -/
  granules : List Nat
  block : Option Block
  maps : List MapCheck
  /-- Whether the source has ended. -/
  ended : Bool
  deriving DecidableEq, Repr

/-- The start of a pass: .text, at the origin that the pass before found (R93). -/
def Pass.start (origin : DWord) : Pass :=
  { line := 0, inData := false, seenText := false, origin := origin, text := [], data := [], syms := [], entries := [],
    team := 1, cohort := 1, guard := 1, pair := false, region := none, scratch := 0, granules := [], block := none, maps := [],
    ended := false }

def padTo (n unit : Nat) : Nat := (n + unit - 1) / unit * unit

/-- The image offset of .data: the next 64-byte boundary behind .text (R93). -/
def Found.dataAt (f : Found) : Nat := padTo f.textLen 64

/-- The image offset of the guard bitmap: the first 4 KiB boundary behind the content of .data (R94). -/
def Found.bitmapAt (f : Found) : Nat := padTo (f.dataAt + f.dataLen) 4096

def Pass.found (p : Pass) : Found :=
  { syms := p.syms, entries := p.entries, origin := p.origin, textLen := p.text.length, dataLen := p.data.length,
    guarded := !p.granules.isEmpty }

/-- The image offset of the current location. -/
def Pass.offset (p : Pass) (f : Found) : Nat := if p.inData then f.dataAt + p.data.length else p.text.length

/-- The address of the current location: the origin and the image offset (R93). -/
def Pass.here (p : Pass) (f : Found) : DWord := p.origin + BitVec.ofNat 64 (p.offset f)

/-- What the lines of a pass are read against. -/
def Pass.env (p : Pass) (f : Found) (settled : Bool) : AsmEnv :=
  { syms := f.syms, entries := f.entries, settled := settled, pair := p.pair, here := p.here f }

/-- Emits bytes at the current location. -/
def Pass.emit (p : Pass) (bs : List Byte) : Pass :=
  if p.inData then { p with data := bs.reverse ++ p.data } else { p with text := bs.reverse ++ p.text }

/-- Pads the current location with zeros to a multiple of `n`. -/
def Pass.pad (p : Pass) (f : Found) (n : Nat) : Pass := p.emit (List.replicate (padTo (p.offset f) n - p.offset f) 0#8)

/-- Whether a word may be a symbol: it begins with a letter or `_`, and spells no register and no mnemonic (R87). -/
def mayName (s : String) : Bool :=
  match s.toList with
  | c :: _ => (isLetter c || c == '_') && !reservedWord s
  | [] => false

/-- Defines a symbol (R87, R93). -/
def Pass.define (p : Pass) (s : String) (v : DWord) : Except AsmFail Pass :=
  if !mayName s || (p.syms.any fun e => e.1 == s) then .error .symbol else .ok { p with syms := (s, v) :: p.syms }

/-! ## Directives of Table 5-14 -/

/-- The lowest n bytes of a number, lowest first. -/
def wordBytes (n v : Nat) : List Byte := leBytes v n

/-- A value in n bytes, where it fits as signed or as unsigned (Table 5-14). -/
def dataValue (n : Nat) (v : DWord) : Except AsmFail (List Byte) :=
  if n == 8 || (-(2 ^ (8 * n - 1) : Int) ≤ v.toInt && v.toInt < 2 ^ (8 * n)) then .ok (wordBytes n v.toNat) else .error .range

/-- A literal of `.float`: a whole number or a decimal literal, with a sign or without. -/
def floatValue (ts : List Tok) : Except AsmFail Word :=
  match ts with
  | [.num n] => .ok (decimalF32 n 0)
  | [.mark '-', .num n] => .ok (decimalF32 n 0 ||| 0x80000000#32)
  | _ =>
    match literalF32 ts with
    | some w => .ok w
    | none => .error .operand

/-- Emits the values of a data directive. While the symbols are being settled, only their number counts. -/
def Pass.emitData (p : Pass) (settled : Bool) (n : Nat) (value : List Tok → Except AsmFail (List Byte)) (ops : List (List Tok)) :
    Except AsmFail Pass :=
  if !p.inData then .error .place
  else if ops.isEmpty then .error .operand
  else if settled then (ops.mapM value).map fun bs => p.emit bs.flatten
  else .ok (p.emit (List.replicate (n * ops.length) 0#8))

/-- A number between two limits. -/
def between (lo hi : Nat) (v : DWord) : Except AsmFail Nat :=
  if lo ≤ v.toNat && v.toNat ≤ hi then .ok v.toNat else .error .range

/-- A power of two between two limits. -/
def powerBetween (lo hi : Nat) (v : DWord) : Except AsmFail Nat :=
  if lo ≤ v.toNat && v.toNat ≤ hi && ((List.range 13).any fun k => v.toNat == 2 ^ k) then .ok v.toNat else .error .range

/-- `.scratch`: the area, its guard granules behind it, and the offset of the next one (Table 5-14). DESIGN CHOICE (log 116): an
area may not run beyond 1 GiB. -/
def Pass.reserve (p : Pass) (name : String) (bytes align : Nat) : Except AsmFail Pass := do
  let at_ := padTo p.scratch align
  let stop := padTo (at_ + bytes) 64
  if stop + 64 * p.guard > 0x40000000 then .error .range
  else
    let q ← p.define name (BitVec.ofNat 64 at_)
    .ok { q with scratch := stop + 64 * p.guard, granules := (List.range p.guard).map (stop / 64 + ·) ++ p.granules }

/-- A directive that takes one number between two limits. -/
def oneNumber (env : AsmEnv) (lo hi : Nat) (ops : List (List Tok)) : Except AsmFail Nat :=
  match ops with
  | [t] => do between lo hi (← env.value t)
  | _ => .error .operand

/-- The directives that lay out the image. -/
def Pass.layout (p : Pass) (f : Found) (settled : Bool) (d : String) (ops : List (List Tok)) : Except AsmFail Pass :=
  let env := p.env f settled
  match d, ops with
  | ".text", [] => .ok { p with inData := false, seenText := true }
  | ".text", [t] => do
    let v ← env.value t
    if p.seenText then .error .operand
    else if v.toNat % 4096 == 0 then .ok { p with inData := false, seenText := true, origin := v }
    else .error .alignment
  | ".data", [] => .ok { p with inData := true }
  | ".align", [t] => do
    let n ← powerBetween (if p.inData then 1 else 8) 4096 (← env.value t)
    .ok (p.pad f n)
  | ".byte", _ => p.emitData settled 1 (fun t => do dataValue 1 (← env.value t)) ops
  | ".half", _ => p.emitData settled 2 (fun t => do dataValue 2 (← env.value t)) ops
  | ".word", _ => p.emitData settled 4 (fun t => do dataValue 4 (← env.value t)) ops
  | ".dword", _ => p.emitData settled 8 (fun t => do dataValue 8 (← env.value t)) ops
  | ".float", _ => p.emitData settled 4 (fun t => do .ok (wordBytes 4 (← floatValue t).toNat)) ops
  | ".task", [[.word s]] => do
    let v := p.origin + BitVec.ofNat 64 p.text.length
    let q ← p.define s v
    .ok { q with entries := v :: q.entries }
  | ".card", [[.word s]] =>
    if !p.inData then .error .place
    else do
      let q := p.pad f 128
      let q ← q.define s (q.here f)
      .ok { q with block := some (.card []) }
  | ".tensor", [[.word s]] =>
    if !p.inData then .error .place
    else do
      let q := p.pad f 32
      let q ← q.define s (q.here f)
      .ok { q with block := some (.tensor []) }
  | ".end", [] => .ok { p with ended := true }
  | _, _ => .error .statement

/-- A directive (Table 5-14). -/
def Pass.directive (p : Pass) (f : Found) (settled : Bool) (d : String) (ops : List (List Tok)) : Except AsmFail Pass :=
  let env := p.env f settled
  match d, ops with
  | ".equ", [[.word s], t] => do p.define s (← env.value t)
  | ".team", _ => do .ok { p with team := ← oneNumber env 1 4 ops }
  | ".cohort", _ => do .ok { p with cohort := ← oneNumber env 1 64 ops }
  | ".guard", _ => do .ok { p with guard := ← oneNumber env 0 15 ops }
  | ".scratch", [[.word s], t] => do p.reserve s (← env.value t).toNat 64
  | ".scratch", [[.word s], t, u] => do p.reserve s (← env.value t).toNat (← powerBetween 4 64 (← env.value u))
  | ".region", [t, u] => do .ok { p with region := some (← between 1 16 (← env.value t), ← between 1 16 (← env.value u)) }
  | ".pair", [[.word "on"]] => .ok { p with pair := true }
  | ".pair", [[.word "off"]] => .ok { p with pair := false }
  | _, _ => p.layout f settled d ops

/-! ## Cards (R94, Table 5-15) -/

/-- What stands behind a key. -/
def Keys.get (ks : Keys) (k : String) : Option (List Tok) := (ks.find? fun e => e.1 == k).map (·.2)

/-- The values of a key, in order; none where the key is absent. -/
def Keys.values (ks : Keys) (env : AsmEnv) (k : String) : Except AsmFail (Option (List DWord)) :=
  match ks.get k with
  | none => .ok none
  | some ts => (splitCommas 0 [] ts).mapM env.value |>.map some

/-- A key with one value up to a limit, a multiple of `unit`; 0 where it is absent. -/
def Keys.one (ks : Keys) (env : AsmEnv) (k : String) (lim unit : Nat) : Except AsmFail Nat := do
  match ← ks.values env k with
  | none => .ok 0
  | some [v] => if v.toNat ≤ lim && v.toNat % unit == 0 then .ok v.toNat else .error .range
  | some _ => .error .operand

/-- An address: 64 bits, a multiple of `unit`. -/
def Keys.address (ks : Keys) (env : AsmEnv) (k : String) (unit : Nat) : Except AsmFail Nat := ks.one env k (2 ^ 64 - 1) unit

def cardKeys : List String :=
  ["kind", "flags", "priority", "fidelity", "order", "replica", "features", "entry", "code", "grid", "shape", "batch", "placement",
    "rdesc", "args", "deps", "completion", "irq", "spill", "scratch", "guard", "deadline"]

/-- KIND: the name of a kind; 0 where the key is absent. -/
def asmKind (ks : Keys) : Except AsmFail Nat :=
  match ks.get "kind" with
  | none => .ok 0
  | some ts =>
    match wordIn ["GRID", "BATCH", "PLACED"] ts with
    | some n => .ok (n + 1)
    | none => .error .operand

/-- FID: a number or a name f0 to f3. -/
def asmFid (ks : Keys) (env : AsmEnv) : Except AsmFail Nat :=
  match (ks.get "fidelity").bind (wordIn ["f0", "f1", "f2", "f3"]) with
  | some n => .ok n
  | none => ks.one env "fidelity" 3 1

/-- Word +0x00 (Table 19-1). -/
def asmWord0 (ks : Keys) (env : AsmEnv) : Except AsmFail Nat := do
  .ok ((← asmKind ks) + (← ks.one env "flags" 3 1) * 2 ^ 8 + (← ks.one env "priority" 47 1) * 2 ^ 24 + (← asmFid ks env) * 2 ^ 30 +
    (← ks.one env "order" 2 1) * 2 ^ 32 + (← ks.one env "replica" 1 1) * 2 ^ 34 + (← ks.one env "deadline" (2 ^ 24 - 1) 1) * 2 ^ 40)

/-- Words +0x08 and +0x10: up to four 32-bit values, lowest first (Table 5-15). -/
def asmFeatures (ks : Keys) (env : AsmEnv) : Except AsmFail (List Byte) := do
  match ← ks.values env "features" with
  | none => .ok (List.replicate 16 0#8)
  | some vs =>
    if vs.length > 4 then .error .operand
    else
      let bs := (← vs.mapM (dataValue 4)).flatten
      .ok (bs ++ List.replicate (16 - bs.length) 0#8)

/-- Word +0x18: the address of a task entry, bits 63:57 zero. -/
def asmEntry (ks : Keys) (env : AsmEnv) : Except AsmFail Nat := do
  match ks.get "entry" with
  | none => .ok 0
  | some ts =>
    let v ← env.value ts
    if env.settled && !env.entries.contains v then .error .taskEntry
    else if v.toNat < 2 ^ 57 then .ok v.toNat
    else .error .range

/-- T and S: the key `shape`, or the defaults of `.cohort` and `.team` (R94). -/
def asmShape (ks : Keys) (env : AsmEnv) (p : Pass) : Except AsmFail (Nat × Nat) := do
  match ← ks.values env "shape" with
  | none => .ok (p.cohort, p.team)
  | some [t, s] => .ok (← between 1 64 t, ← between 1 4 s)
  | some _ => .error .operand

/-- Words +0x28 and +0x30 of a GRID card (R33, Table 19-1). -/
def asmGrid (ks : Keys) (env : AsmEnv) (p : Pass) : Except AsmFail (Nat × Nat) := do
  let (t, s) ← asmShape ks env p
  let es ← ((← ks.values env "grid").getD [1#64]).mapM (between 1 (2 ^ 20))
  if es.length > 3 then .error .operand
  else if es.foldl (· * ·) 1 > 2 ^ 32 then .error .range
  else
    let e (i : Nat) : Nat := es.getD i 1 - 1
    .ok (e 0 + e 1 * 2 ^ 20 + e 2 * 2 ^ 40, t - 1 + (s - 1) * 2 ^ 6)

/-- Words +0x28 and +0x30 of a BATCH card (Table 19-1). -/
def asmBatch (ks : Keys) (env : AsmEnv) : Except AsmFail (Nat × Nat) := do
  match ← ks.values env "batch" with
  | none => .ok (0, 0)
  | some (b :: r :: n :: lim) =>
    if lim.length > 1 then .error .operand
    else
      let rec_ ← between 8 4096 r
      if b.toNat % 8 != 0 || rec_ % 8 != 0 then .error .range
      else .ok (b.toNat, (← between 1 (2 ^ 32) n) - 1 + rec_ * 2 ^ 32 + (← between 0 0xffff (lim.headD 0#64)) * 2 ^ 48)
  | some _ => .error .operand

/-- Words +0x28 and +0x30 of a PLACED card, and its map and count (Table 19-1). -/
def asmPlaced (ks : Keys) (env : AsmEnv) (p : Pass) : Except AsmFail (Nat × Nat × Option (DWord × Nat)) := do
  let (t, s) ← asmShape ks env p
  let shape := (t - 1) * 2 ^ 16 + (s - 1) * 2 ^ 22
  match ← ks.values env "placement" with
  | none => .ok (0, shape, none)
  | some [a, c] =>
    let n ← between 1 1024 c
    if a.toNat % 8 == 0 then .ok (a.toNat, n - 1 + shape, some (a, n)) else .error .range
  | some _ => .error .operand

/-- The keys that only one kind of card has (Table 5-15). -/
def foreignKey (kind : Nat) (ks : Keys) : Bool :=
  ((ks.get "grid").isSome && kind != 1) || ((ks.get "batch").isSome && kind != 2) || ((ks.get "placement").isSome && kind != 3) ||
    ((ks.get "shape").isSome && kind != 1 && kind != 3) || ((ks.get "deps").isSome && kind != 1)

/-- A dependence vector: three components of -7 to 7, lexicographically negative (R33, R94, R263). -/
def depVector (env : AsmEnv) (ts : List Tok) : Except AsmFail Nat := do
  match ts with
  | .mark '(' :: r =>
    match r.getLast?, ← (operandsOf r.dropLast).mapM env.value with
    | some (.mark ')'), [x, y, z] =>
      let ds := [x.toInt, y.toInt, z.toInt]
      let first := (ds.filter (· != 0)).headD 0
      if (ds.any fun d => d < -7 || 7 < d) || first ≥ 0 then .error .range
      else .ok ((x.toNat % 16) + (y.toNat % 16) * 2 ^ 4 + (z.toNat % 16) * 2 ^ 8)
    | _, _ => .error .operand
  | _ => .error .operand

/-- Word +0x48 (R263). -/
def asmDeps (ks : Keys) (env : AsmEnv) : Except AsmFail Nat := do
  match ks.get "deps" with
  | none => .ok 0
  | some ts =>
    let vs ← (splitCommas 0 [] ts).mapM (depVector env)
    if vs.length > 4 then .error .operand
    else .ok (vs.length * 2 ^ 48 + vs.foldr (fun v acc => v + acc * 2 ^ 12) 0)

/-- Word +0x58: an interrupt routing word (R264). -/
def asmRoute (ks : Keys) (env : AsmEnv) : Except AsmFail Nat := do
  let r ← ks.one env "irq" (2 ^ 22 - 1) 1
  if r / 2 ^ 11 % 2 == 1 || r / 2 ^ 14 % 4 == 3 then .error .range else .ok r

/-- The guard policy: as written, or 1 where the source has a guard bitmap (R94). -/
def asmPolicy (ks : Keys) (env : AsmEnv) (f : Found) : Except AsmFail Nat :=
  if (ks.get "guard").isSome then ks.one env "guard" 1 1 else .ok (if f.guarded then 1 else 0)

/-- Word +0x20: as written, or the bitmap of a card of policy 1 (R94). -/
def asmCode (ks : Keys) (env : AsmEnv) (f : Found) (p : Pass) (policy : Nat) : Except AsmFail Nat :=
  if (ks.get "code").isSome then ks.address env "code" 4096
  else .ok (if policy == 1 && f.guarded then (p.origin + BitVec.ofNat 64 f.bitmapAt).toNat else 0)

/-- Word +0x68 without its policy: as written, or what `.scratch` has reserved so far (R94). -/
def asmScratch (ks : Keys) (env : AsmEnv) (p : Pass) : Except AsmFail Nat :=
  if (ks.get "scratch").isSome then ks.one env "scratch" 0x2f800 64
  else if p.scratch ≤ 0x2f800 then .ok p.scratch
  else .error .range

/-- Word +0x38: present when REPLICA is 1, zero otherwise (R94, Table 19-1). -/
def asmReplica (ks : Keys) (env : AsmEnv) : Except AsmFail Nat := do
  let rep ← ks.one env "replica" 1 1
  let r ← ks.address env "rdesc" 32
  if rep == 1 && (ks.get "rdesc").isNone then .error .key
  else if rep == 0 && r != 0 then .error .range
  else .ok r

/-- The 128 bytes of a card, and its placement map if it has one (R94, Table 19-1). -/
def asmCard (p : Pass) (f : Found) (env : AsmEnv) (ks : Keys) : Except AsmFail (List Byte × Option (DWord × Nat)) := do
  let kind ← asmKind ks
  if foreignKey kind ks then .error .key
  else
    let (k0, k1, map) ← match kind with
      | 1 => (asmGrid ks env p).map fun w => (w.1, w.2, none)
      | 2 => (asmBatch ks env).map fun w => (w.1, w.2, none)
      | 3 => asmPlaced ks env p
      | _ => .ok (0, 0, none)
    let policy ← asmPolicy ks env f
    let scratch ← asmScratch ks env p
    let word (n : Nat) : List Byte := wordBytes 8 n
    .ok (word (← asmWord0 ks env) ++ (← asmFeatures ks env) ++ word (← asmEntry ks env) ++ word (← asmCode ks env f p policy) ++
      word k0 ++ word k1 ++ word (← asmReplica ks env) ++ word (← ks.address env "args" 1) ++ word (← asmDeps ks env) ++
      word (← ks.address env "completion" 64) ++ word (← asmRoute ks env) ++ word (← ks.address env "spill" 4096) ++
      word (scratch + policy * 2 ^ 32) ++ List.replicate 16 0#8, map)

/-! ## Tensor descriptors (R94, Table 13-3) -/

def tensorKeys : List String := ["format", "rows", "cols", "stride", "base", "block", "scale"]

/-- The names of Table 7-6, from code 0 on. -/
def formatNames : List String :=
  ["FP32", "FR19", "BF16", "FP16", "E5M2", "E4M3", "E3M2", "E2M3", "E2M1", "INT8", "N8", "INT4", "N4", "INT2", "MXFP8-E5M2",
    "MXFP8-E4M3", "MXFP6-E3M2", "MXFP6-E2M3", "MXFP4", "MXINT8", "A4/32", "A4/16", "F4S8", "Q4G", "Q4Z", "Q8R", "F32X3", "INT16"]

/-- A name in lower case. -/
def lowerCase (s : String) : String :=
  String.ofList (s.toList.map fun c => if 'A' ≤ c && c ≤ 'Z' then Char.ofNat (c.toNat + 32) else c)

/-- Whether tokens spell a name, in capitals or in lower case (R94). -/
def spells (ts : List Tok) (s : String) : Bool :=
  match lex s, lex (lowerCase s) with
  | .ok a, .ok b => ts == a || ts == b
  | _, _ => false

/-- FORMAT: a name of Table 7-6 or a code that is not reserved (R94, R106). -/
def asmFormat (ks : Keys) (env : AsmEnv) : Except AsmFail Nat :=
  match (ks.get "format").bind fun ts => formatNames.findIdx? (spells ts) with
  | some n => .ok n
  | none => ks.one env "format" 0x1b 1

/-- The 32 bytes of a descriptor (Table 13-3). -/
def asmTensor (env : AsmEnv) (ks : Keys) : Except AsmFail (List Byte) := do
  .ok (wordBytes 8 ((← asmFormat ks env) + (← ks.one env "block" 0xff 1) * 2 ^ 24 + (← ks.one env "rows" 0xffff 1) * 2 ^ 32 +
      (← ks.one env "cols" 0xffff 1) * 2 ^ 48) ++
    wordBytes 8 (← ks.address env "base" 1) ++ wordBytes 8 (← ks.one env "stride" 0xffffffff 1) ++ wordBytes 8 (← ks.address env "scale" 1))

/-! ## Lines -/

/-- A line of an open block: a key, or its end (R94). -/
def Pass.blockLine (p : Pass) (f : Found) (settled : Bool) (b : Block) (ts : List Tok) : Except AsmFail Pass :=
  let env := p.env f settled
  match ts, b with
  | [], _ => .ok p
  | [.word ".end"], .card ks =>
    if settled then do
      let (bs, map) ← asmCard p f env ks
      let maps := match map, p.region with
        | some (a, n), some (cw, ch) => ⟨p.line, a, n, cw, ch⟩ :: p.maps
        | _, _ => p.maps
      .ok { p.emit bs with block := none, maps := maps }
    else .ok { p.emit (List.replicate 128 0#8) with block := none }
  | [.word ".end"], .tensor ks =>
    if settled then do
      let bs ← asmTensor env ks
      .ok { p.emit bs with block := none }
    else .ok { p.emit (List.replicate 32 0#8) with block := none }
  | .word k :: .mark '=' :: v, .card ks =>
    if cardKeys.contains k && (ks.get k).isNone then .ok { p with block := some (.card ((k, v) :: ks)) } else .error .key
  | .word k :: .mark '=' :: v, .tensor ks =>
    if tensorKeys.contains k && (ks.get k).isNone then .ok { p with block := some (.tensor ((k, v) :: ks)) } else .error .key
  | _, _ => .error .statement

/-- A bundle at the current location: eight zero bytes while the symbols are being settled. -/
def Pass.bundle (p : Pass) (f : Found) (settled : Bool) (ts : List Tok) : Except AsmFail Pass :=
  if p.inData then .error .place
  else if settled then do
    let w ← assembleBundle (p.env f settled) ts
    .ok (p.emit (bytesOfWord w.1 ++ bytesOfWord w.2))
  else .ok (p.emit (List.replicate 8 0#8))

/-- The statement of a line. -/
def Pass.statement (p : Pass) (f : Found) (settled : Bool) (ts : List Tok) : Except AsmFail Pass :=
  match ts with
  | [] => .ok p
  | .word s :: r => if s.toList.head? == some '.' then p.directive f settled s (operandsOf r) else p.bundle f settled ts
  | _ => p.bundle f settled ts

/-- A line: a label, a statement and a comment, each optional (R87). -/
def Pass.readLine (p : Pass) (f : Found) (settled : Bool) (s : String) : Except AsmFail Pass := do
  let ts ← lex s
  match p.block, ts with
  | some b, _ => p.blockLine f settled b ts
  | none, .word l :: .mark ':' :: r => do
    let q ← p.define l (p.here f)
    q.statement f settled r
  | none, _ => p.statement f settled ts

/-- Reads the lines of a source. Until the symbols have settled a line in error is passed over; then it ends the pass, with
its number. DESIGN CHOICE (log 117): a source that ends inside a .card or .tensor block is in error. -/
def Pass.run (f : Found) (settled : Bool) : Pass → List String → Except (Nat × AsmFail) Pass
  | p, [] => if settled && p.block.isSome then .error (p.line, .statement) else .ok p
  | p, s :: r =>
    let q := { p with line := p.line + 1 }
    match q.readLine f settled s with
    | .ok q' => if q'.ended then .ok q' else Pass.run f settled q' r
    | .error e => if settled then .error (q.line, e) else Pass.run f settled q r

/-! ## The image (R93, R94) -/

/-- Goes over the source until what a pass finds is what it was read against. -/
def settleNames (src : List String) : Nat → Found → Option Found
  | 0, _ => none
  | n + 1, f =>
    match Pass.run f false (Pass.start f.origin) src with
    | .ok p => if p.found = f then some f else settleNames src n p.found
    | .error _ => none

/-- The flat little-endian image of a source, and its symbols. -/
structure AsmImage where
  origin : DWord
  bytes : List Byte
  syms : Symbols
  deriving DecidableEq, Repr

/-- The guard bitmap: bit g is set for each granule g that a guard occupies, bit 0 of byte 0 first (R94). -/
def guardBitmap (granules : List Nat) : List Byte :=
  (List.range 384).map fun i =>
    BitVec.ofNat 8 (((List.range 8).filter fun b => granules.contains (8 * i + b)).foldl (fun acc b => acc + 2 ^ b) 0)

/-- Whether a placement map that lies in the image names only clusters of its region (Table 5-14). -/
def mapInside (origin : DWord) (bytes : List Byte) (c : MapCheck) : Bool :=
  let off := (c.addr - origin).toNat
  off + 2 * c.count > bytes.length ||
    (List.range c.count).all fun i =>
      let e := (bytes.getD (off + 2 * i) 0#8).toNat
      e % 16 < c.cw && e / 16 < c.ch

/-- The image of a settled pass: .text, .data at the next 64-byte boundary, the bitmap at the next 4 KiB boundary. -/
def imageOf (p : Pass) : Except (Nat × AsmFail) AsmImage :=
  let f := p.found
  let base := p.text.reverse ++ List.replicate (f.dataAt - f.textLen) 0#8 ++ p.data.reverse
  let bytes :=
    if f.guarded then base ++ List.replicate (f.bitmapAt - base.length) 0#8 ++ guardBitmap p.granules else base
  match p.maps.reverse.find? fun c => !mapInside p.origin bytes c with
  | some c => .error (c.line, .range)
  | none => .ok ⟨p.origin, bytes, p.syms⟩

/-- `wennas`: the image of a source, or the first line in error and what is wrong with it (R87 to R94). -/
def assemble (src : List String) : Except (Nat × AsmFail) AsmImage :=
  match settleNames src (src.length + 2) ⟨[], [], 0#64, 0, 0, false⟩ with
  | none => .error (0, .unsettled)
  | some f =>
    match Pass.run f true (Pass.start f.origin) src with
    | .ok p => imageOf p
    | .error e => .error e

end Sys2Proof.Machine
end

