-- ==== Sys2Proof/Safety.lean ====
section
/-! DEFINITION. What counts as a safe run, and the terms in which claims speak of one step: every step answers a next state,
since every trap of the manual is one (R284), and every memory keeps its canonical form. -/

namespace Sys2Proof.Machine

/-! ## Memories -/

/-- Every byte memory of a tile is in canonical form. -/
def Tile.memsOk (tl : Tile) : Bool := memWf tl.sp && memWf tl.ver

/-- Every byte memory of the machine is in canonical form: edge memory, host memories, scratchpads with their versions, quad
local memories, and those in context save areas. -/
def State.memsOk (s : State) : Bool :=
  memWf s.edge && s.ports.all (fun p => memWf p.2.mem) && s.tiles.all (fun e => e.2.memsOk) &&
    s.quads.all (fun e => memWf e.2.ql) &&
    s.areas.all (fun e => e.2.tiles.all (fun u => u.2.memsOk) && e.2.ql.all fun u => memWf u.2)

/-- A step that is safe: it answers a next state whose memories are in canonical form. -/
def safeStep (s : State) : Prop := ∃ t, step s = .next t ∧ t.memsOk = true

/-- A byte of one of the machine's memories: edge memory, host memory of a port, a scratchpad, the version bytes of a
scratchpad, a quad local memory. -/
inductive ByteAt where
  | edge (a : Nat)
  | host (port a : Nat)
  | sp (tile a : Nat)
  | version (tile a : Nat)
  | ql (quad a : Nat)
  deriving DecidableEq, Repr

/-- What a byte reads as. -/
def byteAt (s : State) (b : ByteAt) : Byte :=
  match b with
  | .edge a => memGet s.edge a
  | .host p a => memGet (portAt s p).mem a
  | .sp t a => memGet (tileOf s t).sp a
  | .version t a => memGet (tileOf s t).ver a
  | .ql q a => memGet (quadAt s q).ql a

/-- Every byte of every memory reads as before. -/
def SameBytes (s t : State) : Prop := ∀ b, byteAt t b = byteAt s b

/-- Where the next entry of the pool of a die stands, in edge memory (R289; log 127). -/
def poolEntry (s : State) (d : Nat) : Nat :=
  (dieAt s d).fpbase.toNat + 8 * ((dieAt s d).fpnext % (dieAt s d).fpsize.toNat)

/-- Between `s` and `t` a frame has joined the pool of die `d`: the list holds it, and its entry of the ring holds its address unless
the home holds the write back or merges nothing into a damaged granule; every other byte reads as before (R289; log 127). -/
structure JoinsPool (s t : State) (d : Nat) (addr : DWord) : Prop where
  pool : (dieAt t d).fp = (dieAt s d).fp ++ [addr]
  others : s.memsOk = true → ∀ b, (∀ j, j < 8 → b ≠ .edge (poolEntry s d + j)) → byteAt t b = byteAt s b
  entry : s.memsOk = true → homeLine s (poolEntry s d) 8 = none → badMerge s (poolEntry s d) 8 = false →
    ∀ j, j < 8 → byteAt t (.edge (poolEntry s d + j)) = addr.extractLsb' (8 * j) 8

/-- The byte `j` places on from a place that an access reaches. -/
def placeByte (p : Place) (j : Nat) : ByteAt :=
  match p with
  | .sp t o => .sp t (o + j)
  | .ql q o => .ql q (o + j)
  | .gl (.edge a) _ => .edge (a + j)
  | .gl (.host q a) _ => .host q (a + j)
  | .gl .nowhere _ => .edge (2 ^ 64 + j)

/-- Access `a` in flight may be performed at place `p`: nothing keeps it, no guard granule or damage meets it, no host agent
holds its line and no port's tags are used up, and its launch runs without a replica. -/
structure Performs (s : State) (a : Access) (p : Place) : Prop where
  here : s.accs.find? (fun b => b.id == a.id) = some a
  may : mayPerform s a = true
  free : a.guard = .free
  at_ : reach s a = .at p
  exists_ : ∀ ty, p ≠ .gl .nowhere ty
  noGuard : ∀ t o, p = .sp t o → guardTouched s t o a.n = false
  sound : damaged s p a.n = false
  parity : ∀ t o, p = .sp t o → badVersion s t o = false
  noHost : waitsForHost s a p = none
  noRefusal : hostAtomic a p = false
  tags : portBusy s a p = false
  noReplica : replicaOf s a.tile a.ea = none

/-- The access numbered `id` has this result in `t`. -/
def HasResult (t : State) (id : Nat) (r : AccResult) : Prop := ∀ a ∈ t.accs, a.id = id → a.res = some r

/-! ## What one instruction leaves -/

/-- `t` differs from `s` in one tile at most, and in what `exec` is carrying out. -/
structure OnlyTile (n : Nat) (s t : State) : Prop where
  rest : { t with tiles := s.tiles, cur := s.cur } = s
  others : ∀ u, u ≠ n → tileOf t u = tileOf s u

/-- `t` is `s` after its bundle has issued: the loops and the PC are as given, the bundle no longer stands pushed, SKIPBP is
used up, a stepped task has issued its bundle, its line is the newest used of the fetch buffer, and the tile's counters, its
last issue and its tagged sample may have moved; nothing else has changed. -/
structure BundleIssued (s t : State) (lc : Vector Loop 2) (pc : DWord) : Prop where
  only : OnlyTile s.cur.tile s t
  acting : t.cur = { s.cur with went := true }
  tile : { curTile t with
    task := (curTile s).task, lines := (curTile s).lines, lastIssue := (curTile s).lastIssue,
    counters := (curTile s).counters, gap := (curTile s).gap, mark := (curTile s).mark } = curTile s
  lines : (curTile t).lines = touchLine (curTile s).lines s.cur.pc
  last : (curTile t).lastIssue = some (s.clk, s.cur.pc)
  task : curTask t = { curTask s with
    lc := lc, pc := pc, xpushed := false, skipbp := false,
    stepping := if (curTask s).stepping == .armed then .issued else (curTask s).stepping }

/-- `t` is `s` after its bundle has issued and control has fallen through, with the hardware loops (R65, R130). -/
def FellThrough (s t : State) : Prop :=
  BundleIssued s t (loopNext (curTask s).lc s.cur.pc).1 (loopNext (curTask s).lc s.cur.pc).2

/-- `t` is `s` after its bundle has issued and control has moved to `pc`; the loops are left alone (R128). -/
def MovedTo (s t : State) (pc : DWord) : Prop := BundleIssued s t (curTask s).lc pc

/-- Instruction `i` at `s` completes with `s'` as its own effect and falls through. -/
def Completes (i : Instr) (s s' : State) : Prop := ∃ t, exec i s = .next t ∧ FellThrough s' t

/-- Instruction `i` at `s` completes with `s'` as its own effect and moves control to `pc`. -/
def Jumps (i : Instr) (s s' : State) (pc : DWord) : Prop := ∃ t, exec i s = .next t ∧ MovedTo s' t pc

/-- A task after its bundle at `pc` has issued and control has fallen through. -/
def afterIssue (k : Task) (pc : DWord) : Task :=
  { k with
    lc := (loopNext k.lc pc).1, pc := (loopNext k.lc pc).2, xpushed := false, skipbp := false,
    stepping := if k.stepping == .armed then .issued else k.stepping }

/-- `t` is `s` after a bundle that has sent access `a` on its way and left the task `k`; nothing else has changed but the
tile's counters, its last issue, the order of its fetch buffer and its tagged sample. -/
structure Sent (s t : State) (a : Access) (k : Task) : Prop where
  rest : { t with tiles := s.tiles, cur := s.cur, accs := s.accs, nextId := s.nextId } = s
  others : ∀ u, u ≠ s.cur.tile → tileOf t u = tileOf s u
  acting : t.cur = { s.cur with went := true }
  accs : t.accs = s.accs ++ [a]
  next : t.nextId = s.nextId + 1
  tile : { curTile t with
    task := (curTile s).task, lines := (curTile s).lines, lastIssue := (curTile s).lastIssue,
    counters := (curTile s).counters, gap := (curTile s).gap, mark := (curTile s).mark } = curTile s
  task : curTask t = k

/-- Instruction `i` at `s` sends access `a` and leaves the task `k`. -/
def SendsAccess (i : Instr) (s : State) (a : Access) (k : Task) : Prop := ∃ t, exec i s = .next t ∧ Sent s t a k

/-- `t` is `s` after a bundle that has put message `m` on its way and left the task `k`; nothing else has changed but the
tile's counters, its last issue, the order of its fetch buffer and its tagged sample. -/
structure SentMessage (s t : State) (m : Msg) (k : Task) : Prop where
  rest : { t with tiles := s.tiles, cur := s.cur, net := s.net, nextId := s.nextId } = s
  others : ∀ u, u ≠ s.cur.tile → tileOf t u = tileOf s u
  acting : t.cur = { s.cur with went := true }
  net : t.net = s.net ++ [m]
  next : t.nextId = s.nextId + 1
  tile : { curTile t with
    task := (curTile s).task, lines := (curTile s).lines, lastIssue := (curTile s).lastIssue,
    counters := (curTile s).counters, gap := (curTile s).gap, mark := (curTile s).mark } = curTile s
  task : curTask t = k

/-- Instruction `i` at `s` sends message `m` and leaves the task `k`. -/
def SendsMessage (i : Instr) (s : State) (m : Msg) (k : Task) : Prop := ∃ t, exec i s = .next t ∧ SentMessage s t m k

/-- The message of the acting task with this channel, destination, guard and body (R18, R30). -/
def newMessage (s : State) (chan : Nat) (dst : BitVec 20) (g : Guard) (body : Body) : Msg :=
  { id := s.nextId, chan, src := s.cur.tile, dst, act := (curTask s).act, gtid := (curTask s).gtid,
    launch := launchOf s s.cur.tile, tag := tagOf s s.cur.tile, pc := s.cur.pc, guard := g, body }

/-- `t` is `s` after the acting task has suspended or ended: the tile stands as `v`, but for its counters, its last issue,
the order of its fetch buffer and its tagged sample; the cohorts are `cs`, the accesses in flight `as_`; nothing else has changed
but the numbering. -/
structure GaveUp (s t : State) (v : Tile) (cs : SMap Cohort) (as_ : List Access) : Prop where
  rest : { t with tiles := s.tiles, cur := s.cur, nextId := s.nextId, cohorts := s.cohorts, accs := s.accs } = s
  accs : t.accs = as_
  others : ∀ u, u ≠ s.cur.tile → tileOf t u = tileOf s u
  next : s.nextId ≤ t.nextId
  cohorts : t.cohorts = cs
  tile : { curTile t with
    lines := v.lines, lastIssue := v.lastIssue, counters := v.counters, gap := v.gap, mark := v.mark } = v

/-- Nothing keeps a suspension from happening: everything that must leave the tile has left, no fault is logged for the
task, and it is not under a single step (R39, R135, R217, R295). -/
structure MaySuspend (s : State) : Prop where
  left : settled s s.cur.tile = true
  noFault : reportable s s.cur.tile = []
  notStepped : (curTask s).stepping ≠ .armed

/-- The command that the acting task captures at issue (R180). -/
def captured (s : State) (g : BitVec 3) (body : Instr) (descs : List Desc) (regs : List DWord) : Cmd :=
  { id := s.nextId, issued := s.nextId, act := (curTask s).act, gtid := (curTask s).gtid, pc := s.cur.pc, guard := bindGuard s g, body, descs,
    regs }

/-- Instruction `i` queues command `c` in the matrix array's queue; one whose generation is false queues nothing (R55,
R180). -/
def QueuesMatrix (i : Instr) (s : State) (c : Cmd) : Prop :=
  (c.guard ≠ .discarded → Completes i s
    (setCurTile { s with nextId := s.nextId + 1 } { curTile s with matq := (curTile s).matq ++ [c] })) ∧
  (c.guard = .discarded → Completes i s s)

/-- Instruction `i` hands copy command `c` with its follow-on to the stream engine, charging `bytes` to the barrier that k3
names where it is charged; one whose generation is false does nothing (R55, R197, R199). -/
def QueuesCopy (i : Instr) (s : State) (c : Cmd) (charged : BitVec 1) (bytes : Nat) (follow : Option Cmd) : Prop :=
  let bar := (curTask s).k[3].toNat % 32
  let s1 := if charged = 1#1 then addPend s s.cur.tile bar (BitVec.ofNat 56 bytes) else s
  let e : Copy :=
    { cmd := c, charge := if charged = 1#1 then some bar else none, left := bytes, got := 0, ended := [], took := [], follow,
      landed := false }
  (c.guard ≠ .discarded → Completes i s
    (setTile { s1 with nextId := s1.nextId + 1 } s.cur.tile
      { tileOf s1 s.cur.tile with copies := (tileOf s1 s.cur.tile).copies ++ [e] })) ∧
  (c.guard = .discarded → Completes i s s)

/-- An engine has met no fault and no damaged data. -/
def Eng.clean (e : Eng) : Prop := e.fault = none ∧ e.bad = false

/-- The array of tile `t` may carry out command `c` at the head of its queue, with `r` behind it (R180, R192, R196). -/
structure ArrayGoes (s : State) (t : Nat) (c : Cmd) (r : List Cmd) : Prop where
  goes : (tileOf s t).halt ≠ .preempt true
  head : (tileOf s t).matq = c :: r
  idle : (tileOf s t).forwarding = none
  free : c.guard = .free
  seen : pushSeen s t c = true

/-- The quad vector unit binds a unit of tile `t` now, of its chain queue or of its long queue, which leaves `s1`: one is ready, it
is the queue's turn, no line that the chain writes is a host's, and the tile has the credit (R256, R277). -/
structure UnitGoes (s : State) (t : Nat) (chain : Bool) (s1 : State) : Prop where
  ready : unitReady s t chain = true
  turn : turnOf s t chain = true
  lines : chain = true → chainAwaits s t = none
  binds : bindUnit s t = some s1

/-- The guard slot, the a-registers and the tensor entries that a command names, in field order; `none` for what names no entry
(R181, R202). -/
def namesEntries (s : State) (i : Instr) : Option (BitVec 3 × List (BitVec 4) × List (BitVec 6)) :=
  match i with
  | .mma f => some (f.g, [f.k], [f.a, f.b])
  | .mmaBl f => some (f.g, [], [f.a])
  | .mmaR f => some (f.g, [], [f.a])
  | .mld f => some (f.g, [], [f.s])
  | .mldBl f => some (f.g, [f.k.setWidth 4], [f.b])
  | .mst f => some (f.g, [], [f.d])
  | .cpy f | .cpyT f => some (f.g, [], [f.d, f.s])
  | .cpyG f | .cpyS f => some (f.g, [], [f.d, f.s, f.i])
  | .cpyM f => some (f.g, [f.r.setWidth 4], [f.d, f.s])
  | .cpyMma f =>
    let names := ((followBody (kReg s f.n.toNat)).map followNames).getD ([], [])
    some (f.g, names.1, [f.d, f.s] ++ names.2)
  | .strm f => some (f.g, [f.s.setWidth 4], [f.d])
  | .chain f => some (f.g, [], [f.d, f.s] ++ if f.f = 1#1 then [f.t] else [])
  | .kbinAdd f => some (0#3, [], [f.b])
  | .kbinApp f => some (0#3, [], [f.b])
  | .ksend f => some (f.g, [f.k.setWidth 4, f.r.setWidth 4], [f.s])
  | .coll f | .collRed f => some (f.g, [f.r.setWidth 4], [f.d, f.s])
  | _ => none

/-- What an atomic does at issue with access `a` and RES `res`: it sends the access, with an entry of lq0 or lq1 reserved where
RES asks for one, and holds later accesses where it is an acquire; where its generation is false it sends nothing and its
entry holds zero (R136, R137, R150). -/
def AtomicIssued (i : Instr) (s : State) (a : Access) (res : BitVec 2) : Prop :=
  let k := curTask s
  let q : BitVec 1 := if res = 2#2 then 1#1 else 0#1
  let hold := if a.ord = 0#3 then k.hold else some (.access s.nextId)
  (a.guard ≠ .discarded → res = 0#2 →
    SendsAccess i s { a with id := s.nextId } { afterIssue k s.cur.pc with hold := hold }) ∧
  (a.guard ≠ .discarded → res ≠ 0#2 → (k.lq q).length < 8 →
    SendsAccess i s { a with id := s.nextId, dest := .lq q (k.lqTail q) }
      { afterIssue (k.pushLq q (.waiting s.nextId)) s.cur.pc with hold := hold }) ∧
  (a.guard = .discarded → res = 0#2 → Completes i s (setCurTask s k)) ∧
  (a.guard = .discarded → res ≠ 0#2 → (k.lq q).length < 8 → Completes i s (setCurTask s (k.pushLq q (.data 0#256))))

/-- `t` is `s` after the X instruction at the head of the queue has completed: it has left the queue, and the tile's counters and
its tagged sample may have moved; nothing else has changed. -/
structure XLeft (s t : State) : Prop where
  only : OnlyTile s.cur.tile s t
  acting : t.cur = s.cur
  tile : { curTile t with
    task := (curTile s).task, counters := (curTile s).counters, mark := (curTile s).mark } = curTile s
  task : curTask t = { curTask s with xinstr := (curTask s).xinstr.drop 1, xbusy := false, taken := [] }

/-- X instruction `i` at `s` completes with `s'` as its own effect. -/
def XCompletes (i : Instr) (s s' : State) : Prop := ∃ t, exec i s = .next t ∧ XLeft s' t

/-- The execute side finds the sources `va` and `vb` of the X instruction it runs, which leaves `s1`, and the instruction's
guard is true (R152). -/
structure Takes (s s1 : State) (pg : BitVec 3) (a b : Operand) (va vb : Vec) : Prop where
  got : takeSources s a b = .got s1 va vb
  guard : (curTask s1).getP pg = true

/-- Event `i` at `s` answers exactly `t`. -/
def Becomes (i : Instr) (s t : State) : Prop := exec i s = .next t

/-- `t` is `s` with the task of tile `n` stopped by a trap, and nothing else. -/
def Stops (n : Nat) (s t : State) (i : TrapInfo) : Prop := t = setTile s n { tileOf s n with run := .stopping i }

/-- The registers named are ready to be read (R142, R143). -/
abbrev ReadyA (s : State) (rs : List (BitVec 4)) : Prop := ∀ n ∈ rs, statusA s n = .ready

/-- No load of the task is still to write a register named (R142). -/
abbrev FreeA (s : State) (rs : List (BitVec 4)) : Prop := ∀ n ∈ rs, (statusA s n).isPending = false

/-- Nothing keeps an access or command under a guard slot from issuing: no acquire or fence is in progress, fewer than 64
commands are held, the replay queue and its overflow have room (R55, R135, R136). -/
structure MayGo (s : State) (slot : BitVec 3) : Prop where
  order : holding s (curTask s) = false
  held : (bindGuard s slot).isBound = false ∨ heldCount s s.cur.tile < 64
  room : (curTile s).replay.length + inFlight s s.cur.tile < 256

/-- The copy commands, whose charge may complete a phase of the summed barrier and so write its record to a ring (R199, R335). -/
def mayCharge (i : Instr) : Bool :=
  match i with
  | .cpy _ | .cpyT _ | .cpyG _ | .cpyS _ | .cpyM _ | .cpyMma _ | .strm _ => true
  | _ => false

end Sys2Proof.Machine
end

