-- ==== Sys2Proof/Certificates/Slice0/Obligations.lean ====
section
/-! DEFINITION. The statements about the model, one definition of type Prop for each. The terms they use stand in
Sys2Proof/Safety.lean: `Completes i s s'` says that instruction `i` at `s` answers the state that follows from its own effect
`s'` once its bundle has issued and control has fallen through; `Jumps` the same with control moved; `XCompletes` the same
for the execute side; `Becomes` gives the next state itself. -/

open Sys2Proof Sys2Proof.Machine


/-- R85, R146: the no-operations and the hints of both classes change no architectural state: the bundle issues and control
falls through, or the X instruction leaves its queue. -/
def Claims.HintsChangeNothing : Prop :=
  ∀ s : State, Completes .nopA s s ∧ (∀ f, Completes (.hintA f) s s) ∧ (∀ f, Completes (.prefGl f) s s) ∧
    (∀ f, Completes (.prefQl f) s s) ∧ XCompletes .nopX s s ∧ ∀ f, XCompletes (.hintX f) s s

/-- R123, R124: where a jump, call or register jump goes, and the link that a call writes. -/
def Claims.JumpsAndCalls : Prop :=
  ∀ s : State,
    (∀ f : FAJ, Jumps (.jmp f) s s (s.cur.pc + 8#64 * (f.o.signExtend 64 + s.cur.ext.signExtend 64))) ∧
    (∀ f : FAJ, FreeA s [15#4] → Jumps (.call f) s (wrA s 15#4 (s.cur.pc + 8#64))
      (s.cur.pc + 8#64 * (f.o.signExtend 64 + s.cur.ext.signExtend 64))) ∧
    (∀ f : FJr, ReadyA s [f.a] → (rdA s f.a).toNat % 8 = 0 → Jumps (.jr f) s s (rdA s f.a)) ∧
    ∀ f : FCallr, ReadyA s [f.a] → FreeA s [f.d] → (rdA s f.a).toNat % 8 = 0 →
      Jumps (.callr f) s (wrA s f.d (s.cur.pc + 8#64)) (rdA s f.a)

/-- R124: a register jump to an address whose bits 2:0 are not all zero raises ALIGN precisely at its bundle: no register is
written and control does not move. -/
def Claims.MisalignedJumpTraps : Prop :=
  ∀ s : State,
    (∀ f : FJr, ReadyA s [f.a] → (rdA s f.a).toNat % 8 ≠ 0 → Becomes (.jr f) s (preciseTrap s .align (rdA s f.a) 0#64)) ∧
    ∀ f : FCallr, ReadyA s [f.a] → FreeA s [f.d] → (rdA s f.a).toNat % 8 ≠ 0 →
      Becomes (.callr f) s (preciseTrap s .align (rdA s f.a) 0#64)

/-- R85, R146, R123, R124: Hints change nothing; where jumps and calls go, and where they trap: `Claims.HintsChangeNothing`,
`Claims.JumpsAndCalls`, `Claims.MisalignedJumpTraps`. -/
def Obligations.HintsJumpsAndCalls : Prop :=
  Claims.HintsChangeNothing ∧ Claims.JumpsAndCalls ∧ Claims.MisalignedJumpTraps

/-- R125: each compare branch goes to its target when its condition holds of the two registers, and falls through when it
does not. -/
def Claims.CompareBranches : Prop :=
  ∀ (s : State) (f : FAB), ReadyA s [f.a, f.b] →
    let x := rdA s f.a
    let y := rdA s f.b
    ∀ c ∈ [(Instr.beq f, decide (x = y)), (.bne f, decide (x ≠ y)), (.blt f, decide (x.toInt < y.toInt)),
        (.bge f, decide (y.toInt ≤ x.toInt)), (.bltu f, decide (x.toNat < y.toNat)), (.bgeu f, decide (y.toNat ≤ x.toNat))],
      (c.2 = true → Jumps c.1 s s (s.cur.pc + 8#64 * (f.o.signExtend 64 + s.cur.ext.signExtend 64))) ∧
        (c.2 = false → Completes c.1 s s)

/-- R127: a branch on a guard slot takes the newest generation that an earlier bundle opened, consumes nothing, and for slot
0 takes the value true. -/
def Claims.GuardBranches : Prop :=
  ∀ (s : State) (f : FAG) (v : Bool), (f.s = 0#3 → v = true) → (f.s ≠ 0#3 → (newestGen s f.s).2 = some v) →
    ∀ c ∈ [(Instr.bgd f, v), (.bngd f, !v)],
      (c.2 = true → Jumps c.1 s s (s.cur.pc + 8#64 * (f.o.signExtend 64 + s.cur.ext.signExtend 64))) ∧
        (c.2 = false → Completes c.1 s s)

/-- R125, R127: Each compare branch and each guard branch goes to its target by its condition: `Claims.CompareBranches`,
`Claims.GuardBranches`. -/
def Obligations.CompareAndGuardBranches : Prop :=
  Claims.CompareBranches ∧ Claims.GuardBranches

/-- R126: the four branches on xq, in format AX. Each waits while xq is empty; else it consumes the head entry whether or not it
branches, and branches by its sign or zero. An entry that the X word of its own bundle pushes stands there before it. -/
def Obligations.QueueBranches : Prop :=
  (∀ (s : State) (f : FAX) (v : DWord) (r : List DWord), (curTask s).xq = v :: r →
    let s' := setCurTask s { curTask s with xq := r }
    ∀ c ∈ [(Instr.bxz f, decide (v = 0#64)), (.bxnz f, decide (v ≠ 0#64)), (.bxlt f, decide (v.toInt < 0)),
        (.bxge f, decide (0 ≤ v.toInt))],
      (c.2 = true → Jumps c.1 s s' (s.cur.pc + 8#64 * (f.o.signExtend 64 + s.cur.ext.signExtend 64))) ∧
        (c.2 = false → Completes c.1 s s')) ∧
  (∀ (s : State) (f : FAX), (curTask s).xq = [] →
    ∀ i ∈ [Instr.bxz f, .bxnz f, .bxlt f, .bxge f], Becomes i s (waitBranch s)) ∧
  (∀ s : State, let t := waitBranch s
    OnlyTile s.cur.tile s t ∧ t.cur = s.cur ∧ (curTile t).run = (curTile s).run ∧
      curTask t = { curTask s with xpushed := s.cur.pushed || (curTask s).xpushed }) ∧
  ∀ (c : BitVec 3) (o : BitVec 19) (e : Word), let w := decodeWords (2#2 ++ 0x09#8 ++ c ++ o) e
    (c = 0#3 → w = .ok (.loneA (.bxz ⟨o⟩) e)) ∧ (c = 1#3 → w = .ok (.loneA (.bxnz ⟨o⟩) e)) ∧
    (c = 2#3 → w = .ok (.loneA (.bxlt ⟨o⟩) e)) ∧ (c = 3#3 → w = .ok (.loneA (.bxge ⟨o⟩) e)) ∧
    (4 ≤ c.toNat → w = .error .reservedA)

/-- R129: `loop` arms its counter with the start, the end bundle and the count, and skips the body when the count is 0. -/
def Claims.LoopArmsCounter : Prop :=
  ∀ (s : State) (f : FAL), (f.r ≠ 0#4 → ReadyA s [f.r]) →
    let n : Word := if f.r = 0#4 then f.n.setWidth 32 + s.cur.ext else (rdA s f.r).setWidth 32
    let last := s.cur.pc + 8#64 * f.e.setWidth 64
    let l : Loop := { val := n, start := s.cur.pc + 8#64, last := last, count := n, active := decide (n ≠ 0#32) }
    let s' := setCurTask s { curTask s with lc := (curTask s).lc.set f.c.toFin l }
    (n = 0#32 → Jumps (.loop f) s s' (last + 8#64)) ∧ (n ≠ 0#32 → Completes (.loop f) s s')

/-- R65, R130: what the end of a bundle does with the hardware loops: away from an active end bundle nothing; at the end
bundle of lc0 alone it counts down and goes back, or reloads, and stays active only under an active lc1; at the end bundle of
lc1 it counts down and goes back, or both loops end. -/
def Claims.HardwareLoops : Prop :=
  ∀ (lc : Vector Loop 2) (pc : DWord),
    let at0 := lc[0].active && pc == lc[0].last
    let at1 := lc[1].active && pc == lc[1].last
    (at0 = false → at1 = false → loopNext lc pc = (lc, pc + 8#64)) ∧
    (at0 = true → lc[0].val ≠ 1#32 →
      loopNext lc pc = (#v[{ lc[0] with val := lc[0].val - 1#32 }, lc[1]], lc[0].start)) ∧
    (at0 = true → lc[0].val = 1#32 → at1 = false →
      loopNext lc pc = (#v[{ lc[0] with val := lc[0].count, active := lc[1].active }, lc[1]], pc + 8#64)) ∧
    (at1 = true → (at0 = true → lc[0].val = 1#32) → lc[1].val ≠ 1#32 → (loopNext lc pc).2 = lc[1].start ∧
      (loopNext lc pc).1[1] = { lc[1] with val := lc[1].val - 1#32 }) ∧
    (at1 = true → (at0 = true → lc[0].val = 1#32) → lc[1].val = 1#32 → (loopNext lc pc).2 = pc + 8#64 ∧
      (loopNext lc pc).1[0].active = false ∧ (loopNext lc pc).1[1] = { lc[1] with val := 0#32, active := false })

/-- R129, R65, R130: What loop arms and what the end of a bundle does with the loops: `Claims.LoopArmsCounter`,
`Claims.HardwareLoops`. -/
def Obligations.LoopsCount : Prop :=
  Claims.LoopArmsCounter ∧ Claims.HardwareLoops

/-- R131, Table 9-5: the register forms of address arithmetic, in format AR with bits 9:0 zero. Each writes its 64-bit result to
aD, which a0 discards, and none traps. -/
def Obligations.AddressArithmetic : Prop :=
  (∀ (s : State) (f : FAR), ReadyA s [f.a, f.b] → FreeA s [f.d] →
    let x := rdA s f.a
    let y := rdA s f.b
    ∀ c ∈ [(Instr.aadd f, x + y), (.asub f, x - y), (.aand f, x &&& y), (.aor f, x ||| y), (.axor f, x ^^^ y),
        (.ashl f, x <<< (y.toNat % 64)), (.ashr f, x >>> (y.toNat % 64)), (.asra f, x.sshiftRight (y.toNat % 64)),
        (.amul f, x * y), (.apeer f, (x &&& 0x3ffff#64) ||| ((y &&& 0xffff#64) <<< 32))],
      Completes c.1 s (wrA s f.d c.2)) ∧
  (∀ (s : State) (n : BitVec 4) (v : DWord), let k := curTask (wrA s n v)
    (n = 0#4 → k = curTask s) ∧ (n ≠ 0#4 → k = { curTask s with a := (curTask s).a.set n.toFin ⟨v, .ready⟩ })) ∧
  ∀ (d a b : BitVec 4) (z : BitVec 10),
    ∀ c ∈ [(0x10#8, Instr.aadd ⟨d, a, b⟩), (0x11#8, .asub ⟨d, a, b⟩), (0x12#8, .aand ⟨d, a, b⟩), (0x13#8, .aor ⟨d, a, b⟩),
        (0x14#8, .axor ⟨d, a, b⟩), (0x15#8, .ashl ⟨d, a, b⟩), (0x16#8, .ashr ⟨d, a, b⟩), (0x17#8, .asra ⟨d, a, b⟩),
        (0x18#8, .amul ⟨d, a, b⟩), (0x19#8, .apeer ⟨d, a, b⟩)],
      let w := decodeWords (2#2 ++ c.1 ++ d ++ a ++ b ++ z) 0#32
      (z = 0#10 → w = .ok (.loneA c.2 0#32)) ∧ (z ≠ 0#10 → w = .error .reservedA)

/-- R132, Table 9-6: the immediate forms of address arithmetic, in format AI. Each writes its result, formed from aA and the sum
of IMM14 and EXT, to aD; `ali` requires A to be 0, and `ali` followed by `alh` builds any 64-bit value; none traps. -/
def Obligations.ImmediateArithmetic : Prop :=
  (∀ s : State,
    (∀ f : FAI, ReadyA s [f.a] → FreeA s [f.d] →
      let x := rdA s f.a
      let v := f.i.signExtend 64 + s.cur.ext.signExtend 64
      ∀ c ∈ [(Instr.aaddi f, x + v), (.aandi f, x &&& v), (.aori f, x ||| v), (.axori f, x ^^^ v),
          (.ashli f, x <<< (v.toNat % 64)), (.ashri f, x >>> (v.toNat % 64)), (.asrai f, x.sshiftRight (v.toNat % 64)),
          (.alh f, (x &&& 0xffffffff#64) ||| ((v &&& 0xffffffff#64) <<< 32))],
        Completes c.1 s (wrA s f.d c.2)) ∧
    ∀ f : FAli, FreeA s [f.d] → Completes (.ali f) s (wrA s f.d (f.i.signExtend 64 + s.cur.ext.signExtend 64))) ∧
  (∀ v : DWord, ∃ i j : Word, (i.signExtend 64 &&& 0xffffffff#64) ||| ((j.signExtend 64 &&& 0xffffffff#64) <<< 32) = v) ∧
  ∀ (d a : BitVec 4) (i : BitVec 14) (e : Word),
    (∀ c ∈ [(0x20#8, Instr.aaddi ⟨d, a, i⟩), (0x21#8, .aandi ⟨d, a, i⟩), (0x22#8, .aori ⟨d, a, i⟩), (0x23#8, .axori ⟨d, a, i⟩),
        (0x24#8, .ashli ⟨d, a, i⟩), (0x25#8, .ashri ⟨d, a, i⟩), (0x26#8, .asrai ⟨d, a, i⟩), (0x28#8, .alh ⟨d, a, i⟩)],
      decodeWords (2#2 ++ c.1 ++ d ++ a ++ i) e = .ok (.loneA c.2 e)) ∧
    let w := decodeWords (2#2 ++ 0x27#8 ++ d ++ a ++ i) e
    (a = 0#4 → w = .ok (.loneA (.ali ⟨d, i⟩) e)) ∧ (a ≠ 0#4 → w = .error .reservedA)

/-- R134, R136, R141, R145: a load or touch at issue. It forms its address from BASE, OFF and EXT in units of its width, marks
its a-register as pending or reserves an entry of lq0 or lq1, and sends its access; a load with ORD not 0 is an acquire. -/
def Claims.LoadsIssue : Prop :=
  ∀ (s : State) (f : FLd),
    let n := widthBytes f.w
    let ea := rdA s f.b + (f.o.signExtend 64 + s.cur.ext.signExtend 64) * BitVec.ofNat 64 n
    let d : BitVec 4 := f.d.setWidth 4
    let q : BitVec 1 := f.d.setWidth 1
    let k := curTask s
    let hold := if f.r = 0#3 then k.hold else some (.access s.nextId)
    ReadyA s [f.b] → MayGo s 0#3 → ea.toNat % n = 0 →
    ∀ c ∈ [(Space.sp, Instr.ldSp f), (.pr, .ldPr f), (.ql, .ldQl f), (.gl, .ldGl f)],
      (f.d = 0#5 → SendsAccess c.2 s { newAccess s .touch c.1 ea n with id := s.nextId, ord := f.r }
        { afterIssue k s.cur.pc with hold := hold }) ∧
      (f.d ≠ 0#5 → f.d.toNat < 16 → FreeA s [d] →
        SendsAccess c.2 s { newAccess s .load c.1 ea n with id := s.nextId, ord := f.r, dest := .a d }
          { afterIssue (k.putA d ⟨rdA s d, .pending s.nextId⟩) s.cur.pc with hold := hold }) ∧
      (16 ≤ f.d.toNat → (k.lq q).length < 8 →
        SendsAccess c.2 s { newAccess s .load c.1 ea n with id := s.nextId, ord := f.r, dest := .lq q (k.lqTail q) }
          { afterIssue (k.pushLq q (.waiting s.nextId)) s.cur.pc with hold := hold })

/-- R54, R55, R134, R144: a store at issue takes its data from a register or from the head of sq and sends its access under
its guard; one whose generation is false sends nothing and keeps what it took from sq consumed. -/
def Claims.StoresIssue : Prop :=
  ∀ (s : State) (f : FSt),
    let n := widthBytes f.w
    let ea := rdA s f.b + (f.o.signExtend 64 + s.cur.ext.signExtend 64) * BitVec.ofNat 64 n
    let g := bindGuard s f.g
    MayGo s f.g → ea.toNat % n = 0 →
    ∀ c ∈ [(Space.sp, Instr.stSp f), (.pr, .stPr f), (.ql, .stQl f), (.gl, .stGl f)],
      ∀ (v : Vec) (k : Task),
        ((f.d ≠ 16#5 ∧ ReadyA s [f.b, f.d.setWidth 4] ∧ v = (rdA s (f.d.setWidth 4)).setWidth 256 ∧ k = curTask s) ∨
          (f.d = 16#5 ∧ ReadyA s [f.b] ∧ ∃ r, (curTask s).sq = v :: r ∧ k = { curTask s with sq := r })) →
        (g ≠ .discarded → SendsAccess c.2 s
          { newAccess s .store c.1 ea n with id := s.nextId, data := v, ord := f.r, guard := g } (afterIssue k s.cur.pc)) ∧
        (g = .discarded → Completes c.2 s (setCurTask s k))

/-- R134, R136, R137, R148-R150: an atomic or compare-and-swap at issue. Its address is a[BASE]; a delivered result reserves an
entry of lq0 or lq1; one with ORD not 0 is an acquire; one whose generation is false fills its reserved entry with zero. -/
def Claims.AtomicsIssue : Prop :=
  ∀ s : State,
    (∀ f : FAtom, let n := if f.w = 0#1 then 4 else 8
      ReadyA s [f.b, f.s] → MayGo s f.g → (rdA s f.b).toNat % n = 0 →
      ∀ c ∈ [(Space.sp, Instr.atomSp f), (.pr, .atomPr f), (.gl, .atomGl f)],
        AtomicIssued c.2 s { newAccess s (.atom f.p) c.1 (rdA s f.b) n with
          data := (rdA s f.s).setWidth 256, ord := f.r, guard := bindGuard s f.g } f.e) ∧
    ∀ f : FCas, let n := if f.w = 0#1 then 4 else 8
      ReadyA s [f.b, f.s, f.c] → MayGo s f.g → (rdA s f.b).toNat % n = 0 →
      ∀ c ∈ [(Space.sp, Instr.casSp f), (.pr, .casPr f), (.gl, .casGl f)],
        AtomicIssued c.2 s { newAccess s (.cas f.c) c.1 (rdA s f.b) n with
          data := (rdA s f.c).setWidth 256, data2 := rdA s f.s, ord := f.r, guard := bindGuard s f.g } f.e

/-- R134: a load, store or atomic whose address is not a multiple of its width raises ALIGN precisely at its bundle, whatever
its guard slot. -/
def Claims.MisalignedAccessTraps : Prop :=
  ∀ s : State,
    (∀ f : FLd, let ea := rdA s f.b + (f.o.signExtend 64 + s.cur.ext.signExtend 64) * BitVec.ofNat 64 (widthBytes f.w)
      ReadyA s [f.b] → (f.d.toNat < 16 → FreeA s [f.d.setWidth 4]) → MayGo s 0#3 → ea.toNat % widthBytes f.w ≠ 0 →
      ∀ i ∈ [Instr.ldSp f, .ldPr f, .ldQl f, .ldGl f], Becomes i s (preciseTrap s .align ea 0#64)) ∧
    (∀ f : FSt, let ea := rdA s f.b + (f.o.signExtend 64 + s.cur.ext.signExtend 64) * BitVec.ofNat 64 (widthBytes f.w)
      ReadyA s [f.b, f.d.setWidth 4] → MayGo s f.g → ea.toNat % widthBytes f.w ≠ 0 →
      ∀ i ∈ [Instr.stSp f, .stPr f, .stQl f, .stGl f], Becomes i s (preciseTrap s .align ea 0#64)) ∧
    (∀ f : FAtom, ReadyA s [f.b, f.s] → MayGo s f.g → (rdA s f.b).toNat % (if f.w = 0#1 then 4 else 8) ≠ 0 →
      ∀ i ∈ [Instr.atomSp f, .atomPr f, .atomGl f], Becomes i s (preciseTrap s .align (rdA s f.b) 0#64)) ∧
    ∀ f : FCas, ReadyA s [f.b, f.s, f.c] → MayGo s f.g → (rdA s f.b).toNat % (if f.w = 0#1 then 4 else 8) ≠ 0 →
      ∀ i ∈ [Instr.casSp f, .casPr f, .casGl f], Becomes i s (preciseTrap s .align (rdA s f.b) 0#64)

/-- R134, R136, R141, R145, R54, R55, R144, R137, R148, R149, R150: What loads, stores and atomics send at issue, and when they
trap: `Claims.LoadsIssue`, `Claims.StoresIssue`, `Claims.AtomicsIssue`, `Claims.MisalignedAccessTraps`. -/
def Obligations.AccessesIssue : Prop :=
  Claims.LoadsIssue ∧ Claims.StoresIssue ∧ Claims.AtomicsIssue ∧ Claims.MisalignedAccessTraps

/-- Tables 11-3 and 11-2, R98, R159, R160: the result of each integer form of two operands. -/
def Claims.IntegerResults : Prop :=
  ∀ (s s1 : State) (f : FXR) (va vb : Vec),
    Takes s s1 f.p (.field .scalar f.a) (.field .scalar f.b) va vb → roomScalar s1 f.d = true →
    let a : Word := va.setWidth 32
    let b : Word := vb.setWidth 32
    let clampI (z : Int) : Word := BitVec.ofInt 32 (max (-2147483648) (min 2147483647 z))
    let clampN (z : Int) : Word := BitVec.ofInt 32 (max 0 (min 4294967295 z))
    ∀ c ∈ [(Instr.add f, a + b), (.sub f, a - b), (.mul f, a * b),
        (.addsI32 f, clampI (a.toInt + b.toInt)), (.addsN32 f, clampN (a.toNat + b.toNat)),
        (.subsI32 f, clampI (a.toInt - b.toInt)), (.subsN32 f, clampN (a.toNat - b.toNat)),
        (.mulhI32 f, ((a.signExtend 64 * b.signExtend 64) >>> 32).setWidth 32),
        (.mulhN32 f, ((a.setWidth 64 * b.setWidth 64) >>> 32).setWidth 32),
        (.minI32 f, if a.toInt < b.toInt then a else b), (.minN32 f, if a.toNat < b.toNat then a else b),
        (.maxI32 f, if a.toInt < b.toInt then b else a), (.maxN32 f, if a.toNat < b.toNat then b else a),
        (.and f, a &&& b), (.or f, a ||| b), (.xor f, a ^^^ b), (.andn f, a &&& ~~~b),
        (.shl f, a <<< (b.toNat % 32)), (.shr f, a >>> (b.toNat % 32)), (.sra f, a.sshiftRight (b.toNat % 32)),
        (.rol f, (a <<< (b.toNat % 32)) ||| (a >>> (32 - b.toNat % 32)))],
      XCompletes c.1 s (writeScalar s1 f.d c.2)

/-- R98, R155, R160: division truncates and never traps; the bit-field forms and the counts. -/
def Claims.DivisionAndBits : Prop :=
  (∀ (s s1 : State) (f : FXR) (va vb : Vec),
    Takes s s1 f.p (.field .scalar f.a) (.field .scalar f.b) va vb → roomScalar s1 f.d = true →
    let a : Word := va.setWidth 32
    let b : Word := vb.setWidth 32
    let off := b.toNat % 64
    let wid := b.toNat / 256 % 64
    let n := min wid (32 - off)
    let empty := wid = 0 ∨ 32 ≤ off
    (∀ c ∈ [(Instr.divI32 f, if b = 0#32 then (if a.toInt < 0 then 0x80000000#32 else 0x7fffffff#32) else a.sdiv b),
        (.divN32 f, if b = 0#32 then 0xffffffff#32 else a / b), (.remI32 f, if b = 0#32 then a else a.srem b),
        (.remN32 f, if b = 0#32 then a else a % b),
        (.bfx f, if empty then 0#32 else BitVec.ofNat 32 (a.toNat / 2 ^ off % 2 ^ n))],
      XCompletes c.1 s (writeScalar s1 f.d c.2)) ∧
    ∃ r : Word, XCompletes (.bfi f) s (writeScalar s1 f.d r) ∧
      (empty → r = oldScalar s1 f.d 0#32) ∧
      (¬ empty → ∀ i, i < 32 → r.getLsbD i =
        if off ≤ i ∧ i < off + n then a.getLsbD (i - off) else (oldScalar s1 f.d 0#32).getLsbD i)) ∧
  ∀ (s s1 : State) (f : FXR1) (va vb : Vec), Takes s s1 f.p (.field .scalar f.a) .absent va vb → roomScalar s1 f.d = true →
    let a : Word := va.setWidth 32
    ∃ lz tz pc : Nat,
      XCompletes (.clz f) s (writeScalar s1 f.d (BitVec.ofNat 32 lz)) ∧
      XCompletes (.ctz f) s (writeScalar s1 f.d (BitVec.ofNat 32 tz)) ∧
      XCompletes (.popc f) s (writeScalar s1 f.d (BitVec.ofNat 32 pc)) ∧
      lz ≤ 32 ∧ (∀ i, i < lz → a.getLsbD (31 - i) = false) ∧ (lz < 32 → a.getLsbD (31 - lz) = true) ∧
      tz ≤ 32 ∧ (∀ i, i < tz → a.getLsbD i = false) ∧ (tz < 32 → a.getLsbD tz = true) ∧
      pc = ((List.range 32).filter fun i => a.getLsbD i).length

/-- R98, R159, R160, Table 11-3, Table 11-2, R155: The result of each integer form of two operands and of one:
`Claims.IntegerResults`, `Claims.DivisionAndBits`. -/
def Obligations.IntegerResults : Prop :=
  Claims.IntegerResults ∧ Claims.DivisionAndBits

/-- R162: each immediate form uses IMM7 sign-extended to 32 bits; `li` writes it. -/
def Claims.ImmediateForms : Prop :=
  (∀ (s s1 : State) (f : FXI) (va vb : Vec),
    Takes s s1 f.p (.field .scalar f.a) (.imm (f.i.signExtend 32)) va vb → roomScalar s1 f.d = true →
    let a : Word := va.setWidth 32
    let v : Word := f.i.signExtend 32
    ∀ c ∈ [(Instr.addi f, a + v), (.andi f, a &&& v), (.ori f, a ||| v), (.xori f, a ^^^ v),
        (.shli f, a <<< (f.i.toNat % 32)), (.shri f, a >>> (f.i.toNat % 32)), (.srai f, a.sshiftRight (f.i.toNat % 32))],
      vb = v.setWidth 256 → XCompletes c.1 s (writeScalar s1 f.d c.2)) ∧
  ∀ (s s1 : State) (f : FLi) (va vb : Vec),
    Takes s s1 f.p .absent (.imm (f.i.signExtend 32)) va vb → roomScalar s1 f.d = true →
      vb = (f.i.signExtend 32 : Word).setWidth 256 → XCompletes (.li f) s (writeScalar s1 f.d (f.i.signExtend 32))

/-- R161: a sum or difference modulo 2^32 with the carry or borrow of p7 in where M is 1, and out into p7. -/
def Claims.CarryForms : Prop :=
  ∀ (s s1 : State) (f : FXRM) (va vb : Vec),
    Takes s s1 f.p (.field .scalar f.a) (.field .scalar f.b) va vb → roomScalar s1 f.d = true →
    let a := (va.setWidth 32).toNat
    let b := (vb.setWidth 32).toNat
    let cin := if f.m = 1#1 ∧ (curTask s1).getP 7#3 = true then 1 else 0
    let carry (c : Bool) : State := setCurTask s1 ((curTask s1).putP 7#3 c)
    XCompletes (.addc f) s (writeScalar (carry (decide (2 ^ 32 ≤ a + b + cin))) f.d (BitVec.ofNat 32 (a + b + cin))) ∧
    XCompletes (.subc f) s (writeScalar (carry (decide (a < b + cin))) f.d (BitVec.ofInt 32 ((a : Int) - b - cin)))

/-- R162, R161: The immediate and the carry forms of the execute side: `Claims.ImmediateForms`, `Claims.CarryForms`. -/
def Obligations.ImmediateAndCarryForms : Prop :=
  Claims.ImmediateForms ∧ Claims.CarryForms

/-- R163: a compare writes its predicate with the relation of its condition code; FP32 compares are false for a NaN but for
`ne` and `un`. -/
def Claims.Compares : Prop :=
  ∀ (s s1 : State) (f : FXC) (va vb : Vec), Takes s s1 f.p (.field .scalar f.a) (.field .scalar f.b) va vb →
    let a : Word := va.setWidth 32
    let b : Word := vb.setWidth 32
    let rel (x y : Int) : Option Bool := [decide (x = y), decide (x ≠ y), decide (x < y), decide (x ≤ y), decide (y < x),
      decide (y ≤ x)][f.c.toNat]?
    let put (v : Bool) : State := setCurTask s1 ((curTask s1).putP f.d v)
    (∀ v, rel a.toInt b.toInt = some v → XCompletes (.cmpI32 f) s (put v)) ∧
    (∀ v, rel a.toNat b.toNat = some v → XCompletes (.cmpN32 f) s (put v)) ∧
    ((f32 a).isNan = true ∨ (f32 b).isNan = true → XCompletes (.cmpF32 f) s (put (f.c == 1#3 || f.c == 6#3))) ∧
    ((f32 a).isNan = false → (f32 b).isNan = false → ∀ v,
      [(f32 a).eqv (f32 b), !(f32 a).eqv (f32 b), (f32 a).lt (f32 b), (f32 a).lt (f32 b) || (f32 a).eqv (f32 b),
        (f32 b).lt (f32 a), (f32 b).lt (f32 a) || (f32 a).eqv (f32 b), false][f.c.toNat]? = some v →
      XCompletes (.cmpF32 f) s (put v))

/-- R154, R164, R165: `plog` writes the bit of its truth table that two predicates select; `sel` writes A or B by its
predicate and consumes both. -/
def Claims.PredicateForms : Prop :=
  (∀ (s s1 : State) (f : FXL) (va vb : Vec), Takes s s1 f.p .absent .absent va vb →
    let k := curTask s1
    let i := (if k.getP f.a = true then 2 else 0) + if k.getP f.b = true then 1 else 0
    XCompletes (.plog f) s (setCurTask s1 (k.putP f.d (f.t.getLsbD i)))) ∧
  ∀ (s s1 : State) (f : FXS) (va vb : Vec), takeSources s (.field .scalar f.a) (.field .scalar f.b) = .got s1 va vb →
    roomScalar s1 f.d = true →
    ((curTask s1).getP f.s = true → XCompletes (.sel f) s (writeScalar s1 f.d (va.setWidth 32))) ∧
    ((curTask s1).getP f.s = false → XCompletes (.sel f) s (writeScalar s1 f.d (vb.setWidth 32)))

/-- R55, R166: `gset` resolves the oldest unresolved generation of its slot to pS, to its inverse where N is 1, and to false
under a false guard; every access, message and command of the matrix array, the stream engine and the quad vector unit that the
generation holds becomes free or discarded; an arrival that becomes free leaves with its sums (when it takes them is the model's
choice, log 95). -/
def Claims.GuardSet : Prop :=
  ∀ (s : State) (f : FXG),
    let k := curTask s
    let v := k.getP f.p && (k.getP f.q ^^ decide (f.n = 1#1))
    let g : Guard := if v = true then .free else .discarded
    (∀ gen, oldestGen k.gd[f.s.toFin] = some gen → ∃ s', XCompletes (.gset f) s s' ∧
      curTask s' = { k with gd := k.gd.set f.s.toFin (k.gd[f.s.toFin].resolveGen v) } ∧
      (∀ a ∈ s.accs, a.act = k.act → a.guard = .bound f.s.toNat gen →
        ∃ m, { a with guard := g, sums := m } ∈ s'.accs ∧
          (v = false ∨ (∀ b ∈ s.accs, b.id = a.id → ∀ bar, b.op ≠ .arrive bar) → m = a.sums)) ∧
      (∀ m ∈ s.net, m.act = k.act → m.guard = .bound f.s.toNat gen → { m with guard := g } ∈ s'.net) ∧
      (∀ c ∈ (curTile s).matq, c.act = k.act → c.guard = .bound f.s.toNat gen → { c with guard := g } ∈ (curTile s').matq) ∧
      (∀ c ∈ (curTile s).chainq, c.act = k.act → c.guard = .bound f.s.toNat gen →
        { c with guard := g } ∈ (curTile s').chainq) ∧
      (∀ c ∈ (curTile s).copies, c.cmd.act = k.act → c.cmd.guard = .bound f.s.toNat gen →
        { c with cmd := { c.cmd with guard := g } } ∈ (curTile s').copies) ∧
      SameBytes s s') ∧
    (oldestGen k.gd[f.s.toFin] = none → XCompletes (.gset f) s s)

/-- R163, R154, R164, R165, R55, R166: Compares, predicate forms and gset write what their tables give: `Claims.Compares`,
`Claims.PredicateForms`, `Claims.GuardSet`. -/
def Obligations.ComparesAndPredicates : Prop :=
  Claims.Compares ∧ Claims.PredicateForms ∧ Claims.GuardSet

/-- R97, R105, R153, R156, R167, R168: each FP32 form writes its result, rounded once in the mode of cr.mode, with the
addend that R153 gives where the destination cannot be read. -/
def Claims.FloatForms : Prop :=
  (∀ (s s1 : State) (f : FXR) (va vb : Vec),
    Takes s s1 f.p (.field .scalar f.a) (.field .scalar f.b) va vb → roomScalar s1 f.d = true →
    let a : Word := va.setWidth 32
    let b : Word := vb.setWidth 32
    let m := modeOf (curTask s).rm
    ∀ c ∈ [(Instr.addF32 f, f32Add m a b), (.subF32 f, f32Sub m a b), (.mulF32 f, f32Mul m a b),
        (.minF32 f, f32MinMax false a b), (.maxF32 f, f32MinMax true a b),
        (.fmaF32 f, f32Fma m false false a b (oldScalar s1 f.d 0x80000000#32)),
        (.fmsF32 f, f32Fma m false true a b (oldScalar s1 f.d 0#32)),
        (.fnmaF32 f, f32Fma m true false a b (oldScalar s1 f.d 0x80000000#32)),
        (.fnmsF32 f, f32Fma m true true a b (oldScalar s1 f.d 0#32))],
      XCompletes c.1 s (writeScalar s1 f.d c.2)) ∧
  ∀ (s s1 : State) (f : FXR1) (va vb : Vec), Takes s s1 f.p (.field .scalar f.a) .absent va vb → roomScalar s1 f.d = true →
    let a : Word := va.setWidth 32
    let m := modeOf (curTask s).rm
    ∀ c ∈ [(Instr.absF32 f, if (f32 a).isNan = true then 0x7fc00000#32 else a &&& 0x7fffffff#32),
        (.negF32 f, if (f32 a).isNan = true then 0x7fc00000#32 else a ^^^ 0x80000000#32), (.rcpF32 f, f32Rcp m a),
        (.sqrtF32 f, f32Sqrt m a), (.rsqF32 f, f32Rsq m a), (.ex2F32 f, f32Ex2 m a), (.lg2F32 f, f32Lg2 m a),
        (.tanhF32 f, f32Tanh m a)],
      XCompletes c.1 s (writeScalar s1 f.d c.2)

/-- R78, R99, R101, R169, R170: a conversion reads the source type and writes the destination type in the mode of its RM
field; RM 5 draws a number from cr.lfsr for each lane, and RM 6 is the mode of cr.mode. -/
def Claims.Conversions : Prop :=
  (∀ (s s1 : State) (f : FCvt) (va vb : Vec), Takes s s1 f.p (.field .scalar f.a) .absent va vb → roomScalar s1 f.d = true →
    let k := curTask s1
    let u := lfsrNext k.lfsr
    let res (m : RMode) : Word := convert f.s.toNat f.t.toNat m (va.setWidth 32)
    (f.r.toNat < 5 → XCompletes (.cvt f) s (writeScalar s1 f.d (res (modeOf f.r)))) ∧
    (f.r = 5#3 → XCompletes (.cvt f) s (writeScalar (setCurTask s1 { k with lfsr := u }) f.d (res (.rs u.toNat)))) ∧
    (f.r = 6#3 → XCompletes (.cvt f) s (writeScalar s1 f.d (res (modeOf k.rm))))) ∧
  ∀ (s s1 : State) (f : FVcvt) (va vb : Vec), (curTask s).long = false →
    Takes s s1 f.p (.field .vec f.a) .absent va vb → roomVector s1 f.d = true →
    (f.r.toNat ≠ 5 → f.r.toNat < 7 →
      let m := if f.r = 6#3 then modeOf (curTask s1).rm else modeOf f.r
      XCompletes (.vcvt f) s (writeVector s1 f.d (ofLanes fun i => convert f.s.toNat 0 m (laneOf va i)))) ∧
    (f.r = 5#3 →
      let u (i : Nat) : Word := Nat.repeat lfsrNext (i + 1) (curTask s1).lfsr
      XCompletes (.vcvt f) s (writeVector (setCurTask s1 { curTask s1 with lfsr := u 7 }) f.d
        (ofLanes fun i => convert f.s.toNat 0 (.rs (u i).toNat) (laneOf va i))))

/-- R97, R105, R153, R156, R167, R168, R78, R99, R101, R169, R170: The results of the float forms and the conversions:
`Claims.FloatForms`, `Claims.Conversions`. -/
def Obligations.FloatFormsAndConversions : Prop :=
  Claims.FloatForms ∧ Claims.Conversions

/-- R171, R172, Table 11-10: each element-wise form applies its scalar rule to every lane. -/
def Claims.LaneForms : Prop :=
  ∀ (s s1 : State) (f : FXR) (va vb : Vec), (curTask s).long = false →
    Takes s s1 f.p (.field .vec f.a) (.field .vec f.b) va vb → roomVector s1 f.d = true →
    let m := modeOf (curTask s).rm
    let each (op : Word → Word → Word) : Vec := ofLanes fun i => op (laneOf va i) (laneOf vb i)
    ∀ c ∈ [(Instr.vaddF32 f, each (f32Add m)), (.vsubF32 f, each (f32Sub m)), (.vmulF32 f, each (f32Mul m)),
        (.vfmaF32 f, ofLanes fun i => f32Fma m false false (laneOf va i) (laneOf vb i)
          (laneOf (oldVector s1 f.d (broadcast 0x80000000#32)) i)),
        (.vminF32 f, each (f32MinMax false)), (.vmaxF32 f, each (f32MinMax true)),
        (.vaddI32 f, each fun x y => x + y), (.vsubI32 f, each fun x y => x - y), (.vmulI32 f, each fun x y => x * y),
        (.vand f, va &&& vb), (.vor f, va ||| vb), (.vxor f, va ^^^ vb),
        (.vshl f, each fun x y => x <<< (y.toNat % 32)), (.vshr f, each fun x y => x >>> (y.toNat % 32)),
        (.vsra f, each fun x y => x.sshiftRight (y.toNat % 32))],
      XCompletes c.1 s (writeVector s1 f.d c.2)

/-- R173, R174: the lane-moving forms and the reductions into acc. -/
def Claims.LaneMoves : Prop :=
  (∀ (s s1 : State) (f : FXR) (va vb : Vec), (curTask s).long = false → roomVector s1 f.d = true →
    (Takes s s1 f.p (.field .vec f.a) (.field .vec f.b) va vb →
      XCompletes (.vperm f) s (writeVector s1 f.d (ofLanes fun i => laneOf va ((laneOf vb i).toNat % 8)))) ∧
    (Takes s s1 f.p (.field .vecAcc f.a) (.field .vec f.b) va vb →
      XCompletes (.vins f) s (writeVector s1 f.d (ofLanes fun i =>
        if i = (laneOf vb 0).toNat % 8 then laneOf va 0 else laneOf (oldVector s1 f.d 0#256) i)))) ∧
  (∀ (s s1 : State) (f : FXR1) (va vb : Vec), (curTask s).long = false → roomVector s1 f.d = true →
    Takes s s1 f.p (.field .vecAcc f.a) .absent va vb →
      XCompletes (.vbcast f) s (writeVector s1 f.d (broadcast (laneOf va 0)))) ∧
  (∀ (s s1 : State) (f : FVext) (va vb : Vec), (curTask s).long = false →
    Takes s s1 f.p (.field .vec f.a) (.field .vec f.b) va vb →
      XCompletes (.vext f) s (setCurTask s1 { curTask s1 with acc := laneOf va ((laneOf vb 0).toNat % 8) })) ∧
  ∀ (s s1 : State) (f : FVred) (va vb : Vec), (curTask s).long = false → Takes s s1 f.p (.field .vec f.a) .absent va vb →
    let m := modeOf (curTask s).rm
    let tree (op : Word → Word → Word) : Word := op (curTask s1).acc (op (op (op (laneOf va 0) (laneOf va 1))
      (op (laneOf va 2) (laneOf va 3))) (op (op (laneOf va 4) (laneOf va 5)) (op (laneOf va 6) (laneOf va 7))))
    ∀ c ∈ [(Instr.vredAddF32 f, tree (f32Add m)), (.vredMaxF32 f, tree (f32MinMax true)),
        (.vredAddI32 f, tree fun x y => x + y)],
      XCompletes c.1 s (setCurTask s1 { curTask s1 with acc := c.2 })

/-- R171, R172, Table 11-10, R173, R174: The results of the lane forms and of the moves between lanes: `Claims.LaneForms`,
`Claims.LaneMoves`. -/
def Obligations.LaneForms : Prop :=
  Claims.LaneForms ∧ Claims.LaneMoves

/-- R66, R176-R178: in long mode a long form reads its scalar sources and pushes its command with their values and the
rounding mode; `wext` and `wred` push theirs once the queue has room, wait, and then deliver the value that came back. -/
def Claims.LongFormsPush : Prop :=
  (∀ (s s1 : State) (f : FXR) (va vb : Vec), (curTask s).long = true → (curTile s1).longq.length < 8 →
    let push (x : Instr) : State := setCurTile s1 { curTile s1 with
      longq := (curTile s1).longq ++ [⟨x, va.setWidth 32, vb.setWidth 32, (curTask s1).rm⟩] }
    (Takes s s1 f.p (.field .long f.a) (.field .long f.b) va vb →
      ∀ x ∈ [Instr.waddF32 f, .wsubF32 f, .wmulF32 f, .wfmaF32 f, .wminF32 f, .wmaxF32 f], XCompletes x s (push x)) ∧
    (Takes s s1 f.p (.field .scalar f.a) (.field .scalar f.b) va vb → XCompletes (.wins f) s (push (.wins f)))) ∧
  (∀ (s s1 : State) (f : FXR1) (va vb : Vec), (curTask s).long = true → (curTile s1).longq.length < 8 →
    Takes s s1 f.p (.field .scalar f.a) .absent va vb →
    XCompletes (.wbcastF32 f) s (setCurTile s1 { curTile s1 with
      longq := (curTile s1).longq ++ [⟨.wbcastF32 f, va.setWidth 32, vb.setWidth 32, (curTask s1).rm⟩] })) ∧
  (∀ (s s1 : State) (va vb : Vec), (curTask s).long = true →
    let s2 := keepTaken s1 [va, vb]
    let sends (x : Instr) : Prop :=
      ((curTile s1).longWait = .none → (curTile s1).longq.length < 8 → Becomes x s (setCurTile s2 { curTile s2 with
        longq := (curTile s1).longq ++ [⟨x, va.setWidth 32, vb.setWidth 32, (curTask s1).rm⟩], longWait := .sent })) ∧
      ((curTile s1).longWait = .none ∧ 8 ≤ (curTile s1).longq.length ∨ (curTile s1).longWait = .sent → Becomes x s s2)
    (∀ f : FXR, Takes s s1 f.p .absent (.field .scalar f.b) va vb → sends (.wext f)) ∧
    ∀ f : FXR1, Takes s s1 f.p .absent .absent va vb → sends (.wredAddF32 f) ∧ sends (.wredMaxF32 f)) ∧
  (∀ (s s1 : State) (f : FXR) (va vb : Vec) (w : Word), (curTask s).long = true → (curTile s1).longWait = .back w →
    Takes s s1 f.p .absent (.field .scalar f.b) va vb → roomScalar s1 f.d = true →
    let s2 := writeScalar s1 f.d w
    XCompletes (.wext f) s (setCurTile s2 { curTile s2 with longWait := .none })) ∧
  ∀ (s s1 : State) (f : FXR1) (va vb : Vec) (w : Word), (curTask s).long = true → (curTile s1).longWait = .back w →
    Takes s s1 f.p .absent .absent va vb → roomScalar s1 f.d = true →
    let s2 := writeScalar s1 f.d w
    ∀ x ∈ [Instr.wredAddF32 f, .wredMaxF32 f], XCompletes x s (setCurTile s2 { curTile s2 with longWait := .none })

/-- R66, R176: a change of mode with the queue to the quad unit empty sets the mode and leaves w0 to w7 zero; every form
of the other mode raises ILLEGAL_ENCODING on the execute side. -/
def Claims.ModeChanges : Prop :=
  ∀ s : State,
    (∀ f : FVmode, (curTask s).getP f.p = true → (curTile s).longq = [] → (curTask s).long ≠ decide (f.m = 1#1) →
      XCompletes (.vmode f) s (setCurTask s { curTask s with
        long := decide (f.m = 1#1), w := Vector.replicate 8 0#4096 })) ∧
    (∀ f : FVmode, (curTask s).getP f.p = false ∨ (curTask s).long = decide (f.m = 1#1) → XCompletes (.vmode f) s s) ∧
    ((curTask s).long = true → ∀ (f : FXR) (b : FXR1) (x : FVext) (r : FVred) (q : FVredq) (c : FVcvt),
      ∀ i ∈ [Instr.vaddF32 f, .vsubF32 f, .vmulF32 f, .vfmaF32 f, .vminF32 f, .vmaxF32 f, .vaddI32 f, .vsubI32 f, .vmulI32 f,
          .vand f, .vor f, .vxor f, .vshl f, .vshr f, .vsra f, .vperm f, .vins f, .vbcast b, .vext x, .vredAddF32 r,
          .vredMaxF32 r, .vredAddI32 r, .vredqF32 q, .vcvt c],
        Becomes i s (xTrap s .illegalEncoding 0#64)) ∧
    ((curTask s).long = false → ∀ (f : FXR) (b : FXR1),
      ∀ i ∈ [Instr.waddF32 f, .wsubF32 f, .wmulF32 f, .wfmaF32 f, .wminF32 f, .wmaxF32 f, .wbcastF32 b, .wins f, .wext f,
          .wredAddF32 b, .wredMaxF32 b],
        Becomes i s (xTrap s .illegalEncoding 0#64))

/-- R177, R178: the quad unit, as it binds a long form of a tile, runs the oldest command of the tile's queue on the 128
elements of its w registers. -/
def Claims.QuadUnitRuns : Prop :=
  ∀ (s s1 : State) (t : Nat) (c : LongCmd) (r : List LongCmd), (tileOf s t).longq = c :: r → UnitGoes s t false s1 →
    let k := (tileOf s t).task
    let m := modeOf c.rm
    ∃ t', exec (.quadUnitCommand t false) s = .next t' ∧ (tileOf t' t).longq = r ∧
      (∀ (f : FXR) (op : Word → Word → Word), (c.x, op) ∈ [(Instr.waddF32 f, f32Add m), (.wsubF32 f, f32Sub m),
          (.wmulF32 f, f32Mul m), (.wminF32 f, f32MinMax false), (.wmaxF32 f, f32MinMax true)] →
        ∀ j, j < 128 → elemOf ((tileOf t' t).task.getW f.d) j = op (elemOf (k.getW f.a) j) (elemOf (k.getW f.b) j)) ∧
      (∀ f : FXR, c.x = .wfmaF32 f → ∀ j, j < 128 → elemOf ((tileOf t' t).task.getW f.d) j =
        f32Fma m false false (elemOf (k.getW f.a) j) (elemOf (k.getW f.b) j) (elemOf (k.getW f.d) j)) ∧
      (∀ f : FXR1, c.x = .wbcastF32 f → ∀ j, j < 128 → elemOf ((tileOf t' t).task.getW f.d) j = c.a) ∧
      (∀ f : FXR, c.x = .wins f → ∀ j, j < 128 → elemOf ((tileOf t' t).task.getW f.d) j =
        if j = c.b.toNat % 128 then c.a else elemOf (k.getW f.d) j) ∧
      (∀ f : FXR, c.x = .wext f → (tileOf t' t).longWait = .back (elemOf (k.getW f.a) (c.b.toNat % 128))) ∧
      (∀ f : FXR1, c.x = .wredAddF32 f → (tileOf t' t).longWait = .back (tree128 (f32Add m) (k.getW f.a))) ∧
      ∀ f : FXR1, c.x = .wredMaxF32 f → (tileOf t' t).longWait = .back (tree128 (f32MinMax true) (k.getW f.a))

/-- R175: `vredq.f32` pops the elements still missing from n, adds each into acc in order where its guard is true, and
completes with cr.redq at 0; a vector entry of a load queue counts as one element, the sum of its lanes. The elements at hand
are those of the queue named. -/
def Claims.QueueReduction : Prop :=
  ∀ (s s1 : State) (f : FVredq) (va vb : Vec), (curTask s).long = false →
    takeSources s .absent (.field .vreg f.b) = .got s1 va vb →
    let k := curTask s1
    let q : BitVec 1 := if f.a = 48#6 then 0#1 else 1#1
    let add (acc x : Word) : Word := if k.getP f.p = true then f32Add (modeOf k.rm) acc x else acc
    let todo := (laneOf vb 0).toNat - k.redq.toNat
    (f.m = 0#1 → ∀ es : List Vec, es.length = todo → todo ≤ 8 →
      (k.lq q).map (·.fill) = es.map LqFill.data ++ ((k.lq q).drop todo).map (·.fill) →
      ∃ s', XCompletes (.vredqF32 f) s s' ∧ (curTask s').redq = 0#32 ∧ (curTask s').lq q = (k.lq q).drop todo ∧
        (curTask s').acc = es.foldl (fun acc v => add acc (tree8 (f32Add (modeOf k.rm)) v)) k.acc) ∧
    (f.m = 1#1 → ∀ es : List Word, es.length = todo → todo ≤ 8 → (curTile s1).ri.take todo = es →
      ∃ s', XCompletes (.vredqF32 f) s s' ∧ (curTask s').redq = 0#32 ∧ (curTile s').ri = (curTile s1).ri.drop todo ∧
        (curTask s').acc = es.foldl add k.acc)

/-- R66, R176, R177, R178, R175: Long forms go to the quad unit, which runs them; vredq adds from its queue:
`Claims.LongFormsPush`, `Claims.ModeChanges`, `Claims.QuadUnitRuns`, `Claims.QueueReduction`. -/
def Obligations.LongFormsAndReduction : Prop :=
  Claims.LongFormsPush ∧ Claims.ModeChanges ∧ Claims.QuadUnitRuns ∧ Claims.QueueReduction

/-- R57: a0 and g0 read zero and p0 reads true, and what is written to them is discarded; every other register reads what was
written to it and leaves the others alone. -/
def Claims.HardwiredRegisters : Prop :=
  ∀ s : State,
    rdA s 0#4 = 0#64 ∧ (∀ v, curTask (wrA s 0#4 v) = curTask s) ∧
    (∀ n v, n ≠ 0#4 → rdA (wrA s n v) n = v ∧ statusA (wrA s n v) n = .ready) ∧
    (∀ n m v, m ≠ n → rdA (wrA s n v) m = rdA s m ∧ statusA (wrA s n v) m = statusA s m) ∧
    ∀ k : Task,
      k.getG 0 = 0#32 ∧ (∀ w, k.putG 0 w = k) ∧ (∀ n w, n ≠ 0 → (k.putG n w).getG n = w) ∧
      (∀ n m w, n < 48 → m < 48 → m ≠ n → (k.putG n w).getG m = k.getG m) ∧
      k.getP 0#3 = true ∧ (∀ b, k.putP 0#3 b = k) ∧ (∀ n b, n ≠ 0#3 → (k.putP n b).getP n = b) ∧
      ∀ n m b, m ≠ n → (k.putP n b).getP m = k.getP m

/-- R50, R52, R59-R62, Table 5-4: what each source code delivers and consumes; a queue, channel or register that holds
nothing keeps the instruction waiting with what it has taken. -/
def Claims.OperandSources : Prop :=
  ∀ (s : State) (c : BitVec 6), (curTask s).taken = [] → s.cur.ha = false →
    let k := curTask s
    let tl := curTile s
    let gets (k' : OperandKind) (s' : State) (v : Vec) (wide : Bool) : Prop :=
      takeSources s (.field k' c) .absent =
        .got (setCurTask s' { curTask s' with latchA := ⟨v, wide⟩ }) v 0#256
    (c.toNat < 48 → gets .scalar s ((if c = 0#6 then 0#32 else k.g[c.toNat]?.getD 0#32).setWidth 256) false) ∧
    (c = 63#6 → gets .scalar s (k.acc.setWidth 256) false ∧ gets .vecAcc s (k.acc.setWidth 256) false) ∧
    (c = 62#6 → gets .scalar s (s.cur.ext.setWidth 256) false ∧ gets .vec s (broadcast s.cur.ext) true) ∧
    (c.toNat < 16 → gets .vec s (k.v[c.toNat]?.getD 0#256) true) ∧
    (∀ i v r, c = 48#6 → k.lq0 = ⟨i, .data v⟩ :: r → let s' := setCurTask s { k with lq0 := r }
      gets .scalar s' ((v.setWidth 32).setWidth 256) false ∧ gets .vec s' v true) ∧
    (∀ i v r, c = 49#6 → k.lq1 = ⟨i, .data v⟩ :: r → let s' := setCurTask s { k with lq1 := r }
      gets .scalar s' ((v.setWidth 32).setWidth 256) false ∧ gets .vec s' v true) ∧
    (∀ w r, c = 50#6 → tl.ri = w :: r → gets .scalar (setCurTile s { tl with ri := r }) (w.setWidth 256) false) ∧
    (∀ w r, c = 53#6 → tl.ef = w :: r → gets .scalar (setCurTile s { tl with ef := r }) (w.setWidth 256) false) ∧
    (∀ w, (h : 54 ≤ c.toNat ∧ c.toNat < 62) → tl.e[c.toNat - 54]'(by omega) = some w →
      gets .scalar (setCurTile s { tl with e := tl.e.set (c.toNat - 54) none (by omega) }) (w.setWidth 256) false) ∧
    (c = 50#6 → tl.ri = [] → takeSources s (.field .scalar c) .absent = .waits (waitSource s [])) ∧
    (c = 48#6 → k.lq0 = [] → takeSources s (.field .scalar c) .absent = .waits (waitSource s [])) ∧
    (∀ i e ea r, c = 48#6 → k.lq0 = ⟨i, .poisoned e ea⟩ :: r → takeSources s (.field .scalar c) .absent = .trap e ea)

/-- R51-R53, R61, R152, R153: what each destination code receives, and which have no room: an X instruction whose guard is
true then waits with its sources taken. -/
def Claims.Destinations : Prop :=
  ∀ (s : State) (d : BitVec 6) (w : Word) (v : Vec),
    let k := curTask s
    let u := ringSuccessor s s.cur.tile
    (d.toNat < 48 → writeScalar s d w = setCurTask s (k.putG d.toNat w)) ∧
    (d = 50#6 → writeScalar s d w = setTile { s with nextId := s.nextId + 1 } u
      { tileOf s u with riNet := (tileOf s u).riNet ++ [(s.nextId, w)] }) ∧
    (d = 51#6 → writeScalar s d w = setCurTask s { k with sq := k.sq ++ [w.setWidth 256] } ∧
      writeVector s d v = setCurTask s { k with sq := k.sq ++ [v] }) ∧
    (d = 52#6 → writeScalar s d w = setCurTask s { k with xq := k.xq ++ [w.signExtend 64] }) ∧
    (d = 63#6 → writeScalar s d w = setCurTask s { k with acc := w }) ∧
    (∀ h : d.toNat < 16, writeVector s d v = setCurTask s { k with v := k.v.set d.toNat v }) ∧
    (roomScalar s d = false ↔ (d = 50#6 ∧ 4 ≤ (tileOf s u).ri.length + (tileOf s u).riNet.length) ∨
      (d = 51#6 ∧ 8 ≤ k.sq.length) ∨ (d = 52#6 ∧ 4 ≤ k.xq.length)) ∧
    (roomVector s d = false ↔ d = 51#6 ∧ 8 ≤ k.sq.length) ∧
    ∀ (s1 : State) (f : FXR) (va vb : Vec), Takes s s1 f.p (.field .scalar f.a) (.field .scalar f.b) va vb →
      roomScalar s1 f.d = false → Becomes (.add f) s (keepTaken s1 [va, vb])

/-- R52, R152: under a false guard an X instruction still consumes its sources, and writes nothing. -/
def Claims.FalseGuardDiscards : Prop :=
  (∀ (s s1 : State) (f : FXR) (va vb : Vec), (curTask s1).getP f.p = false →
    (takeSources s (.field .scalar f.a) (.field .scalar f.b) = .got s1 va vb →
      ∀ i ∈ [Instr.add f, .sub f, .mul f, .divI32 f, .shl f, .bfi f, .addF32 f, .fmaF32 f], XCompletes i s s1) ∧
    (takeSources s (.field .vec f.a) (.field .vec f.b) = .got s1 va vb → (curTask s).long = false →
      ∀ i ∈ [Instr.vaddF32 f, .vfmaF32 f, .vand f, .vperm f], XCompletes i s s1) ∧
    (takeSources s (.field .long f.a) (.field .long f.b) = .got s1 va vb → (curTask s).long = true →
      ∀ i ∈ [Instr.waddF32 f, .wfmaF32 f], XCompletes i s s1)) ∧
  (∀ (s s1 : State) (f : FXI) (va vb : Vec), (curTask s1).getP f.p = false →
    takeSources s (.field .scalar f.a) (.imm (f.i.signExtend 32)) = .got s1 va vb →
      ∀ i ∈ [Instr.addi f, .andi f, .shli f], XCompletes i s s1) ∧
  ∀ (s s1 : State) (f : FXC) (va vb : Vec), (curTask s1).getP f.p = false →
    takeSources s (.field .scalar f.a) (.field .scalar f.b) = .got s1 va vb →
      ∀ i ∈ [Instr.cmpI32 f, .cmpN32 f, .cmpF32 f], XCompletes i s s1

/-- R57, R50, R52, R59, R60, R61, R62, Table 5-4, R51, R53, R152, R153: What operands read, what destinations take, and
hard-wired registers: `Claims.HardwiredRegisters`, `Claims.OperandSources`, `Claims.Destinations`, `Claims.FalseGuardDiscards`.
-/
def Obligations.OperandsAndRegisters : Prop :=
  Claims.HardwiredRegisters ∧ Claims.OperandSources ∧ Claims.Destinations ∧ Claims.FalseGuardDiscards

/-- R32, R215, R218: `spawn` makes a record one level deeper at its target, places it, and takes the cohort's serial; a false
generation makes it nothing, and an unresolved one holds it; `fork.br` offers the fall-through and goes on at the target. Where no
place is left either raises SPAWN_DEPTH. -/
def Claims.SpawnAndFork : Prop :=
  ∀ (s : State) (key : Nat) (c : Cohort) (j : Nat), cohortOf s s.cur.tile = some (key, c, j) →
    slabRoom s (decide (16 ≤ (curTile s).deque.length)) = none →
    let k := curTask s
    let d := min (k.depth + 1) 63
    let serial := if c.serial = 65535 then c.quads.length * c.size else c.serial + 1
    let off (o : BitVec 11) : DWord := s.cur.pc + 8#64 * (o.signExtend 64 + s.cur.ext.signExtend 64)
    let rec' (depth : Nat) (pc : DWord) (fr jo : BitVec 4) : Rec :=
      { pcw := BitVec.ofNat 64 (depth % 64 * 2 ^ 58) ||| (pc &&& 0x01fffffffffffff8#64) ||| 0#64
        gtid := (k.gtid &&& ~~~0xffff#64) ||| BitVec.ofNat 64 (c.serial % 65536)
        frame := rdA s fr, join := rdA s jo, arg0 := rdA s 3#4, arg1 := rdA s 4#4
        w0 := k.k[0], w1 := k.k[1], w2 := k.k[2], w3 := k.k[3] }
    let took (s' : State) : State := setCohort s' key { c with serial := serial, live := c.live + 1 }
    (∀ f : FSpawn, ReadyA s [f.f, f.j, 3#4, 4#4] →
      (bindGuard s f.g = .free → ∀ s', placeRec s (rec' d (off f.o) f.f f.j) k.depth = some s' →
        Completes (.spawn f) s (took s')) ∧
      (bindGuard s f.g = .free → placeRec s (rec' d (off f.o) f.f f.j) k.depth = none →
        Becomes (.spawn f) s (preciseTrap s .spawnDepth 0#64 0#64)) ∧
      (bindGuard s f.g = .discarded → Completes (.spawn f) s s) ∧
      ((bindGuard s f.g).isBound = true → Becomes (.spawn f) s (waitBranch s))) ∧
    ∀ f : FFork, ReadyA s [f.f, f.j, 3#4, 4#4] →
      (∀ s', placeRec s (rec' k.depth (s.cur.pc + 8#64) f.f f.j) k.depth = some s' →
        Jumps (.forkBr f) s (setCurTask (took s') { curTask s' with depth := max (curTask s').depth d }) (off f.o)) ∧
      (placeRec s (rec' k.depth (s.cur.pc + 8#64) f.f f.j) k.depth = none →
        Becomes (.forkBr f) s (preciseTrap s .spawnDepth 0#64 0#64))

/-- R40, R219, R274: a new record goes to the newest end of the deque; a full deque moves its oldest record to a free place of the
general spill, two stores of 32 bytes in the slab; where its 64 places are taken, by records of the deque or resident ones, the
new record takes the reserved slot of its parent's depth, and the parent goes one level deeper; the second record of one run at
depth 63 has no place, and no other record that the card gives a spill region is without one. A free place is one that no such
record takes: the lowest of them (the model's choice, log 91); where another task's record holds the reserved slot of that depth,
the record takes another (the model's choice, log 96). -/
def Claims.PlacementOrder : Prop :=
  ∀ (s : State) (r : Rec) (d : Nat),
    let tl := curTile s
    (tl.deque.length < 16 → placeRec s r d = some (setCurTile s { tl with deque := tl.deque ++ [r] })) ∧
    (∀ old rest a i, tl.deque = old :: rest → 16 ≤ tl.deque.length → spillSlab s s.cur.tile = some a → freePlace tl = some i →
      ∃ s', placeRec s r d = some s' ∧
        curTile s' = { tl with deque := rest ++ [r], spill := tl.spill ++ [old], slots := tl.slots ++ [i] } ∧
        ∃ lo hi, s'.accs = s.accs ++ [lo, hi] ∧ lo.op = .spill ∧ hi.op = .spill ∧ lo.n = 32 ∧ hi.n = 32 ∧
          lo.ea = BitVec.ofNat 64 (a + 64 * i) ∧ hi.ea = BitVec.ofNat 64 (a + 64 * i + 32)) ∧
    (∀ i, freePlace tl = some i → i < 64 ∧ i ∉ tl.slots ∧ ∀ v ∈ tl.overflow, v.place ≠ some i) ∧
    (∀ a, 16 ≤ tl.deque.length → spillSlab s s.cur.tile = some a → freePlace tl = none → d < 64 →
      smFind d tl.reserved = none →
      ∃ s', placeRec s r d = some s' ∧ (curTile s').deque = tl.deque ∧ (curTile s').reserved = smSet d r tl.reserved ∧
        (curTask s').depth = min (d + 1) 63) ∧
    (16 ≤ tl.deque.length → spillSlab s s.cur.tile = none → placeRec s r d = none) ∧
    (16 ≤ tl.deque.length → freePlace tl = none → d = 63 → tl.task.filled63 = true →
      (smFind 63 tl.reserved).isSome = true → placeRec s r d = none) ∧
    (∀ a, spillSlab s s.cur.tile = some a →
      d ≠ 63 ∨ tl.task.filled63 = false ∨ smFind 63 tl.reserved = none → ∃ s', placeRec s r d = some s')

/-- R38, R217, Table 1-9: a record keeps of a task its PC and depth, its GTID, a1 to a4 and g1 to g4, and a task that starts
from it holds these and nothing else. -/
def Claims.RecordsKeepTasks : Prop :=
  ∀ (k : Task) (pc : DWord) (msg : Bool) (act : Nat) (slot : Option Nat), k.depth < 64 →
    pc &&& 0x01fffffffffffff8#64 = pc →
    let r := taskRec k pc msg
    let t := recTask r act slot
    r.bad = false ∧ t.pc = pc ∧ t.depth = k.depth ∧ t.gtid = k.gtid ∧ t.act = act ∧ t.inboxSlot = slot ∧
      (∀ n : Fin 16, t.a[n] = ⟨if 1 ≤ n.val ∧ n.val ≤ 4 then k.a[n].val else 0#64, .ready⟩) ∧
      (∀ n : Fin 48, t.g[n] = if 1 ≤ n.val ∧ n.val ≤ 4 then k.g[n] else 0#32) ∧
      t.xinstr = [] ∧ t.lq0 = [] ∧ t.lq1 = [] ∧ t.sq = [] ∧ t.xq = [] ∧ t.long = false ∧ t.lfsr = lfsrSeed k.gtid pc

/-- R32, R215, R218, R40, R219, R274, R38, R217, Table 1-9: spawn and fork.br make records; where a record goes and what it
keeps: `Claims.SpawnAndFork`, `Claims.PlacementOrder`, `Claims.RecordsKeepTasks`. -/
def Obligations.RecordsAreMade : Prop :=
  Claims.SpawnAndFork ∧ Claims.PlacementOrder ∧ Claims.RecordsKeepTasks

/-- R39, R40, R63, R64, R217, R221, R222, R224, R228, R229, R233: what each suspension leaves: the tile gives up the task's
queues, landing registers and long state, and holds its record with its wait cause, or in the deque; a ninth resident record
takes a place of the general spill with the two stores of `storeResident`; `exit` ends the task. -/
def Claims.Suspensions : Prop :=
  ∀ s : State, MaySuspend s →
    let k := curTask s
    let tl := giveUp (curTile s)
    let place := residentPlace s s.cur.tile
    let r (msg : Bool) : Rec := taskRec k (s.cur.pc + 8#64) msg
    let held (v : Rec) (cause : Wait) (ready : Bool) : Tile :=
      addResident tl place ⟨v, cause, ready, (storeResident s place v).nextId, none, none⟩
    let keeps (i : Instr) (v : Rec) (cause : Wait) (ready : Bool) : Prop :=
      slabRoom s place.isSome = none →
        ∃ t, exec i s = .next t ∧ GaveUp s t (held v cause ready) s.cohorts (storeResident s place v).accs
    keeps .yield (r false) .none true ∧
    (slabRoom s place.isSome = none → let v := r true
      ∃ t, exec .wfm s = .next t ∧ GaveUp s t
        (giveMessage (held v .msg false) ((storeResident s place v).nextId + 1)) s.cohorts (storeResident s place v).accs) ∧
    (slabRoom s (decide (16 ≤ (curTile s).deque.length)) = none →
      (∀ s', placeDeque s (r false) = some s' →
        ∃ t, exec .suspend s = .next t ∧ GaveUp s t (giveUp (curTile s')) s.cohorts s'.accs) ∧
      (placeDeque s (r false) = none →
        ∃ t, exec .suspend s = .next t ∧ GaveUp s t { tl with unplaced := some (r false) } s.cohorts s.accs)) ∧
    (∀ key c j, cohortOf s s.cur.tile = some (key, c, j) →
      ∃ t, exec .exit s = .next t ∧ GaveUp s t (dropKept (dropEntries tl k.gtid) k.gtid)
        (smSet key { c with live := c.live - 1 } s.cohorts) (dropWaits s s.cur.tile k.gtid).accs) ∧
    (∀ (f : FJoin) (p : Place) (v : Vec), ReadyA s [f.c] → holding s k = false → (rdA s f.c).toNat % 4 = 0 →
      let a := { newAccess s .load (spaceOf f.s.toNat) (rdA s f.c) 4 with id := s.nextId }
      let cause : Wait := .join (spaceOf f.s.toNat) (rdA s f.c)
      let s1 := (performAt s a p).2
      mayPerform s a = true → reachNow s a = .at p → (performAt s a p).1 = .value v → slabRoom s place.isSome = none →
        ∃ t, exec (.join f) s = .next t ∧
          GaveUp s1 t (held (r false) cause (decide (v = 0#256))) s.cohorts (storeResident s1 place (r false)).accs) ∧
    (∀ f : FNbarWt, ReadyA s [f.t, f.p] → holding s k = false →
      let u := (rdA s f.t).toNat % 65536
      let p : Word := (rdA s f.p).setWidth 32
      let b := barAt s u f.b.toNat
      sameCohort s s.cur.tile u = true →
      let cause : Wait := .nbar u f.b.toNat p
      ((b.phase - p).toNat = 0 ∨ 2 ^ 31 < (b.phase - p).toNat → keeps (.nbarWt f) (r false) cause false) ∧
      (0 < (b.phase - p).toNat → (b.phase - p).toNat ≤ 2 ^ 31 →
        keeps (.nbarWt f) { r false with w2 := b.lsdet, w3 := b.lsrep } cause true)) ∧
    ∀ (f : FLdv) (p : Place), ReadyA s [f.b, f.d] → MayGo s 0#3 → (rdA s f.b).toNat % 4 = 0 →
      let v : Byte := (rdA s f.d).extractLsb' 32 8
      let a := { newAccess s (.ldv v) .pr (rdA s f.b) 4 with id := s.nextId, dest := .a f.d }
      mayPerform s a = true → reach s a = .at p → stillWaits s a p = true →
      keeps (.ldvS f) (taskRec k s.cur.pc false) (.version (prTile (rdA s f.b)) (spOff (rdA s f.b)) v) false

/-- R222, R233, R344: `ldv.s` whose version has been reached reads its word at once, with the errors that the read corrects
counted, and does not suspend. -/
def Claims.VersionReadAtOnce : Prop :=
  ∀ (s : State) (f : FLdv) (p : Place) (v : Vec), ReadyA s [f.b, f.d] → MayGo s 0#3 → (rdA s f.b).toNat % 4 = 0 →
    let a := { newAccess s (.ldv ((rdA s f.d).extractLsb' 32 8)) .pr (rdA s f.b) 4 with id := s.nextId, dest := .a f.d }
    let s1 := (performAt s a p).2
    mayPerform s a = true → reach s a = .at p → stillWaits s a p = false → (performAt s a p).1 = .value v →
    Completes (.ldvS f) s (setCurTask s1 ((curTask s1).putA f.d ⟨v.setWidth 64, .ready⟩))

/-- R39, R40, R63, R64, R217, R221, R222, R224, R228, R229, R233, R344: What each suspension leaves of its task:
`Claims.Suspensions`, `Claims.VersionReadAtOnce`. -/
def Obligations.Suspensions : Prop :=
  Claims.Suspensions ∧ Claims.VersionReadAtOnce

/-- R221, R228, R229, R231-R233: the synchronisation instructions that send an access to a counter, a barrier or a versioned
word; one whose generation is false sends nothing, and `nbar.arr` then reads phase 0. An arrival under no unresolved generation
takes with it, as it leaves, what `carrySums` gives: the increases of DET and REP, and the counters of the summed barrier (the
moment is the model's choice, log 95). -/
def Claims.SynchronisationIssues : Prop :=
  ∀ s : State,
    let k := curTask s
    let pc := s.cur.pc
    let home (t : BitVec 4) : DWord := (rdA s t &&& 0xffff#64) <<< 32
    (∀ f : FJdec, ReadyA s [f.c] → MayGo s f.g → (rdA s f.c).toNat % 4 = 0 →
      (bindGuard s f.g ≠ .discarded → SendsAccess (.jdec f) s { newAccess s .jdec (spaceOf f.s.toNat) (rdA s f.c) 4 with
        id := s.nextId, guard := bindGuard s f.g } (afterIssue k pc)) ∧
      (bindGuard s f.g = .discarded → Completes (.jdec f) s s)) ∧
    (∀ f : FNbarArr, ReadyA s [f.t] → FreeA s [f.p] → MayGo s f.g → reportable s s.cur.tile = [] →
      (bindGuard s f.g ≠ .discarded →
        let c := if bindGuard s f.g = .free then carrySums s s.cur.tile ((rdA s f.t).toNat % 65536) f.b.toNat else ([], s)
        ∃ t, exec (.nbarArr f) s = .next t ∧
          Sent c.2 t { newAccess s (.arrive f.b.toNat) .pr (home f.t) 4 with
            id := s.nextId, guard := bindGuard s f.g, dest := if f.p = 0#4 then .none else .a f.p, sums := c.1 }
            (afterIssue (k.putA f.p ⟨rdA s f.p, .pending s.nextId⟩) pc)) ∧
      (bindGuard s f.g = .discarded → Completes (.nbarArr f) s (wrA s f.p 0#64))) ∧
    (∀ f : FNbarTx, ReadyA s [f.t, f.n] → MayGo s f.g →
      (bindGuard s f.g ≠ .discarded →
        SendsAccess (.nbarTx f) s { newAccess s (.barTx f.b.toNat ((rdA s f.n).setWidth 56)) .pr (home f.t) 4 with
          id := s.nextId, guard := bindGuard s f.g } (afterIssue k pc)) ∧
      (bindGuard s f.g = .discarded → Completes (.nbarTx f) s s)) ∧
    (∀ f : FStv, ReadyA s [f.b, f.s] → MayGo s f.g → (rdA s f.b).toNat % 4 = 0 →
      (bindGuard s f.g ≠ .discarded → SendsAccess (.stv f) s { newAccess s .stv .pr (rdA s f.b) 4 with
        id := s.nextId, guard := bindGuard s f.g, data := ((rdA s f.s).setWidth 40).setWidth 256 } (afterIssue k pc)) ∧
      (bindGuard s f.g = .discarded → Completes (.stv f) s s)) ∧
    (∀ f : FVrcl, ReadyA s [f.b] → MayGo s f.g → (rdA s f.b).toNat % 4 = 0 →
      (bindGuard s f.g ≠ .discarded → SendsAccess (.vrcl f) s { newAccess s .vrcl .pr (rdA s f.b) 4 with
        id := s.nextId, guard := bindGuard s f.g } (afterIssue k pc)) ∧
      (bindGuard s f.g = .discarded → Completes (.vrcl f) s s)) ∧
    ∀ f : FLdv, ReadyA s [f.b, f.d] → MayGo s 0#3 → (rdA s f.b).toNat % 4 = 0 →
      SendsAccess (.ldv f) s { newAccess s (.ldv ((rdA s f.d).extractLsb' 32 8)) .pr (rdA s f.b) 4 with
        id := s.nextId, dest := .a f.d }
        { afterIssue (k.putA f.d ⟨rdA s f.d, .pending s.nextId⟩) pc with hold := some (.access s.nextId) }

/-- R227, R229, R230: `nbar.init` sets a barrier's expected count and clears its arrivals, its pending bytes and its sums,
leaving its phase; `fence` holds later accesses until every earlier one has been performed at its scope. -/
def Claims.BarrierInitAndFence : Prop :=
  ∀ s : State,
    (∀ f : FNbarInit, ReadyA s [f.n] → holding s (curTask s) = false → (rdA s f.n).toNat % 65536 ≠ 0 →
      ownBarrierBusy s f.b.toNat = false →
      Completes (.nbarInit f) s (setBar s s.cur.tile f.b.toNat { barAt s s.cur.tile f.b.toNat with
        exp := (rdA s f.n).setWidth 16, arr := 0#16, pend := 0#56, sdet := 0#32, srep := 0#32 })) ∧
    ∀ f : FFence, holding s (curTask s) = false →
      Completes (.fence f) s (setCurTask s { curTask s with hold := some (.fence f.s s.nextId) })

/-- R221, R228, R229, R231, R232, R233, R227, R230: What the synchronisation instructions send, set and hold:
`Claims.SynchronisationIssues`, `Claims.BarrierInitAndFence`. -/
def Obligations.SynchronisationIssues : Prop :=
  Claims.SynchronisationIssues ∧ Claims.BarrierInitAndFence

/-- R223, R225, R226, R344: the messages of a task. `send` reads its payload at issue for a tile's inbox or an edge streamer, with
the errors that the read corrects counted, or logs the fault that the read meets (at the payload's address: the model's choice,
log 122);
`send.eos` closes a stream, `put` and `put.x` send a word to a landing register of the tile or a mesh neighbour; a discarded
`put.x` still consumes the head of xq. -/
def Claims.MessagesIssue : Prop :=
  ∀ s : State,
    let k := curTask s
    let pc := s.cur.pc
    (∀ f : FSend, ReadyA s [f.d, f.p] → MayGo s f.g → (rdA s f.p).toNat % 4 = 0 →
      payloadBlocked s (rdA s f.p) f.n.toNat = false → payloadFault s (rdA s f.p) f.n.toNat = none →
      let dst : BitVec 20 := (rdA s f.d).setWidth 20
      let bytes := memRead (curTile s).sp (rdA s f.p).toNat f.n.toNat
      let g := bindGuard s f.g
      let s1 := if f.n = 0 then s else readCorrects s (.sp s.cur.tile (rdA s f.p).toNat) f.n.toNat
      (sendTarget dst = some false → g ≠ .discarded → ∃ t, exec (.send f) s = .next t ∧
        SentMessage s1 t (newMessage s 5 dst g (.inbox bytes)) (afterIssue k pc)) ∧
      (sendTarget dst = some true → g ≠ .discarded → ∃ t, exec (.send f) s = .next t ∧
        SentMessage s1 t (newMessage s 4 dst g (.streamer bytes (commandWord (.send f)) (rdA s f.d))) (afterIssue k pc)) ∧
      (sendTarget dst ≠ none → g = .discarded → Completes (.send f) s s)) ∧
    (∀ (f : FSend) (c : Code), ReadyA s [f.d, f.p] → MayGo s f.g → (rdA s f.p).toNat % 4 = 0 →
      payloadBlocked s (rdA s f.p) f.n.toNat = false → payloadFault s (rdA s f.p) f.n.toNat = some c →
      sendTarget ((rdA s f.d).setWidth 20) ≠ none → bindGuard s f.g ≠ .discarded →
      Completes (.send f) s (logPayload s c (rdA s f.p))) ∧
    (∀ f : FSendEos, ReadyA s [f.d, f.s] → MayGo s f.g →
      let dst : BitVec 20 := (rdA s f.d).setWidth 20
      let g := bindGuard s f.g
      sendTarget dst = some true →
      (g ≠ .discarded → SendsMessage (.sendEos f) s
        (newMessage s 4 dst g (.eos ((rdA s f.s).setWidth 32) (commandWord (.sendEos f)) (rdA s f.d))) (afterIssue k pc)) ∧
      (g = .discarded → Completes (.sendEos f) s s)) ∧
    (∀ f : FPut, ReadyA s [f.t, f.s] → MayGo s f.g →
      let u := (rdA s f.t).toNat % 65536
      let g := bindGuard s f.g
      putReach s.cur.tile u = true →
      (g ≠ .discarded → SendsMessage (.put f) s
        (newMessage s 5 (BitVec.ofNat 20 u) g (.put f.n.toNat ((rdA s f.s).setWidth 32))) (afterIssue k pc)) ∧
      (g = .discarded → Completes (.put f) s s)) ∧
    ∀ (f : FPutX) (v : DWord) (r : List DWord), ReadyA s [f.t] → MayGo s f.g → k.xq = v :: r →
      let u := (rdA s f.t).toNat % 65536
      let g := bindGuard s f.g
      putReach s.cur.tile u = true →
      (g ≠ .discarded → SendsMessage (.putX f) s
        (newMessage s 5 (BitVec.ofNat 20 u) g (.put f.n.toNat (v.setWidth 32))) (afterIssue { k with xq := r } pc)) ∧
      (g = .discarded → Completes (.putX f) s (setCurTask s { k with xq := r }))

/-- R223, R225, R229: a destination that is no inbox or streamer, a tile out of reach of `put`, and an expected count of 0
raise COMMAND_INVALID precisely. -/
def Claims.MalformedMessagesTrap : Prop :=
  ∀ s : State,
    (∀ f : FSend, ReadyA s [f.d, f.p] → MayGo s f.g → sendTarget ((rdA s f.d).setWidth 20) = none →
      Becomes (.send f) s (preciseTrap s .commandInvalid 0#64 0#64)) ∧
    (∀ f : FPut, ReadyA s [f.t, f.s] → MayGo s f.g → putReach s.cur.tile ((rdA s f.t).toNat % 65536) = false →
      Becomes (.put f) s (preciseTrap s .commandInvalid 0#64 0#64)) ∧
    ∀ f : FNbarInit, ReadyA s [f.n] → holding s (curTask s) = false → (rdA s f.n).toNat % 65536 = 0 →
      Becomes (.nbarInit f) s (preciseTrap s .commandInvalid 0#64 0#64)

/-- R223, R225, R226, R344, R229: What send, send.eos, put and put.x send, and when they trap: `Claims.MessagesIssue`,
`Claims.MalformedMessagesTrap`. -/
def Obligations.MessagesIssue : Prop :=
  Claims.MessagesIssue ∧ Claims.MalformedMessagesTrap

/-- R234, R284, R292: `sys` waits for the X instructions up to its own, completes its bundle and then stops the task with
SYS_REQUEST, to resume after it; at the end bundle of an active loop too it leaves the counters alone and resumes at the next
bundle (the model's choice, log 12); `trap` raises USER_TRAP and `brk` BREAK precisely at their bundle, with INFO 0xFF for `brk`. -/
def Claims.RequestsAndTraps : Prop :=
  ∀ s : State,
    (∀ f : FSys, ReadyA s [f.a, f.b] →
      let s1 := issued s (curTask s).lc (s.cur.pc + 8#64)
      let i : TrapInfo :=
        { code := .sysRequest, xside := false, precise := true, info := 0#8, pc := s.cur.pc, apc := s.cur.pc,
          arg0 := f.n.setWidth 64, arg1 := rdA s f.a, arg2 := rdA s f.b, rpc := s.cur.pc + 8#64, xpushed := false }
      MovedTo s s1 (s.cur.pc + 8#64) ∧
      ((curTask s).xinstr = [] →
        exec (.sys f) s = .next (setTile s1 s.cur.tile { tileOf s1 s.cur.tile with run := .stopping i })) ∧
      ((curTask s).xinstr ≠ [] → exec (.sys f) s = .next (waitBundle s))) ∧
    (∀ f : FTrap, ReadyA s [f.a] →
      exec (.trap f) s = .next (preciseTrap s .userTrap (f.n.setWidth 64) (rdA s f.a)) ∧
      (curTile (preciseTrap s .userTrap (f.n.setWidth 64) (rdA s f.a))).run = .stopping
        { code := .userTrap, xside := false, precise := true, info := 0#8, pc := s.cur.pc, apc := s.cur.pc,
          arg0 := f.n.setWidth 64, arg1 := rdA s f.a, arg2 := 0#64, rpc := s.cur.pc, xpushed := (curTask s).xpushed }) ∧
    ∀ f : FBrk,
      exec (.brk f) s = .next (preciseTrapInfo s .brk 0xff#8 (f.n.setWidth 64) 0#64) ∧
      (curTile (preciseTrapInfo s .brk 0xff#8 (f.n.setWidth 64) 0#64)).run = .stopping
        { code := .brk, xside := false, precise := true, info := 0xff#8, pc := s.cur.pc, apc := s.cur.pc,
          arg0 := f.n.setWidth 64, arg1 := 0#64, arg2 := 0#64, rpc := s.cur.pc, xpushed := (curTask s).xpushed }

/-- R69: a precise trap of a bundle takes back the X instruction that the bundle had pushed and the generation it had opened,
stops the task, and writes no register. -/
def Claims.PreciseTrapsTakeBack : Prop :=
  ∀ (s : State) (code : Code) (info : Byte) (a0 a1 : DWord),
    let t := preciseTrapInfo s code info a0 a1
    let k := curTask s
    (∃ i, (curTile t).run = .stopping i ∧ i.code = code ∧ i.precise = true ∧ i.pc = s.cur.pc ∧ i.rpc = s.cur.pc ∧
      i.arg0 = a0 ∧ i.arg1 = a1) ∧
    (curTask t).pc = k.pc ∧ (curTask t).a = k.a ∧ (curTask t).lc = k.lc ∧
    (s.cur.pushed = true → (curTask t).xinstr = k.xinstr.dropLast) ∧
    (s.cur.pushed = false → curTask t = k) ∧
    (∀ n : BitVec 3, s.cur.pushed = true → s.cur.opened = n.toNat → n ≠ 0#3 →
      (curTask t).gd = k.gd.set n.toFin k.gd[n.toFin].closeGen) ∧
    SameBytes s t

/-- R235, R279, R288, R305: `halt` holds every tile of the cohort at a bundle boundary, unless another halt holds the tile first,
and queues one HALTED record behind the one that waits to leave; in a cohort already halted it changes nothing more. Where 16
records stand behind that one the bundle waits. -/
def Claims.HaltStopsCohort : Prop :=
  (∀ s : State, cohortOf s s.cur.tile = none → Completes .halt s s) ∧
  ∀ (s : State) (key : Nat) (c : Cohort) (j : Nat), cohortOf s s.cur.tile = some (key, c, j) →
    let stopped (st : CohortStatus) : State :=
      let t := holdCohort (setCohort (finish s) key { c with status := st }) c
      queueRecord t s.cur.tile (haltedRecord t s.cur.tile 0#8 (curTask s).gtid (loopNext (curTask s).lc s.cur.pc).2)
    (recordsFull s s.cur.tile = false → c.status = .resident → exec .halt s = .next (stopped .halted)) ∧
    (recordsFull s s.cur.tile = false → c.status = .halting false → exec .halt s = .next (stopped (.halting true))) ∧
    (recordsFull s s.cur.tile = true → c.status = .resident ∨ c.status = .halting false → exec .halt s = .next (waitBundle s)) ∧
    (c.status ≠ .resident → c.status ≠ .halting false → Completes .halt s s) ∧
    (recordsFull s s.cur.tile = true ↔ 17 ≤ (curTile s).records.length) ∧
    (s.cur.tile ∈ cohortTiles c → ∀ st, let t := stopped st
      smFind key t.cohorts = some { c with status := st } ∧
      (∀ u ∈ cohortTiles c, (tileOf t u).halt = if (tileOf s u).halt = .none then .held false else (tileOf s u).halt) ∧
      (∀ u, u ∉ cohortTiles c → tileOf t u = tileOf s u) ∧
      (∃ v, (curTile t).records = (curTile s).records ++ [v] ∧ v.code = .halted ∧ v.gtid = (curTask s).gtid) ∧
      (curTask t).a = (curTask s).a ∧ SameBytes s t)

/-- R234, R284, R292, R69, R235, R279, R288, R305: Requests, traps and halts; a precise trap takes its whole bundle back:
`Claims.RequestsAndTraps`, `Claims.PreciseTrapsTakeBack`, `Claims.HaltStopsCohort`. -/
def Obligations.TrapsAndHalts : Prop :=
  Claims.RequestsAndTraps ∧ Claims.PreciseTrapsTakeBack ∧ Claims.HaltStopsCohort

/-- R236-R238: what each control register reads as, and which of its fields a write sets; values that a field reserves are
not taken. -/
def Obligations.ControlRegisters : Prop :=
  ∀ s : State,
    let k := curTask s
    (∀ f : FRdcr, FreeA s [f.d] → (f.n = 4#3 ∨ f.n = 5#3 → earlierX s = false) → f.n.toNat < 7 →
      ∃ v, Completes (.rdcr f) s (wrA s f.d v) ∧
        (f.n = 0#3 → v = k.gtid) ∧
        (f.n = 1#3 → v = BitVec.ofNat 64 (qidx s.cur.tile * 65536 + s.cur.tile % 65536)) ∧
        (f.n = 2#3 → v = BitVec.ofNat 64 (k.slip * 256 + (if k.long = true then 64 else 0) + k.rm.toNat)) ∧
        (f.n = 3#3 → v = (curTile s).vshare.setWidth 64) ∧ (f.n = 4#3 → v = k.redq.setWidth 64) ∧
        (f.n = 5#3 → v = k.lfsr.setWidth 64) ∧ (f.n = 6#3 → v = BitVec.ofNat 64 s.clk)) ∧
    ∀ f : FWrcr, ReadyA s [f.s] → (f.n ≠ 3#3 → k.xinstr = []) →
      let v := rdA s f.s
      (f.n = 2#3 → v.toNat % 8 < 5 → Completes (.wrcr f) s (setCurTask s { k with rm := v.setWidth 3 })) ∧
      (f.n = 2#3 → 5 ≤ v.toNat % 8 → Completes (.wrcr f) s (setCurTask s k)) ∧
      (f.n = 3#3 → v.toNat % 16 ≠ 0 → Completes (.wrcr f) s (setCurTile s { curTile s with vshare := v.setWidth 4 })) ∧
      (f.n = 3#3 → v.toNat % 16 = 0 → Completes (.wrcr f) s s) ∧
      (f.n = 4#3 → Completes (.wrcr f) s (setCurTask s { k with redq := v.setWidth 32 })) ∧
      (f.n = 5#3 → Completes (.wrcr f) s (setCurTask s { k with lfsr := v.setWidth 32 }))

/-- R64, R184, R185: `tdef` sends the read of a descriptor for its entry, which stands pending until it comes; `tinv` and
`tinv.all` make entries invalid; each drops what its task had logged for a poisoned entry. -/
def Claims.TensorEntries : Prop :=
  ∀ s : State,
    let tl := curTile s
    let logged (n : BitVec 6) (e : ReplayEntry) : Bool := e.kind == 10#8 && e.slot == n.toNat && e.gtid == (curTask s).gtid
    (∀ f : FTdef, let ea := rdA s (f.b.setWidth 4)
      ReadyA s [f.b.setWidth 4] → MayGo s 0#3 → ea.toNat % 32 = 0 → (entryAt s f.n).isPending = false →
      Completes (.tdef f) s { setCurTile s { tl with
          tt := tl.tt.set f.n.toFin (.pending s.nextId), replay := tl.replay.filter fun e => !logged f.n e } with
        accs := s.accs ++ [{ newAccess s .tdef (spaceOf f.s.toNat) ea 32 with id := s.nextId, dest := .tensor f.n }]
        nextId := s.nextId + 1 }) ∧
    (∀ f : FTinv, holding s (curTask s) = false → (entryAt s f.n).isPending = false →
      Completes (.tinv f) s (setCurTile s { tl with
        tt := tl.tt.set f.n.toFin .invalid, replay := tl.replay.filter fun e => !logged f.n e })) ∧
    (holding s (curTask s) = false → (∀ n : BitVec 6, (entryAt s n).isPending = false) →
      ∃ r, Completes .tinvAll s (setCurTile s { tl with tt := Vector.replicate 64 .invalid, replay := r }) ∧
        ∀ e, e ∈ r ↔ e ∈ tl.replay ∧ ∀ n : BitVec 6, logged n e = false)

/-- R186, Table 13-4: every command that names an invalid entry raises TENSOR_UNDEFINED, and one that names a poisoned entry raises
what was logged for the first of them in field order, precisely at its bundle. -/
def Claims.UndefinedTensorsTrap : Prop :=
  ∀ (s : State) (i : Instr) (slot : BitVec 3) (regs : List (BitVec 4)) (ts : List (BitVec 6)),
    namesEntries s i = some (slot, regs, ts) → MayGo s slot → ReadyA s regs →
    (∀ n ∈ ts, (entryAt s n).isPending = false) →
    ((∃ n ∈ ts, entryAt s n = .invalid) → Becomes i s (preciseTrap s .tensorUndefined 0#64 0#64)) ∧
    ∀ (l r : List (BitVec 6)) (n : BitVec 6) (c : Code) (ea : DWord), ts = l ++ n :: r → (∀ m ∈ ts, entryAt s m ≠ .invalid) →
      (∀ m ∈ l, ∀ c' ea', entryAt s m ≠ .poisoned c' ea') → entryAt s n = .poisoned c ea →
      Becomes i s (preciseTrap s c ea 0#64)

/-- R182, R184: a descriptor that returns makes its entry valid with the fields of Table 13-3, where it is well formed; a reserved
format or a malformed field poisons the entry and logs the trap. SCALE is checked only for formats with scales (the model's choice,
log 34). -/
def Claims.DescriptorsArrive : Prop :=
  ∀ (s : State) (a : Access) (n : Nat) (v : Vec), a.op = .tdef → a.dest = .tensor (BitVec.ofNat 6 n) → n < 64 →
    s.accs.find? (fun b => b.tile == a.tile && b.op == .tdef && b.dest == .tensor (BitVec.ofNat 6 n) && b.res.isSome) =
      some a →
    a.res = some (.value v) →
    let field (lo len : Nat) : Nat := v.toNat / 2 ^ lo % 2 ^ len
    let format := field 0 5
    let entry (t : State) : TEntry := (tileOf t a.tile).tt[n % 64]'(Nat.mod_lt _ (by decide))
    (28 ≤ format → ∃ t, exec (.tdefDescriptorArrival a.tile n) s = .next t ∧ entry t = .poisoned .formatReserved a.ea) ∧
    (format < 28 → field 32 16 = 0 ∨ field 48 16 = 0 ∨ field 64 62 % 4 ≠ 0 ∨ field 128 32 % 4 ≠ 0 →
      ∃ t, exec (.tdefDescriptorArrival a.tile n) s = .next t ∧ entry t = .poisoned .commandInvalid a.ea) ∧
    (format < 28 → field 5 19 = 0 → field 160 32 = 0 → field 32 16 ≠ 0 → field 48 16 ≠ 0 →
      (field 24 8 = 0 ∨ field 24 8 = (fmt format).block) → field 64 62 % 4 = 0 → field 128 32 % 4 = 0 →
      ((fmt format).scale ≠ .none → field 192 62 % 4 = 0) → rowBytes format (field 48 16) ≤ field 128 32 →
      ∃ t, exec (.tdefDescriptorArrival a.tile n) s = .next t ∧
        entry t = .valid
          { cols := field 48 16, rows := field 32 16, block := field 24 8, format := format, space := spaceOf (field 126 2),
            base := field 64 62, stride := field 128 32, scale := field 192 62 })

/-- R64, R184, R185, R186, Table 13-4, R182: Tensor entries are defined, arrive, are made invalid, and trap when undefined:
`Claims.TensorEntries`, `Claims.UndefinedTensorsTrap`, `Claims.DescriptorsArrive`. -/
def Obligations.TensorEntries : Prop :=
  Claims.TensorEntries ∧ Claims.UndefinedTensorsTrap ∧ Claims.DescriptorsArrive

/-- R180, R186, R189-R193: each command of the matrix array is checked on the entries it captures and queued with them: an index
that is no multiple of the pair's K, or of the depth of `mld.bl`, raises ALIGN, with the index in ARG0 (the model's choice, log 53);
else a pair of formats, a space, a format or a depth that the array does not take raises COMMAND_INVALID. An `mst` under RS advances
the generator while its guard is not yet resolved too (the model's choice, log 97). -/
def Obligations.MatrixCommandsIssue : Prop :=
  ∀ s : State, (curTile s).matq.length < 16 →
    let k := curTask s
    let bad := preciseTrap s .commandInvalid 0#64 0#64
    (∀ f : FMmz, MayGo s f.g → QueuesMatrix (.mmz f) s (captured s f.g (.mmz f) [] [])) ∧
    (∀ (f : FMma) (a b : Desc), MayGo s f.g → ReadyA s [f.k] → entryAt s f.a = .valid a → entryAt s f.b = .valid b →
      let key : Word := (rdA s f.k).setWidth 32
      (∀ d c, a.space = .sp → b.space = .sp → pairShape a.format b.format = some (d, c) →
        (key.toNat % d = 0 → QueuesMatrix (.mma f) s (captured s f.g (.mma f) [a, b] [key.setWidth 64])) ∧
        (key.toNat % d ≠ 0 → Becomes (.mma f) s (preciseTrap s .align (key.setWidth 64) 0#64))) ∧
      (a.space ≠ .sp ∨ b.space ≠ .sp ∨ pairShape a.format b.format = none →
        (∀ d c, pairShape a.format b.format = some (d, c) → key.toNat % d = 0) → Becomes (.mma f) s bad)) ∧
    (∀ (f : FMmaBl) (g : FMmaR) (a : Desc), a.space ≠ .sp →
      (MayGo s f.g → entryAt s f.a = .valid a → Becomes (.mmaBl f) s bad) ∧
      (MayGo s g.g → entryAt s g.a = .valid a → Becomes (.mmaR g) s bad)) ∧
    (∀ (f : FMld) (d : Desc), MayGo s f.g → entryAt s f.s = .valid d → d.space ≠ .sp ∨ d.format ≠ 0 →
      Becomes (.mld f) s bad) ∧
    (∀ (f : FMldBl) (d : Desc), MayGo s f.g → ReadyA s [f.k.setWidth 4] → entryAt s f.b = .valid d →
      let key : Word := (rdA s (f.k.setWidth 4)).setWidth 32
      let depth := blDepth f.p.toNat d
      (key.toNat % depth ≠ 0 → Becomes (.mldBl f) s (preciseTrap s .align (key.setWidth 64) 0#64)) ∧
      (key.toNat % depth = 0 → d.space ≠ .sp ∨ fp32Class d.format = true ∨ (fmt d.format).slabK < depth →
        Becomes (.mldBl f) s bad)) ∧
    (∀ (f : FMst) (d : Desc), MayGo s f.g → entryAt s f.d = .valid d →
      inputOnly d.format = true ∨ (f.t ≠ 0#2 ∧ d.format ≠ 0x14 ∧ d.format ≠ 0x15) → Becomes (.mst f) s bad) ∧
    (∀ (f : FMmaBl) (a : Desc), MayGo s f.g → entryAt s f.a = .valid a → a.space = .sp →
      QueuesMatrix (.mmaBl f) s (captured s f.g (.mmaBl f) [a] [])) ∧
    (∀ (f : FMmaR) (a : Desc), MayGo s f.g → entryAt s f.a = .valid a → a.space = .sp →
      QueuesMatrix (.mmaR f) s (captured s f.g (.mmaR f) [a] [])) ∧
    (∀ (f : FMld) (d : Desc), MayGo s f.g → entryAt s f.s = .valid d → d.space = .sp → d.format = 0 →
      QueuesMatrix (.mld f) s (captured s f.g (.mld f) [d] [])) ∧
    (∀ (f : FMldBl) (d : Desc), MayGo s f.g → ReadyA s [f.k.setWidth 4] → entryAt s f.b = .valid d → d.space = .sp →
      fp32Class d.format = false →
      let key : Word := (rdA s (f.k.setWidth 4)).setWidth 32
      let depth := blDepth f.p.toNat d
      depth ≤ (fmt d.format).slabK → key.toNat % depth = 0 →
      QueuesMatrix (.mldBl f) s (captured s f.g (.mldBl f) [d] [key.setWidth 64])) ∧
    ∀ (f : FMst) (d : Desc), MayGo s f.g → entryAt s f.d = .valid d → inputOnly d.format = false →
      (f.t ≠ 0#2 → d.format = 0x14 ∨ d.format = 0x15) →
      let rm := if f.r = 6#3 then k.rm else f.r
      let c := captured s f.g (.mst f) [d] [k.k[2].setWidth 64, k.lfsr.setWidth 64, rm.setWidth 64]
      (f.r ≠ 5#3 → QueuesMatrix (.mst f) s c) ∧
      (f.r = 5#3 → c.guard ≠ .discarded → Completes (.mst f) s (setCurTile { s with nextId := s.nextId + 1 }
        { curTile s with matq := (curTile s).matq ++ [c], task := { k with lfsr := lfsrNext k.lfsr } })) ∧
      (f.r = 5#3 → c.guard = .discarded → Completes (.mst f) s s)

/-- R55, R180, R188-R191, R193: what the matrix array does with the command at the head of its queue, which then leaves it:
`mmz` clears an accumulator, `mld` loads one from an FP32 tensor, `mld.bl` latches a slab, and `mst` writes its tensor. A
discarded command leaves, a held one stays, and a tile whose halt is complete starts none. -/
def Claims.MatrixArrayRuns : Prop :=
  ∀ (s : State) (t : Nat) (c : Cmd) (r : List Cmd),
    let s0 := clearWaits s t [8]
    let runs (t' : State) : Prop := exec (.matrixCommandComplete t) s = .next t' ∧ (tileOf t' t).matq = r
    (ArrayGoes s t c r →
      (∀ f : FMmz, c.body = .mmz f → f.d.toNat < 4 → ∃ t', runs t' ∧ ∀ n, n < 4 →
        accOf (tileOf t' t).task n = if n = f.d.toNat then [] else accOf (tileOf s t).task n) ∧
      (∀ (f : FMld) (d : Desc), c.body = .mld f → c.descs = [d] → f.d.toNat < 4 →
        let e := engRows (engStart s0 t c) d 0 32 32
        e.2.clean → ∃ t', runs t' ∧ ∀ i j, i < 32 → j < 32 →
          smGet 0#32 (32 * i + j) (accOf (tileOf t' t).task f.d.toNat) =
            if i < d.rows ∧ j < d.cols then BitVec.ofNat 32 (codeAt 32 ((e.1[i]?).getD ⟨[], []⟩).el j) else 0#32) ∧
      (∀ (f : FMldBl) (d : Desc) (key : DWord), c.body = .mldBl f → c.descs = [d] → c.regs = [key] →
        (tileOf s t).task.bl = none →
        let depth := blDepth f.p.toNat d
        let e0 := engHead (engStart s0 t c) d
        let e := engRows e0.2 d (key.toNat % 2 ^ 32) depth 32
        e.2.clean → ∃ t', runs t' ∧
          (tileOf t' t).task.bl = some ⟨d, key.toNat % 2 ^ 32, depth, slabMem e.1 e0.1⟩) ∧
      (∀ (f : FMst) (d : Desc) (k2 g rm : DWord), c.body = .mst f → c.descs = [d] → c.regs = [k2, g, rm] →
        let e := mstRows (engStart s0 t c) (accOf (tileOf s t).task f.s.toNat) d f (decodeF fF32 (k2.toNat % 2 ^ 32)) rm.toNat
          (min 32 d.rows) 0 (g.setWidth 32)
        e.clean → engAwaitsHost (engStart s0 t c) d = none → ∃ t', runs t' ∧ t'.edge = e.s.edge ∧
          (∀ u, (tileOf t' u).sp = (tileOf e.s u).sp) ∧ t'.quads = e.s.quads ∧ t'.ports = e.s.ports)) ∧
    ((tileOf s t).matq = c :: r → (tileOf s t).halt ≠ .preempt true → (tileOf s t).forwarding = none →
      (c.guard = .discarded → ∃ t', runs t' ∧ (tileOf t' t).task = (tileOf s t).task) ∧
      (c.guard.isBound = true → Becomes (.matrixCommandComplete t) s s0)) ∧
    ((tileOf s t).halt = .preempt true → Becomes (.matrixCommandComplete t) s s0)

/-- R112, R115, R190, R191, R194: at f0, with the power tokens that its cluster needs, `mma` adds the slab product of its two
tensors, and `mma.bl` and `mma.r` that of their tensor and the slab in bl, which leaves bl, to the accumulator that each names;
`mma.r` then stays at the head with its slab for its Ringway successor. -/
def Claims.SlabsAccumulate : Prop :=
  ∀ (s : State) (t : Nat) (c : Cmd) (r : List Cmd), ArrayGoes s t c r → (quadAt s (quadOf t)).fid = 0 →
    burstNeed s (clusterOf t) ≤ (clusterAt s (clusterOf t)).tokens →
    let s0 := (tokensHeld (clearWaits s t [8]) (clusterOf t)).2
    let acc (n : Nat) : SMap Word := accOf (tileOf s t).task n
    (∀ (f : FMma) (a b : Desc) (key : DWord) (k w : Nat), c.body = .mma f → c.descs = [a, b] → c.regs = [key] →
      fp32Class a.format = false → pairShape a.format b.format = some (k, w) →
      let k0 := key.toNat % 2 ^ 32
      let e0 := engHead (engStart s0 t c) a
      let e1 := engHead e0.2 b
      let ra := engRows e1.2 a k0 k 32
      let rb := engRows ra.2 b k0 k 32
      rb.2.clean → ∃ t', exec (.matrixCommandComplete t) s = .next t' ∧ (tileOf t' t).matq = r ∧
        accOf (tileOf t' t).task f.d.toNat = slabPass ⟨0, false, 0⟩ w (passRows a ra.1 e0.1 k0 k none)
          (passRows b rb.1 e1.1 k0 k none) (acc f.d.toNat)) ∧
    ∀ (a : Desc) (b : Slab) (k w : Nat), c.descs = [a] →
      (tileOf s t).task.bl = some b → fp32Class a.format = false → pairShape a.format b.desc.format = some (k, w) →
      b.depth = k →
      let e0 := engHead (engStart s0 t c) a
      let ra := engRows e0.2 a b.k0 k 32
      let adds (d : BitVec 2) (t' : State) : Prop :=
        exec (.matrixCommandComplete t) s = .next t' ∧ (tileOf t' t).task.bl = (tileOf s t).task.ring ∧
          accOf (tileOf t' t).task d.toNat = slabPass ⟨0, false, 0⟩ w (passRows a ra.1 e0.1 b.k0 k none)
            (passRows b.desc ((upFrom 0 32).map (slabRow b)) (leNat (memRead b.bytes 1152 4)) b.k0 k none) (acc d.toNat)
      ra.2.clean →
        (∀ f : FMmaBl, c.body = .mmaBl f → ∃ t', adds f.d t' ∧ (tileOf t' t).matq = r) ∧
        ∀ f : FMmaR, c.body = .mmaR f → ∃ t', adds f.d t' ∧ (tileOf t' t).matq = c :: r ∧
          (tileOf t' t).forwarding = some (b, ringwayNext t f.l.toNat)

/-- R190-R192, R296: a bl form whose slab has the wrong depth takes the slab, forwards and adds nothing, and fails with ENGINE_FAIL
of REASON 0x01: where its task stands on the tile its replay queue logs the entry, and its launch, where no error came before, has
that error. -/
def Claims.WrongDepthFails : Prop :=
  ∀ (s : State) (t : Nat) (c : Cmd) (r : List Cmd) (a : Desc) (b : Slab) (k w : Nat), ArrayGoes s t c r →
    (∃ f, c.body = .mmaBl f) ∨ (∃ f, c.body = .mmaR f) → c.descs = [a] → (tileOf s t).task.bl = some b →
    pairShape a.format b.desc.format = some (k, w) → b.depth ≠ k → taskStopped s t c = false →
    (tileOf s t).replay.length < 256 →
    ∃ t', exec (.matrixCommandComplete t) s = .next t' ∧ (tileOf t' t).matq = r ∧
      (tileOf t' t).task.bl = (tileOf s t).task.ring ∧ (tileOf t' t).task.m = (tileOf s t).task.m ∧
      (tileOf t' t).forwarding = none ∧
      (taskHere s t c.gtid = true → ∃ e, (tileOf t' t).replay = (tileOf s t).replay ++ [e] ∧ e.code = .engineFail ∧
        e.info = 1#8 ∧ e.gtid = c.gtid) ∧
      ∀ l, smFind (launchOf s t) s.launches = some l → l.failed = none →
        ∃ l', smFind (launchOf s t) t'.launches = some l' ∧ l'.failed = some .engineFail ∧ l'.reason = 1#8

/-- R55, R180, R188, R189, R190, R191, R193, R112, R115, R194, R192, R296: What the matrix array does with the command at the
head of its queue: `Claims.MatrixArrayRuns`, `Claims.SlabsAccumulate`, `Claims.WrongDepthFails`. -/
def Obligations.MatrixArrayRuns : Prop :=
  Claims.MatrixArrayRuns ∧ Claims.SlabsAccumulate ∧ Claims.WrongDepthFails

/-- R192: the slab that an `mma.r` has used goes to its Ringway successor once a task runs there with its buffers empty, and
only then does the command leave; a landed slab enters the ring buffer, and bl where that is empty and a task runs. -/
def Claims.RingwayForwards : Prop :=
  (∀ (s : State) (t u : Nat) (c : Cmd) (r : List Cmd) (b : Slab), (tileOf s t).matq = c :: r →
    (tileOf s t).halt ≠ .preempt true → (tileOf s t).forwarding = some (b, u) → sameCohort s t u = true →
    ((tileOf s u).run ≠ .idle → (tileOf s u).ringNet = none → (tileOf s u).task.ring = none →
      ∃ t', exec (.matrixCommandComplete t) s = .next t' ∧ (tileOf t' u).ringNet = some b ∧ (tileOf t' t).matq = r ∧
        (tileOf t' t).forwarding = none) ∧
    ((tileOf s u).run = .idle ∨ (tileOf s u).ringNet ≠ none ∨ (tileOf s u).task.ring ≠ none →
      Becomes (.matrixCommandComplete t) s (clearWaits s t [8]))) ∧
  ∀ (s : State) (t : Nat) (b : Slab), (tileOf s t).ringNet = some b → (tileOf s t).task.ring = none →
    let k := (tileOf s t).task
    ∃ t', exec (.ringwayForwardLanding t) s = .next t' ∧ (tileOf t' t).ringNet = none ∧
      ((tileOf s t).run = .idle ∨ k.bl ≠ none → (tileOf t' t).task = { k with ring := some b }) ∧
      ((tileOf s t).run ≠ .idle → k.bl = none → (tileOf t' t).task = { k with bl := some b })

/-- R194, R278: a cluster that lacks the tokens its burst needs files its claim and its `mma` waits; free tokens of the die
go to the oldest claim up to its need; a burst begins as an `mma` has the tokens, and ends, with all its tokens returned, once no
`mma` has run for 2 microseconds, which is 2,500 clk; a cluster that has not begun its burst returns what it has gathered once no
`mma` waits. -/
def Claims.PowerTokens : Prop :=
  (∀ (s : State) (t : Nat) (c : Cmd) (r : List Cmd) (f : FMma) (a b : Desc), ArrayGoes s t c r → c.body = .mma f →
    c.descs = [a, b] → (clusterAt s (clusterOf t)).tokens < burstNeed s (clusterOf t) →
    (clusterAt s (clusterOf t)).claim = none →
    ∃ t', exec (.matrixCommandComplete t) s = .next t' ∧ (clusterAt t' (clusterOf t)).claim = some s.clk ∧
      (tileOf t' t).matq = (tileOf s t).matq) ∧
  (∀ (s : State) (d c : Nat), oldestClaim s d = some c →
    let n := min (dieAt s d).tokens (burstNeed s c - (clusterAt s c).tokens)
    ∃ t', exec (.tokenCirculation d) s = .next t' ∧ (clusterAt t' c).tokens = (clusterAt s c).tokens + n ∧
      (dieAt t' d).tokens = (dieAt s d).tokens - n ∧
      (burstNeed s c ≤ (clusterAt s c).tokens + n → (clusterAt t' c).claim = none)) ∧
  (∀ (s : State) (c : Nat), burstNeed s c ≤ (clusterAt s c).tokens →
    let t := tokensHeld s c
    t.1 = true ∧ (clusterAt t.2 c).burst = true ∧ (clusterAt t.2 c).ran = s.clk ∧
      (clusterAt t.2 c).tokens = (clusterAt s c).tokens) ∧
  ∀ (s : State) (c : Nat),
    let cl := clusterAt s c
    ((cl.burst = true ∧ cl.ran + 2500 ≤ s.clk) ∨
        (cl.burst = false ∧ ∀ q, q < 64 → ∀ i, i < 4 → mmaAtHead s (tileAt (64 * c + q) i) = false) →
      ∃ t', exec (.burstEnd c) s = .next t' ∧ (clusterAt t' c).tokens = 0 ∧ (clusterAt t' c).burst = false ∧
        (clusterAt t' c).claim = none ∧
        (dieAt t' (dieOfCluster c)).tokens = (dieAt s (dieOfCluster c)).tokens + cl.tokens) ∧
    (cl.burst = true → s.clk < cl.ran + 2500 → Becomes (.burstEnd c) s s)

/-- R192, R194, R278: Slabs travel the Ringway; bursts wait for power tokens: `Claims.RingwayForwards`, `Claims.PowerTokens`. -/
def Obligations.RingwayAndTokens : Prop :=
  Claims.RingwayForwards ∧ Claims.PowerTokens

/-- R180, R186, R197-R201, R203: each copy command is checked on its tensors, captured, and handed to the stream engine with
its charge: the bytes it can write, over every destination of a multicast. -/
def Claims.CopiesIssue : Prop :=
  ∀ s : State, copiesInFlight (curTile s) < 1024 →
    let t := s.cur.tile
    let same (d r : Desc) : Prop := d.format = r.format ∧ d.rows = r.rows ∧ d.cols = r.cols
    (∀ (f : FCpy) (d r : Desc), MayGo s f.g → entryAt s f.d = .valid d → entryAt s f.s = .valid r →
      (same d r → overlaps t r (tensorRanges r) d [memoryOf t d] = false →
        QueuesCopy (.cpy f) s (captured s f.g (.cpy f) [d, r] []) f.c (chargeOf d) none) ∧
      (¬ same d r → Becomes (.cpy f) s (preciseTrap s .commandInvalid 0#64 0#64)) ∧
      (d.format = r.format → transposable d.format = true → d.rows = r.cols → d.cols = r.rows →
        overlaps t r (tensorRanges r) d [memoryOf t d] = false →
        QueuesCopy (.cpyT f) s (captured s f.g (.cpyT f) [d, r] []) f.c (chargeOf d) none)) ∧
    (∀ (f : FCpyI) (d r i : Desc), MayGo s f.g → entryAt s f.d = .valid d → entryAt s f.s = .valid r →
      entryAt s f.i = .valid i →
      (indexedInvalid t d r i d.rows = false →
        QueuesCopy (.cpyG f) s (captured s f.g (.cpyG f) [d, r, i] []) f.c (chargeOf d) none) ∧
      (indexedInvalid t d r i r.rows = false →
        QueuesCopy (.cpyS f) s (captured s f.g (.cpyS f) [d, r, i] []) f.c (chargeOf r) none)) ∧
    (∀ (f : FCpyM) (d r : Desc) (us : List Nat), MayGo s f.g → ReadyA s [f.r.setWidth 4] → entryAt s f.d = .valid d →
      entryAt s f.s = .valid r → rectangle t (rdA s (f.r.setWidth 4)) = some us → d.space = .sp → same d r →
      overlaps t r (tensorRanges r) d (us.map fun u => (Space.sp, u)) = false →
      QueuesCopy (.cpyM f) s (captured s f.g (.cpyM f) [d, r] [rdA s (f.r.setWidth 4)]) f.c (chargeOf d * us.length) none) ∧
    ∀ (f : FCpy) (d : Desc), MayGo s f.g → ReadyA s [f.s.setWidth 4] → entryAt s f.d = .valid d →
      d.space = .sp ∨ d.space = .ql →
      let n := (rdA s (f.s.setWidth 4)).toNat / 2 ^ 32
      0 < n → n ≤ rowSpan d →
      QueuesCopy (.strm f) s (captured s f.g (.strm f) [d] [rdA s (f.s.setWidth 4)]) f.c (chargeOf d) none

/-- R202: `cpy.mma` captures with its copy the follow-on whose body stands in bits 29:0 of k[N]; a body that is no `mma` form
raises COMMAND_INVALID. -/
def Claims.FollowOnsCaptured : Prop :=
  ∀ (s : State) (f : FCpyMma), MayGo s f.g →
    let k := (curTask s).k[f.n.toNat % 4]'(Nat.mod_lt _ (by decide))
    let t := s.cur.tile
    ∀ d r : Desc, entryAt s f.d = .valid d → entryAt s f.s = .valid r →
      (followBody k = none → Becomes (.cpyMma f) s (preciseTrap s .commandInvalid 0#64 0#64)) ∧
      (copiesInFlight (curTile s) < 1024 → d.format = r.format → d.rows = r.rows → d.cols = r.cols →
        overlaps t r (tensorRanges r) d [memoryOf t d] = false →
        let c := captured s f.g (.cpyMma f) [d, r] [k.setWidth 64]
        (∀ (g : FMmaBl) (a : Desc), followBody k = some (.mmaBl g) → entryAt s g.a = .valid a → a.space = .sp →
          QueuesCopy (.cpyMma f) s c f.c (chargeOf d) (some (captured s 0#3 (.mmaBl g) [a] []))) ∧
        (∀ (g : FMmaR) (a : Desc), followBody k = some (.mmaR g) → entryAt s g.a = .valid a → a.space = .sp →
          QueuesCopy (.cpyMma f) s c f.c (chargeOf d) (some (captured s 0#3 (.mmaR g) [a] []))) ∧
        ∀ (g : FMma) (a b : Desc) (n w : Nat), followBody k = some (.mma g) → ReadyA s [g.k] → entryAt s g.a = .valid a →
          entryAt s g.b = .valid b → a.space = .sp → b.space = .sp → pairShape a.format b.format = some (n, w) →
          (rdA s g.k).toNat % 2 ^ 32 % n = 0 →
          QueuesCopy (.cpyMma f) s c f.c (chargeOf d)
            (some (captured s 0#3 (.mma g) [a, b] [((rdA s g.k).setWidth 32 : Word).setWidth 64])))

/-- R180, R186, R197, R198, R199, R200, R201, R203, R202: Each copy command is checked, captured with its charge, and handed
over: `Claims.CopiesIssue`, `Claims.FollowOnsCaptured`. -/
def Obligations.CopiesIssue : Prop :=
  Claims.CopiesIssue ∧ Claims.FollowOnsCaptured

/-- R55, R62, R197, R199, R201, R202: a copy whose turn has come moves its bytes and leaves the engine, the bytes still charged
are taken from its barrier, and its follow-on is pushed behind the matrix queue, or kept until it can be, or gone with its task;
the notice of a multicast waits behind results that stand at its tile's input; the loads and copies of the cluster that read the
same bytes are served with it. A discarded copy leaves and moves nothing; a held one stays. That the bytes of a copy land at once
and that the requests are merged which could be served at that moment are the model's choices (logs 45 and 44); so is it that what
is still charged to a copy that did not land whole is taken off as it completes (log 120). -/
def Claims.CopiesComplete : Prop :=
  ∀ (s : State) (t i : Nat) (c : Copy), (tileOf s t).copies[i]? = some c → c.landed = false →
    let e := runCopy (engStart s t c.cmd) c.cmd
    let settled (x : State) : State := match c.charge with
      | some b => if c.left = 0 then x else addPend x t b (-(BitVec.ofNat 56 c.left))
      | none => x
    let with' (x : State) (l : List Copy) : List Copy := (tileOf x t).copies.take i ++ l ++ (tileOf x t).copies.drop (i + 1)
    (c.cmd.guard = .free → noticed (tileOf s t) c.cmd.id = false → copyMay (tileOf s t) t i c = true →
      pushSeen s t c.cmd = true → isStrm c.cmd.body = false → copyAwaitsHost s t c = none → e.clean →
      let s1 := settled e.s
      let waits := isMulticast c.cmd.body = true ∧ (tileOf e.s t).efWait ≠ []
      ∃ t', exec (.copyComplete t i) s = .next (serveMerged t' (loadsWith s t c.cmd) (copiesWith s t c.cmd)) ∧
        (waits → SameBytes e.s t' ∧ (tileOf t' t).copies = (tileOf e.s t).copies ∧
          (tileOf t' t).efWait = (tileOf e.s t).efWait ++ [.notice c.cmd.id .sp]) ∧
        (¬ waits → SameBytes s1 t' ∧ (∀ u b, barAt t' u b = barAt s1 u b) ∧
          (c.follow = none → (tileOf t' t).copies = with' s1 []) ∧
          (∀ f, c.follow = some f → followMay s1 t f = true → (tileOf t' t).copies = with' s1 [] ∧
            (tileOf t' t).matq = (tileOf s1 t).matq ++ [{ f with id := s1.nextId }]) ∧
          (∀ f, c.follow = some f → followMay s1 t f = false → followGone s1 t f = false →
            (tileOf t' t).copies = with' s1 [{ c with landed := true, left := 0, charge := none }]) ∧
          (∀ f, c.follow = some f → followMay s1 t f = false → followGone s1 t f = true →
            (tileOf t' t).copies = with' s1 [] ∧ (tileOf t' t).matq = (tileOf s1 t).matq))) ∧
    (c.cmd.guard = .discarded →
      ∃ t', exec (.copyComplete t i) s = .next t' ∧ (tileOf t' t).copies = with' (settled s) [] ∧ SameBytes (settled s) t' ∧
        ∀ u b, barAt t' u b = barAt (settled s) u b) ∧
    (c.cmd.guard.isBound = true → Becomes (.copyComplete t i) s s)

/-- R202: the follow-on of a copy that has landed is pushed behind the matrix queue once its task runs and the queue has room, and
is dropped once its task has ended; until then it waits. -/
def Claims.FollowOnsWait : Prop :=
  ∀ (s : State) (t i : Nat) (c : Copy) (f : Cmd), (tileOf s t).copies[i]? = some c → c.landed = true → c.follow = some f →
    let without := (tileOf s t).copies.take i ++ (tileOf s t).copies.drop (i + 1)
    (followMay s t f = true → ∃ t', exec (.copyComplete t i) s = .next t' ∧ (tileOf t' t).copies = without ∧
      (tileOf t' t).matq = (tileOf s t).matq ++ [{ f with id := s.nextId }] ∧ SameBytes s t') ∧
    (followMay s t f = false → followGone s t f = true →
      Becomes (.copyComplete t i) s (setTile s t { tileOf s t with copies := without })) ∧
    (followMay s t f = false → followGone s t f = false → Becomes (.copyComplete t i) s s)

/-- R198: what a copy of rows does to memory: after an uncharged `cpy` between two tensors of one tile's scratchpad, of elements
without scales, whose rows share no byte, every byte of a stored row of the destination reads as that byte of the same row of the
source read before, and every other byte of every memory reads as before. -/
def Claims.CopyMovesRows : Prop :=
  ∀ (s : State) (t i : Nat) (f : FCpy) (cmd : Cmd) (d r : Desc) (c : Copy),
    (tileOf s t).copies[i]? = some c → c.cmd = cmd → c.landed = false → cmd.guard = .free → cmd.body = .cpy f →
    cmd.descs = [d, r] → noticed (tileOf s t) cmd.id = false → copyMay (tileOf s t) t i c = true →
    pushSeen s t cmd = true → c.charge = none → c.follow = none →
    memWf (tileOf s t).sp = true → s.damage = [] → (tileOf s t).guards = 0#3072 →
    d.space = .sp → r.space = .sp → d.rows = r.rows → d.format = r.format → d.cols = r.cols →
    (fmt d.format).scale = .none →
    let n := rowBytes d.format d.cols
    (∀ i, i < d.rows → rowAddr d i + n ≤ spBytes ∧ rowAddr r i + n ≤ spBytes) →
    (∀ i j, i < d.rows → j < d.rows → rowAddr d i + n ≤ rowAddr r j ∨ rowAddr r j + n ≤ rowAddr d i) →
    (∀ i j, i < j → j < d.rows → rowAddr d i + n ≤ rowAddr d j) →
    ∃ t', exec (.copyComplete t i) s = .next t' ∧
      (∀ i j, i < d.rows → j < n → byteAt t' (.sp t (rowAddr d i + j)) = byteAt s (.sp t (rowAddr r i + j))) ∧
      ∀ b, (∀ i j, i < d.rows → j < n → b ≠ .sp t (rowAddr d i + j)) → byteAt t' b = byteAt s b

/-- R55, R62, R197, R199, R201, R202, R198: What a copy writes, and what it leaves as before: `Claims.CopiesComplete`,
`Claims.FollowOnsWait`, `Claims.CopyMovesRows`. -/
def Obligations.CopiesComplete : Prop :=
  Claims.CopiesComplete ∧ Claims.FollowOnsWait ∧ Claims.CopyMovesRows

/-- R180, R203, R205, R226, R250, R314, R317: stream data of a registered producer land in the open subscription of a granted
stream, row by row, once what its tile did before the push is done, and count toward it; of a tile they are what its streamer next
has for the subscriber, up to the count; a producer's end token is noted, a tile's once its data are all given; nothing more is
taken of a producer behind a lost port or module; a subscription that has its count, or the tokens of every producer, completes.
One that a halt finds unfinished starts again in full after it, and a halted tile takes nothing. How a streamer counts what it has
given and that it gives it once more are the model's choices (logs 98 and 113). -/
def Claims.StreamsFeedTensors : Prop :=
  (∀ (s : State) (t i prod : Nat) (bs : List Byte), streamStops (tileOf s t) = true →
    Becomes (.streamDataArrival t i prod bs) s s ∧ Becomes (.endOfStreamToken t i prod) s s) ∧
  (∀ (s : State) (t : Nat) (c : Copy) (f : FCpy) (d : Desc), (tileOf s t).copies = [c] → c.cmd.body = .strm f → c.cmd.descs = [d] →
    c.landed = false → let s' := restartCopies s t
      (c.charge = none → (tileOf s' t).copies = [{ c with got := 0, ended := [], took := [] }] ∧ SameBytes s s') ∧
      (∀ b, c.charge = some b → c.left < chargeOf d →
        (tileOf s' t).copies = [{ c with got := 0, left := chargeOf d, ended := [], took := [] }] ∧
          barAt s' t b = barAt (addPend s t b (BitVec.ofNat 56 (chargeOf d - c.left))) t b) ∧
      ∀ k had it, c.took = [(k, had)] → s.streamQ[k]? = some it →
        s'.streamQ[k]? = some { it with given := smSet t had it.given }) ∧
  ∀ (s : State) (t i prod : Nat) (c : Copy) (f : FCpy) (d : Desc), (tileOf s t).copies[i]? = some c → c.cmd.body = .strm f →
    c.cmd.descs = [d] → c.landed = false → c.cmd.guard = .free → streamStops (tileOf s t) = false → copyMay (tileOf s t) t i c = true →
    streamGranted s (strmStream c) (tagOf s t) = true →
    let stream := strmStream c
    let with' (x : State) (l : List Copy) : List Copy := (tileOf x t).copies.take i ++ l ++ (tileOf x t).copies.drop (i + 1)
    let lands (given : List Byte) (s0 : State) (c0 : Copy) (bs : List Byte) : Prop :=
      let e := landStream (engStart s0 t c.cmd) d c.got bs
      let n := min bs.length c.left
      e.clean → ∃ t', SameBytes e.s t' ∧ t'.streamQ = s0.streamQ ∧
        (c.charge = none → exec (.streamDataArrival t i prod given) s = .next t' ∧
          (tileOf t' t).copies = with' e.s [{ c0 with got := c.got + bs.length }]) ∧
        ∀ b, c.charge = some b →
          exec (.streamDataArrival t i prod given) s = .next (addPend t' t b (-(BitVec.ofNat 56 n))) ∧
            (tileOf t' t).copies = with' e.s [{ c0 with got := c.got + bs.length, left := c.left - n }]
    (pushSeen s t c.cmd = true → (grantAt s stream).prods.contains prod = true → c.ended.contains prod = false →
      lostProducer s prod = false → c.got < strmCount c →
      (∀ bs : List Byte, prod / 2 ^ 30 ≠ 1 → c.got + bs.length ≤ strmCount c → lands bs s c bs) ∧
      ∀ (k had : Nat) (it : StreamItem) (any : List Byte), prod / 2 ^ 30 = 1 → nextItem s t stream prod = some (k, it, had) →
        had < it.bytes.length →
        let bs := (it.bytes.drop had).take (strmCount c - c.got)
        lands any (giveItem s k t (had + bs.length)) { c with took := nowTook c k had } bs) ∧
    (pushSeen s t c.cmd = false → ∀ bs : List Byte, Becomes (.streamDataArrival t i prod bs) s s) ∧
    (lostProducer s prod = true → Becomes (.endOfStreamToken t i prod) s s ∧
      ∀ bs : List Byte, Becomes (.streamDataArrival t i prod bs) s s) ∧
    (prod / 2 ^ 30 ≠ 1 → (grantAt s (strmStream c)).prods.contains prod = true → c.ended.contains prod = false →
      lostProducer s prod = false → ∃ t', exec (.endOfStreamToken t i prod) s = .next t' ∧
        (tileOf t' t).copies = with' s [{ c with ended := c.ended ++ [prod] }]) ∧
    (∀ (k had : Nat) (it : StreamItem), prod / 2 ^ 30 = 1 → (grantAt s stream).prods.contains prod = true →
      c.ended.contains prod = false → lostProducer s prod = false → nextItem s t stream prod = some (k, it, had) →
      (it.eos = true → had = it.bytes.length → ∃ t', exec (.endOfStreamToken t i prod) s = .next t' ∧
        (tileOf t' t).copies = with' s [{ c with ended := c.ended ++ [prod], took := nowTook c k had }] ∧
        t'.streamQ = (giveItem s k t (had + 1)).streamQ) ∧
      (it.eos = false ∨ had ≠ it.bytes.length → Becomes (.endOfStreamToken t i prod) s s)) ∧
    (noticed (tileOf s t) c.cmd.id = false → pushSeen s t c.cmd = true → c.got = strmCount c ∨ allEnded s c = true →
      c.follow = none →
      let s1 := match c.charge with
        | some b => if c.left = 0 then s else addPend s t b (-(BitVec.ofNat 56 c.left))
        | none => s
      ∃ t', exec (.copyComplete t i) s = .next t' ∧ (tileOf t' t).copies = with' s [] ∧ SameBytes s1 t')

/-- R17, R226, R304: what a task sends to an edge streamer of a stream granted to its tag, of which its tile is a registered
producer, joins what the streamer holds; to any other stream it is an ENGINE_FAIL of its launch; without the Kerb's grant it is
refused. -/
def Claims.StreamerTakesSends : Prop :=
  ∀ (s : State) (m : Msg) (bytes : List Byte) (w : Word) (reg : DWord), msgOf s m.id = some m →
    m.body = .streamer bytes w reg → m.guard ≠ .discarded → msgMay s m = true → earlierDone s m.src m.gtid m.id 5#3 = true →
    let stream := leNat (bytes.take 4)
    let refused := !streamerExists m.dst || !granted s m.tag (m.dst.extractLsb' 0 8).toNat
    (refused = false → streamGranted s stream m.tag = true →
      (grantAt s stream).prods.contains (tileProducer m.src) = true →
      Becomes (.streamerSendArrival m.id) s { dropMsg s m.id with
        streamQ := s.streamQ ++ [⟨stream, tileProducer m.src, bytes.drop 4, false, []⟩] }) ∧
    (refused = false → streamGranted s stream m.tag = false ∨ (grantAt s stream).prods.contains (tileProducer m.src) = false →
      gtidStopped s m.src m.gtid = false → framed s m.gtid = false → (tileOf s m.src).replay.length < 256 →
      Becomes (.streamerSendArrival m.id) s (engineFail (dropMsg s m.id) m.src m.launch m.gtid m.pc 0x05#8 w reg)) ∧
    (refused = true →
      Becomes (.streamerSendArrival m.id) s (refuseMsg s m .kerbRefused 0#3 0#3 (payloadData bytes)))

/-- R180, R203, R205, R226, R250, R314, R317, R17, R304: Stream data land in open subscriptions; what a streamer takes:
`Claims.StreamsFeedTensors`, `Claims.StreamerTakesSends`. -/
def Obligations.StreamsFeedTensors : Prop :=
  Claims.StreamsFeedTensors ∧ Claims.StreamerTakesSends

/-- R186, R206: `chain` captures its steps, k2, the generator and the mode, and queues for the quad unit; the generator
advances once where it stores by RS; a reserved step byte raises COMMAND_INVALID. -/
def Claims.ChainsIssue : Prop :=
  ∀ (s : State) (f : FChain) (d r : Desc) (us : List Desc), MayGo s f.g → entryAt s f.d = .valid d →
    entryAt s f.s = .valid r →
    (f.f = 0#1 ∧ us = [] ∨ f.f = 1#1 ∧ ∃ u, entryAt s f.t = .valid u ∧ us = [u]) →
    let k := curTask s
    let bytes := (leBytes k.k[0].toNat 4 ++ leBytes k.k[1].toNat 4).map fun b => b.toNat
    (chainSteps (decide (f.f = 1#1)) bytes = none → Becomes (.chain f) s (preciseTrap s .commandInvalid 0#64 0#64)) ∧
    ∀ steps ty rm, chainSteps (decide (f.f = 1#1)) bytes = some (steps, ty, rm) →
      (∀ x ∈ r :: us, x.rows = d.rows ∧ x.cols = d.cols) → inputOnly d.format = false → (curTile s).chainq.length < 16 →
      let mode := if rm = 6 then k.rm.toNat else rm
      let c := captured s f.g (.chain f) (d :: r :: us) [k.k[0].setWidth 64, k.k[1].setWidth 64, k.k[2].setWidth 64,
        k.lfsr.setWidth 64, BitVec.ofNat 64 mode]
      (c.guard ≠ .discarded → Completes (.chain f) s (setCurTile { s with nextId := s.nextId + 1 } { curTile s with
        chainq := (curTile s).chainq ++ [c]
        task := if rm = 5 then { k with lfsr := lfsrNext k.lfsr } else k })) ∧
      (c.guard = .discarded → Completes (.chain f) s s)

/-- R178, R206, R277: the quad unit, as it binds a unit of a tile's chain queue, carries out at most 128 elements of the chain
at its head, from where the chain stands; the chain leaves its queue with its last element, and its writes are those of its
elements. A discarded chain leaves, a held one stays. -/
def Claims.ChainsRun : Prop :=
  ∀ (s : State) (t : Nat) (c : Cmd) (r : List Cmd) (d : Desc) (ds : List Desc), (tileOf s t).chainq = c :: r →
    c.descs = d :: ds →
    (∀ s1, UnitGoes s t true s1 →
      let s2 := setTile s1 t { tileOf s1 t with lastChain := true }
      let n := (tileOf s t).chainRun.done
      let x := runChain (chainStart s2 t c) c n
      x.1 ≤ n + 128 ∧
      (x.1 < d.rows * d.cols → ∃ t', exec (.quadUnitCommand t true) s = .next t' ∧ SameBytes x.2.s t' ∧
        (tileOf t' t).chainq = (tileOf x.2.s t).chainq ∧ (tileOf t' t).chainRun = ⟨x.1, x.2.fault, x.2.bad⟩) ∧
      (d.rows * d.cols ≤ x.1 → x.2.clean → ∃ t', exec (.quadUnitCommand t true) s = .next t' ∧ SameBytes x.2.s t' ∧
        (tileOf t' t).chainq = (tileOf x.2.s t).chainq.drop 1)) ∧
    (c.guard = .discarded → ∃ t', exec (.quadUnitCommand t true) s = .next t' ∧ (tileOf t' t).chainq = r ∧ SameBytes s t') ∧
    (c.guard.isBound = true → Becomes (.quadUnitCommand t true) s s)

/-- R135, R204: `drain` waits while an earlier operation of the tile on its path is still to be done; then it is a report
point, and where nothing is logged it changes nothing. -/
def Claims.DrainsWait : Prop :=
  ∀ (s : State) (f : FDrain), holding s (curTask s) = false →
    (drainWaits s s.cur.tile (spaceOf f.p.toNat) = true → Becomes (.drain f) s (waitBundle s)) ∧
    (drainWaits s s.cur.tile (spaceOf f.p.toNat) = false → reportable s s.cur.tile = [] → Completes (.drain f) s s) ∧
    ∀ e r, drainWaits s s.cur.tile (spaceOf f.p.toNat) = false → reportable s s.cur.tile = e :: r →
      ∃ t i, exec (.drain f) s = .next t ∧ Stops s.cur.tile s t i ∧ i.code = e.code ∧ i.arg0 = e.ea ∧ i.precise = false

/-- R186, R206, R178, R277, R135, R204: Chains are checked, queued and run; drain waits and reports: `Claims.ChainsIssue`,
`Claims.ChainsRun`, `Claims.DrainsWait`. -/
def Obligations.ChainsRun : Prop :=
  Claims.ChainsIssue ∧ Claims.ChainsRun ∧ Claims.DrainsWait

/-- R207, R208, R210, R211, R212: binding a bin table, setting the k registers, and the messages that `ksend`, `coll`,
`coll.red` and `eng.go` send to the units and engines that take them. The unit keeps the `kbin` as it was captured. -/
def Claims.EngineMessagesIssue : Prop :=
  ∀ s : State,
    let k := curTask s
    let after := afterIssue k s.cur.pc
    (∀ (f : FKbinAdd) (d : Desc), MayGo s 0#3 → entryAt s f.b = .valid d → d.space = .sp → d.format = 0 →
      Completes (.kbinAdd f) s (setCurTile s { curTile s with
        bins := some (d, none), binder := some (captured s 0#3 (.kbinAdd f) [d] []) })) ∧
    (∀ (f : FKbinApp) (d : Desc), MayGo s 0#3 → entryAt s f.b = .valid d → d.space = .sp →
      Completes (.kbinApp f) s (setCurTile s { curTile s with
        bins := some (d, some f.n.toNat), binder := some (captured s 0#3 (.kbinApp f) [d] []) })) ∧
    (holding s k = false → Completes .kbinOff s (setCurTile s { curTile s with bins := none, binder := none })) ∧
    (∀ (f : FEngK) (h : f.n.toNat < 4), holding s k = false → ReadyA s [f.s.setWidth 4] →
      let v := rdA s (f.s.setWidth 4)
      Completes (.engK f) s (setCurTask s { k with
        k := k.k.set f.n.toNat (if f.h = 1#1 then (v >>> 32).setWidth 32 else v.setWidth 32) })) ∧
    (∀ f : FEngGo, MayGo s f.g → ReadyA s [f.d.setWidth 4] →
      let dst : BitVec 20 := (rdA s (f.d.setWidth 4)).setWidth 20
      (engGoTarget dst = false → Becomes (.engGo f) s (preciseTrap s .commandInvalid 0#64 0#64)) ∧
      (engGoTarget dst = true → bindGuard s f.g ≠ .discarded → SendsMessage (.engGo f) s
        (newMessage s 2 dst (bindGuard s f.g) (.engGo k.k[0] k.k[1] k.k[2] k.k[3] (decide (f.r = 1#1)))) after) ∧
      (engGoTarget dst = true → bindGuard s f.g = .discarded → Completes (.engGo f) s s)) ∧
    (∀ (f : FKsend) (d : Desc) (key : Nat) (co : Cohort) (j : Nat), MayGo s f.g →
      ReadyA s [f.k.setWidth 4, f.r.setWidth 4] → entryAt s f.s = .valid d → d.space = .sp → rowBytes d.format d.cols ≤ 2048 →
      cohortOf s s.cur.tile = some (key, co, j) →
      let kv : Word := (rdA s (f.k.setWidth 4)).setWidth 32
      let rv : Word := (rdA s (f.r.setWidth 4)).setWidth 32
      let c := captured s f.g (.ksend f) [d] [kv.setWidth 64, rv.setWidth 64]
      (f.h = 0#1 → kv.toNat / 2 ^ 16 < cohortTasks co) →
      let serial := if f.h = 1#1 then kv.toNat * 0x9e3779b1 % 2 ^ 32 / 2 ^ 16 % cohortTasks co else kv.toNat / 2 ^ 16
      (bindGuard s f.g ≠ .discarded → SendsMessage (.ksend f) s
        (newMessage s 5 (BitVec.ofNat 20 (3 * 2 ^ 16 + tileOfSerial co serial)) (bindGuard s f.g) (.ksend c)) after) ∧
      (bindGuard s f.g = .discarded → Completes (.ksend f) s s)) ∧
    ∀ (f : FColl) (d r : Desc), MayGo s f.g → ReadyA s [f.r.setWidth 4] → entryAt s f.d = .valid d →
      entryAt s f.s = .valid r → (rdA s (f.r.setWidth 4)).toNat / 2 ^ 24 % 256 < 2 → d.format = 0 → r.format = 0 →
      d.rows * d.cols = r.rows * r.cols →
      ∀ i ∈ [Instr.coll f, .collRed f],
        (bindGuard s f.g ≠ .discarded → ∃ t, exec i s = .next t ∧
          SentMessage (openRound s ((rdA s (f.r.setWidth 4)).toNat % 2 ^ 16)) t
            (newMessage s 2 (BitVec.ofNat 20 (10 * 2 ^ 16 + s.cur.tile % 2 ^ 16)) (bindGuard s f.g)
              (.coll (captured s f.g i [d, r] [rdA s (f.r.setWidth 4)]))) after) ∧
        (bindGuard s f.g = .discarded → Completes i s s)

/-- R207-R209, R250: a key-routed payload of FP32 words is added word by word to the bin it names at its target in the add mode,
and a payload is appended to its bin in the append mode, once what the target's tile did before its `kbin` is done; a bin beyond
the table, or a target with none bound, counts one drop and changes no byte. The row is read as the payload arrives (the model's
choice, log 54). -/
def Claims.KeysAccumulate : Prop :=
  ∀ (s : State) (m : Msg) (c : Cmd) (d : Desc), msgOf s m.id = some m → m.body = .ksend c → m.guard ≠ .discarded →
    msgMay s m = true → pushSeen s m.src c = true → c.descs = [d] →
    let u := (m.dst.extractLsb' 0 16).toNat
    (binsSeen s u = false → Becomes (.ksendArrival m.id) s s) ∧
    (binsSeen s u = true →
    let p := ksendPayload (engStart (dropMsg s m.id) m.src c) d (ksendRow c)
    p.2.clean →
    (∀ b, (tileOf s u).bins = some (b, none) → ksendBin c < b.rows → d.format = 0 → d.cols ≤ b.cols →
      let e := binAdd p.2 u (rowAddr b (ksendBin c)) ((upFrom 0 d.cols).map fun j => BitVec.ofNat 32 (codeAt 32 p.1 j))
      e.clean → ∃ t', exec (.ksendArrival m.id) s = .next t' ∧ msgOf t' m.id = none ∧ SameBytes e.s t') ∧
    (∀ b n, (tileOf s u).bins = some (b, some n) → ksendBin c < b.rows →
      let e := binAppend p.2 u (rowAddr b (ksendBin c)) n b.stride p.1
      e.clean → ∃ t', exec (.ksendArrival m.id) s = .next t' ∧ msgOf t' m.id = none ∧ SameBytes e.s t') ∧
    (∀ b mode, (tileOf s u).bins = none ∨ ((tileOf s u).bins = some (b, mode) ∧ b.rows ≤ ksendBin c) →
      ∃ t', exec (.ksendArrival m.id) s = .next t' ∧ (tileOf t' u).drop = satAdd (tileOf s u).drop 1 ∧ SameBytes s t'))

/-- R207, R208, R210, R211, R212, R209, R250: Messages to engines and key-routed messages, and what they add to their bins:
`Claims.EngineMessagesIssue`, `Claims.KeysAccumulate`. -/
def Obligations.EngineMessages : Prop :=
  Claims.EngineMessagesIssue ∧ Claims.KeysAccumulate

/-- R62, R195, R212, R213: an `eng.go` message with an opcode that its engine accepts is answered with the words of its row of
Table 13-9, which travel to the sender's ef where a reply is asked for; a clear zeroes its counters. What another cluster's Crossing
answers to MERGE_READ, and that an edge collective engine answers GROUP_INFO, are the model's choices (logs 100 and 119). -/
def Claims.EnginesReply : Prop :=
  ∀ (s : State) (m : Msg) (k0 k1 k2 k3 : Word) (reply : Bool), msgOf s m.id = some m →
    m.body = .engGo k0 k1 k2 k3 reply → m.guard ≠ .discarded → msgMay s m = true → engGoRefused s m = none →
    let op := k0.toNat % 256
    let u := (m.dst.extractLsb' 0 16).toNat
    let s0 := dropMsg s m.id
    let sel := (m.dst.extractLsb' 16 4).toNat
    let back (x : State) (ws : List Word) : State :=
      if reply = true then setTile x m.src { tileOf x m.src with efWait := (tileOf x m.src).efWait ++ ws.map .word } else x
    let count (p : Space) : Word := BitVec.ofNat 32 (pathCount (tileOf s u) u p)
    let g := k1.toNat % 65536
    (sel = 1 → op = 0xc0 → Becomes (.streamEngineQuery m.id) s (back s0 [count .sp, count .pr, count .ql, count .gl])) ∧
    (sel = 2 → op = 0xc8 → Becomes (.ctrRead m.id) s (back s0 [(tileOf s u).det, (tileOf s u).rep])) ∧
    (sel = 2 → op = 0xc9 →
      Becomes (.ctrClear m.id) s (back (setTile s0 u { tileOf s u with det := 0#32, rep := 0#32 }) [0#32])) ∧
    (sel = 3 → op = 0xd0 → Becomes (.dropRead m.id) s (back s0 [(tileOf s u).drop])) ∧
    (sel = 3 → op = 0xd1 → Becomes (.dropClear m.id) s (back (setTile s0 u { tileOf s u with drop := 0#32 }) [0#32])) ∧
    (sel = 4 → op = 0xd8 → Becomes (.quadUnitQuery m.id) s (back s0 [BitVec.ofNat 32 ((tileOf s m.src).longq.length +
      ((tileOf s m.src).chainq.filter fun c => c.guard != .discarded).length)])) ∧
    (∀ key c j, sel = 5 → op = 0xe0 → cohortOf s m.src = some (key, c, j) →
      clusterOf u = clusterOf m.src → Becomes (.mergeRead m.id) s (back s0 [BitVec.ofNat 32 c.merged])) ∧
    (sel = 5 → op = 0xe0 → clusterOf u ≠ clusterOf m.src → Becomes (.mergeRead m.id) s
      (back s0 [BitVec.ofNat 32 ((s.cohorts.filter fun e => e.2.cluster == clusterOf u).map fun e => e.2.merged).sum])) ∧
    (let said : DWord := ((k2.setWidth 25 : BitVec 25) ++ k1).setWidth 64
      let va := replicaVa (replicaOf s m.src said) said
      sel = 9 → op = 0xe8 →
        (∀ e, tlbFind s (dieOf u) m.tag va = some e → Becomes (.probe m.id) s (back s0 [probeWord e])) ∧
        (∀ e, tlbFind s (dieOf u) m.tag va = none → walk s m.tag va = some e →
          Becomes (.probe m.id) s (back (tlbPut s0 (dieOf u) e) [probeWord e])) ∧
        (tlbFind s (dieOf u) m.tag va = none → walk s m.tag va = none → Becomes (.probe m.id) s (back s0 [0#32]))) ∧
    (sel = 10 ∨ (sel = 15 ∧ m.dst.extractLsb' 0 3 = 3#3) → op = 0xf0 → Becomes (.groupInfo m.id) s (back s0
      [if k1.toNat < 65536 ∧ wordGrants (groupEntry s g).1 m.tag = true then BitVec.ofNat 32 (wordParts (groupEntry s g).1)
        else 0#32])) ∧
    (sel = 15 → m.dst.extractLsb' 0 3 = 2#3 → op = 0xf8 → streamGranted s k1.toNat m.tag = false →
      Becomes (.streamInfo m.id) s (back s0 [0xffffffff#32])) ∧
    (sel = 15 → m.dst.extractLsb' 0 3 = 2#3 → op = 0xf8 → streamGranted s k1.toNat m.tag = true →
      (∀ p ∈ (grantAt s k1.toNat).prods, p / 2 ^ 30 = 1) →
      Becomes (.streamInfo m.id) s (back s0 [BitVec.ofNat 32 ((s.streamQ.map fun it =>
        if it.stream = k1.toNat then it.bytes.length - smGet 0 m.src it.given else 0).foldl (fun a b => a + b) 0)])) ∧
    (acceptsOp m.dst op = false → Becomes (.engGoUnaccepted m.id) s (back s0 [0xffffffff#32]))

/-- R51, R62: the oldest result at a tile's input enters ef while ef holds fewer than 16, and waits while it holds 16; a notice
there is taken in its turn, whatever ef holds. -/
def Claims.RepliesEnterEf : Prop :=
  ∀ (s : State) (t : Nat) (r : List Back),
    (∀ w : Word, (tileOf s t).efWait = .word w :: r →
      ((tileOf s t).ef.length < 16 →
        Becomes (.engineReply t) s (setTile s t { tileOf s t with efWait := r, ef := (tileOf s t).ef ++ [w] })) ∧
      (16 ≤ (tileOf s t).ef.length → Becomes (.engineReply t) s s)) ∧
    ∀ id p, (tileOf s t).efWait = .notice id p :: r →
      ∃ t', exec (.engineReply t) s = .next t' ∧ (tileOf t' t).efWait = r ∧ (tileOf t' t).ef = (tileOf s t).ef

/-- R117, R210, R314-R316: a round of a group is run once the participants of every module are there: this module's contributions
are combined first, then its partial with those of the peers, in the order of the group's ALG, and the result is written where it
goes; until then it waits. Which partials are next in that order, and how the round counts the peers' parts, are the model's
choices (logs 7 and 99). A `coll` of a group that is not granted, or beyond its participants, fails with reason 3, and a round
whose peer or port is lost with reason 4; neither writes anything. -/
def Claims.CollectiveRounds : Prop :=
  ∀ (s : State) (g : Nat) (peers : List Partial),
    let s0 := dropColls s g
    let stray (p : Msg × Cmd) : Bool := !groupGranted s0 g p.1.tag || groupParts s0 g ≤ collField p.2 16 8
    (∀ m c, (collsOf s0 g).find? stray = some (m, c) →
      taskStopped s0 m.src c = false → (tileOf s0 m.src).replay.length < 256 →
      Becomes (.collectiveRoundComplete g peers) s (closeRound (failCommand (dropMsg s0 m.id) m.src c 0x03#8) g)) ∧
    ∀ p0 r0, (∀ p ∈ collsOf s0 g, stray p = false) →
      let ps := firstOf (collsOf s0 g)
      ps = p0 :: r0 →
      (∀ s1, groupLost s0 g = true → failColls 0x04#8 ps s0 = some s1 →
        Becomes (.collectiveRoundComplete g peers) s (nextRound s1 g)) ∧
      (groupLost s0 g = false →
        let count := ps.length + (peers.map (·.parts)).sum
        (peers.length ≠ groupPeers s0 g ∨ count ≠ groupParts s0 g → Becomes (.collectiveRoundComplete g peers) s s0) ∧
        ∀ xs s1 s2, peers.length = groupPeers s0 g → count = groupParts s0 g → roundAwaits s0 ps = none →
          readColls ps s0 = some (xs, false, s1) →
          let op := collField p0.2 24 8
          let draw := s1.freeIdx
          let all := combine op true draw xs.length xs :: peers.map (·.words)
          let k := Config.combineOrder (draw + 2 * xs.length) % all.length
          let ws := combine op (groupTree s0 g) (draw + 2 * xs.length + 1) all.length (all.drop k ++ all.take k)
          writeColls ws ps { s1 with freeIdx := draw + (2 * xs.length + 2 * peers.length + 3) } = some s2 →
          Becomes (.collectiveRoundComplete g peers) s (nextRound (ps.foldl noticeColl s2) g))

/-- R62, R195, R212, R213, R51, R117, R210, R314, R315, R316: What engines answer, and what a collective round writes:
`Claims.EnginesReply`, `Claims.RepliesEnterEf`, `Claims.CollectiveRounds`. -/
def Obligations.EnginesReply : Prop :=
  Claims.EnginesReply ∧ Claims.RepliesEnterEf ∧ Claims.CollectiveRounds

/-- R141, R240: the home of a load answers the bytes that stand at the place it reaches, lowest address first, and changes no
byte of any memory. -/
def Claims.LoadsReadTheirBytes : Prop :=
  ∀ (s : State) (a : Access) (p : Place), Performs s a p → a.op = .load ∨ a.op = .touch ∨ a.op = .tdef →
    ∃ t, exec (.homeAccess (.tile a.id)) s = .next t ∧ SameBytes s t ∧
      ∃ v : Vec, HasResult t a.id (.value v) ∧
        ∀ j, j < a.n → j < 32 → v.extractLsb' (8 * j) 8 = byteAt s (placeByte p j)

/-- R134, R144, R240: the home of a store writes the low bytes of its data at the place it reaches, lowest address first, and
every other byte of every memory reads as before. -/
def Claims.StoresWriteTheirBytes : Prop :=
  ∀ (s : State) (a : Access) (p : Place), s.memsOk = true → Performs s a p → a.op = .store ∨ a.op = .spill → a.n ≤ 32 →
    ∃ t, exec (.homeAccess (.tile a.id)) s = .next t ∧
      (∀ j, j < a.n → byteAt t (placeByte p j) = a.data.extractLsb' (8 * j) 8) ∧
      ∀ b, (∀ j, j < a.n → b ≠ placeByte p j) → byteAt t b = byteAt s b

/-- R148, R240, R256, R257: a Plaza core's access to edge memory or host memory reads or writes the bytes at its physical address,
and only those; an AMO answers the old value and writes the new one; a store-conditional after a load-reserved of the same bytes
stores and answers 0, and one without a reservation answers 1 and stores nothing; a fence waits until no earlier store is left at
a home, with its I/O bits until those to host memory are flushed as well. A store of part of a granule whose check fails is not
performed (R343). What the AMOs compute and what a store-conditional answers are the model's choices (log 93). -/
def Claims.PlazaCoresReachMemory : Prop :=
  ∀ (s : State) (core pa : Nat), s.memsOk = true →
    let edge (n : Nat) : Prop := pa < 3 * 2 ^ 40 ∧ pa + n ≤ 3 * 2 ^ 40
    let free (n : Nat) : Prop := queuedAt s pa n = false ∧ heldLine s pa n = none ∧ ∀ g c, Damage.edge g c ∉ s.damage
    let writes (t : State) (b0 : Nat → ByteAt) (bs : List Byte) : Prop :=
      (∀ j, (h : j < bs.length) → byteAt t (b0 j) = bs[j]) ∧ ∀ b, (∀ j, j < bs.length → b ≠ b0 j) → byteAt t b = byteAt s b
    let size (wide : Bool) : Nat := if wide then 8 else 4
    (∀ n, edge n → free n →
      Becomes (.homeAccess (.plazaLoad core pa n)) s { s with reply := ⟨.done, memRead s.edge pa n⟩ }) ∧
    (∀ bs : List Byte, edge bs.length → free bs.length →
      ∃ t, exec (.homeAccess (.plazaStore core pa bs)) s = .next t ∧ t.reply = ⟨.done, []⟩ ∧
        writes t (fun j => .edge (pa + j)) bs) ∧
    (∀ bs : List Byte, edge bs.length → queuedAt s pa bs.length = false → heldLine s pa bs.length = none →
      badMerge s pa bs.length = true →
      ∃ t, exec (.homeAccess (.plazaStore core pa bs)) s = .next t ∧ t.reply = ⟨.discarded, []⟩ ∧ SameBytes s t) ∧
    (∀ q n, q < 4 → pa < 2 ^ 48 → pa + n ≤ 2 ^ 48 → Becomes (.homeAccess (.plazaLoad core (3 * 2 ^ 50 + q * 2 ^ 48 + pa) n)) s
      { s with reply := ⟨.done, memRead (portAt s q).mem pa n⟩ }) ∧
    (∀ (q : Nat) (bs : List Byte), q < 4 → pa < 2 ^ 48 → pa + bs.length ≤ 2 ^ 48 →
      ∃ t, exec (.homeAccess (.plazaStore core (3 * 2 ^ 50 + q * 2 ^ 48 + pa) bs)) s = .next t ∧ t.reply = ⟨.done, []⟩ ∧
        writes t (fun j => .host q (pa + j)) bs) ∧
    (∀ (wide rl : Bool) (v : DWord), edge (size wide) → free (size wide) → pa % size wide = 0 →
      (rl = true → s.homeQ = []) →
      let n := size wide
      let old := leNat (memRead s.edge pa n)
      let new (op : BitVec 4) : Nat :=
        if op = 0#4 then (old + v.toNat % 2 ^ (8 * n)) % 2 ^ (8 * n) else v.toNat % 2 ^ (8 * n)
      ∀ op ∈ [0#4, 7#4], ∃ t, exec (.homeAccess (.plazaAmo core pa op wide rl v)) s = .next t ∧
        t.reply = ⟨.done, memRead s.edge pa n⟩ ∧ writes t (fun j => .edge (pa + j)) (leBytes (new op) n)) ∧
    (∀ (wide rl : Bool) (v : DWord), edge (size wide) → free (size wide) → pa % size wide = 0 → (rl = true → s.homeQ = []) →
      let n := size wide
      (∃ t t', exec (.homeAccess (.plazaLr core pa wide)) s = .next t ∧ t.reply = ⟨.done, memRead s.edge pa n⟩ ∧
        exec (.homeAccess (.plazaSc core pa wide rl v)) t = .next t' ∧ t'.reply = ⟨.done, leBytes 0 n⟩ ∧
        writes t' (fun j => .edge (pa + j)) (leBytes v.toNat n)) ∧
      ((coreAt s core).resv = none → ∃ t, exec (.homeAccess (.plazaSc core pa wide rl v)) s = .next t ∧
        t.reply = ⟨.done, leBytes 1 n⟩ ∧ SameBytes s t)) ∧
    ∀ io : Bool, Becomes (.homeAccess (.plazaFence core io)) s { s with
      reply := ⟨if s.homeQ = [] ∧ (io = true → ∀ p ∈ s.ports, p.2.unflushed = []) then .done else .held, []⟩ }

/-- R141, R240, R134, R144, R148, R256, R257: A load returns the bytes it reaches; a store writes them and no others:
`Claims.LoadsReadTheirBytes`, `Claims.StoresWriteTheirBytes`, `Claims.PlazaCoresReachMemory`. -/
def Obligations.HomesReadAndWrite : Prop :=
  Claims.LoadsReadTheirBytes ∧ Claims.StoresWriteTheirBytes ∧ Claims.PlazaCoresReachMemory

/-- R148: an atomic answers the old value and writes the new one that its OP gives, in the width of the access; every other byte
reads as before. -/
def Claims.AtomicsUpdate : Prop :=
  ∀ (s : State) (a : Access) (p : Place) (op : BitVec 4), s.memsOk = true → Performs s a p → a.op = .atom op →
    a.n = 4 ∨ a.n = 8 →
    let top := 2 ^ (8 * a.n)
    let old := leNat ((List.range a.n).map fun j => byteAt s (placeByte p j))
    let v := a.data.toNat % top
    let signed (x : Nat) : Int := if 2 * x < top then x else (x : Int) - top
    ∃ t new, exec (.homeAccess (.tile a.id)) s = .next t ∧ HasResult t a.id (.value (BitVec.ofNat 256 old)) ∧
      (∀ j, j < a.n → byteAt t (placeByte p j) = BitVec.ofNat 8 (new / 256 ^ j)) ∧
      (∀ b, (∀ j, j < a.n → b ≠ placeByte p j) → byteAt t b = byteAt s b) ∧
      (op = 0#4 → new = (old + v) % top) ∧ (op = 1#4 → new = (old + top - v) % top) ∧
      (op = 2#4 → new = if signed old ≤ signed v then old else v) ∧
      (op = 3#4 → new = if signed old ≤ signed v then v else old) ∧
      (op = 4#4 → new = old &&& v) ∧ (op = 5#4 → new = old ||| v) ∧ (op = 6#4 → new = old ^^^ v) ∧ (op = 7#4 → new = v) ∧
      (op = 10#4 → new = min old v) ∧ (op = 11#4 → new = max old v)

/-- R149: a compare-and-swap answers the old value, and writes its new value exactly where the old one equals the compare
value. -/
def Claims.CompareAndSwap : Prop :=
  ∀ (s : State) (a : Access) (p : Place) (c : BitVec 4), s.memsOk = true → Performs s a p → a.op = .cas c →
    a.n = 4 ∨ a.n = 8 →
    let old := leNat ((List.range a.n).map fun j => byteAt s (placeByte p j))
    ∃ t, exec (.homeAccess (.tile a.id)) s = .next t ∧ HasResult t a.id (.value (BitVec.ofNat 256 old)) ∧
      (old = a.data.toNat % 2 ^ (8 * a.n) → (∀ j, j < a.n → byteAt t (placeByte p j) = a.data2.extractLsb' (8 * j) 8) ∧
        ∀ b, (∀ j, j < a.n → b ≠ placeByte p j) → byteAt t b = byteAt s b) ∧
      (old ≠ a.data.toNat % 2 ^ (8 * a.n) → SameBytes s t)

/-- R148, R149: Atomics answer the old value and write the new one, and no other byte: `Claims.AtomicsUpdate`,
`Claims.CompareAndSwap`. -/
def Obligations.AtomicsUpdate : Prop :=
  Claims.AtomicsUpdate ∧ Claims.CompareAndSwap

/-- R231-R233: `stv` writes its word and sets its version, `vrcl` sets the version to 0, and a versioned load answers the word
with its version above it, once the version has been reached; until then nothing happens. A version that would go back
faults. -/
def Obligations.VersionedWords : Prop :=
  ∀ (s : State) (a : Access) (t o : Nat), s.memsOk = true → Performs s a (.sp t o) → a.n = 4 →
    let cur := byteAt s (.version t (o / 4))
    let new : Byte := a.data.extractLsb' 32 8
    let word := leNat ((List.range 4).map fun j => byteAt s (.sp t (o + j)))
    (a.op = .stv → (cur = 0#8 ∨ new = 0#8 ∨ (new - cur).toNat < 128) →
      ∃ t', exec (.homeAccess (.tile a.id)) s = .next t' ∧ byteAt t' (.version t (o / 4)) = new ∧
        (∀ j, j < 4 → byteAt t' (.sp t (o + j)) = a.data.extractLsb' (8 * j) 8) ∧
        ∀ b, b ≠ .version t (o / 4) → (∀ j, j < 4 → b ≠ .sp t (o + j)) → byteAt t' b = byteAt s b) ∧
    (a.op = .stv → cur ≠ 0#8 → new ≠ 0#8 → 128 ≤ (new - cur).toNat →
      ∃ t', exec (.homeAccess (.tile a.id)) s = .next t' ∧ HasResult t' a.id (.fault .versionRange) ∧ SameBytes s t') ∧
    (a.op = .vrcl → ∃ t', exec (.homeAccess (.tile a.id)) s = .next t' ∧ byteAt t' (.version t (o / 4)) = 0#8 ∧
      ∀ b, b ≠ .version t (o / 4) → byteAt t' b = byteAt s b) ∧
    ∀ v, a.op = .ldv v →
      ((cur - v).toNat < 128 → ∃ t', exec (.homeAccess (.tile a.id)) s = .next t' ∧
        HasResult t' a.id (.value (BitVec.ofNat 256 (word + cur.toNat * 2 ^ 32))) ∧ SameBytes s t') ∧
      (128 ≤ (cur - v).toNat → Becomes (.homeAccess (.tile a.id)) s s)

/-- R221: `jdec` takes 1 from its counter, modulo 2^32; at zero it sends one wake to every tile that holds a record waiting
on it; a wake that arrives, or a read again that finds zero, makes the record ready; a read that finds another value leaves what
the read itself counts (R344). -/
def Claims.JoinCounters : Prop :=
  (∀ (s : State) (a : Access) (p : Place), s.memsOk = true → Performs s a p → a.op = .jdec → a.n = 4 →
    let old := leNat ((List.range 4).map fun j => byteAt s (placeByte p j))
    ∃ t, exec (.homeAccess (.tile a.id)) s = .next t ∧
      (∀ j, j < 4 → byteAt t (placeByte p j) = BitVec.ofNat 8 ((old + (2 ^ 32 - 1)) % 2 ^ 32 / 256 ^ j)) ∧
      (∀ b, (∀ j, j < 4 → b ≠ placeByte p j) → byteAt t b = byteAt s b) ∧
      (old ≠ 1 → t.net = s.net) ∧
      (∀ key c j, old = 1 → cohortOf s a.tile = some (key, c, j) →
        (t.net.drop s.net.length).map (·.dst.toNat) =
          ((cohortTiles c).filter fun u => waitsJoin s u (canonAddr a.tile a.space a.ea)).map (· % 2 ^ 20))) ∧
  (∀ (s : State) (m : Msg) (space : Space) (ea : DWord), msgOf s m.id = some m → m.body = .wake space ea →
    msgMay s m = true →
    let t := (m.dst.extractLsb' 0 16).toNat
    ∃ t', exec (.joinWake m.id) s = .next t' ∧ msgOf t' m.id = none ∧
      (∀ r ∈ (tileOf s t).resident, ∀ sp' ea', r.cause = .join sp' ea' → r.ready = false →
        canonAddr t sp' ea' = (space, ea) → ∃ r' ∈ (tileOf t' t).resident, r'.ready = true ∧ r'.r = r.r) ∧
      SameBytes s t') ∧
  ∀ (s : State) (t i : Nat) (r : Resident) (space : Space) (ea : DWord) (p : Place), (tileOf s t).resident[i]? = some r →
    r.cause = .join space ea → r.ready = false →
    let a := { rereadAccess t r space ea with id := s.nextId }
    reach s a = .at p →
    (rereadMay s a = true → (performAt s a p).1 = .value 0#256 →
      ∃ t' o, exec (.joinReread t i) s = .next t' ∧ (tileOf t' t).resident[i]? = some { r with ready := true, order := o }) ∧
    (rereadMay s a = true → (performAt s a p).1 ≠ .value 0#256 → Becomes (.joinReread t i) s (performAt s a p).2) ∧
    (rereadMay s a = false → Becomes (.joinReread t i) s s)

/-- R227-R229: an arrival at a barrier adds to ARR and is answered the phase; one that is not the last leaves the phase; the
last, with no bytes pending, completes it: PHASE goes up, ARR goes down by EXP, the sums become those of the phase, and every
record of the cohort that waits for the phase becomes ready with them. A change of PEND that leaves bytes pending completes
nothing; one that leaves none completes a phase whose arrivals are in. The sums are those that the arrival took with it (the
model's choice, log 95). -/
def Claims.BarriersCount : Prop :=
  ∀ (s : State) (a : Access) (t o : Nat), Performs s a (.sp t o) →
    let b (bar : Nat) : NBar := barAt s t bar
    let sdet (bar : Nat) : Word := satAdd (b bar).sdet ((a.sums[0]?).getD 0#32).toNat
    let srep (bar : Nat) : Word := satAdd (b bar).srep ((a.sums[1]?).getD 0#32).toNat
    let wakes (t' : State) (bar : Nat) (det rep : Word) : Prop :=
      ∀ key c j, cohortOf s t = some (key, c, j) → ∀ u ∈ cohortTiles c, ∀ r ∈ (tileOf s u).resident, ∀ p,
        r.cause = .nbar t bar p → r.ready = false →
        1 ≤ ((b bar).phase + 1#32 - p).toNat → ((b bar).phase + 1#32 - p).toNat ≤ 2 ^ 31 →
        ∃ r' ∈ (tileOf t' u).resident, r'.ready = true ∧ r'.cause = r.cause ∧ r'.r = { r.r with w2 := det, w3 := rep }
    (∀ bar, a.op = .arrive bar → (b bar).arr.toNat + 1 < (b bar).exp.toNat →
      ∃ t', exec (.nbarRemoteAccess a.id) s = .next t' ∧ HasResult t' a.id (.value ((b bar).phase.setWidth 256)) ∧
        barAt t' t bar = { b bar with arr := (b bar).arr + 1#16, sdet := sdet bar, srep := srep bar }) ∧
    (∀ bar, a.op = .arrive bar → (b bar).arr.toNat + 1 = (b bar).exp.toNat → (b bar).pend = 0#56 →
      ∃ t', exec (.nbarRemoteAccess a.id) s = .next t' ∧ HasResult t' a.id (.value ((b bar).phase.setWidth 256)) ∧
        barAt t' t bar = { b bar with
          arr := 0#16, phase := (b bar).phase + 1#32, sdet := 0#32, srep := 0#32, lsdet := sdet bar, lsrep := srep bar } ∧
        wakes t' bar (sdet bar) (srep bar)) ∧
    (∀ bar n, a.op = .barTx bar n → (b bar).pend + n ≠ 0#56 ∨ (b bar).arr.toNat < (b bar).exp.toNat →
      ∃ t', exec (.nbarRemoteAccess a.id) s = .next t' ∧ barAt t' t bar = { b bar with pend := (b bar).pend + n }) ∧
    ∀ bar n, a.op = .barTx bar n → (b bar).pend + n = 0#56 → (b bar).exp.toNat ≤ (b bar).arr.toNat →
      (b bar).arr.toNat < 2 * (b bar).exp.toNat →
      ∃ t', exec (.nbarRemoteAccess a.id) s = .next t' ∧ barAt t' t bar = { b bar with
          arr := (b bar).arr - (b bar).exp, pend := 0#56, phase := (b bar).phase + 1#32, sdet := 0#32, srep := 0#32,
          lsdet := (b bar).sdet, lsrep := (b bar).srep } ∧
        wakes t' bar (b bar).sdet (b bar).srep

/-- R221, R227, R228, R229: Join counters wake their waiters; barriers count arrivals and bytes: `Claims.JoinCounters`,
`Claims.BarriersCount`. -/
def Obligations.CountersAndBarriers : Prop :=
  Claims.JoinCounters ∧ Claims.BarriersCount

/-- R22-R24, R134: an access to a place that does not exist, or to a scratchpad of another cohort, is answered by a fault at its
home: XLATE or PEER_GONE; no byte changes. -/
def Claims.AccessesFault : Prop :=
  ∀ (s : State) (a : Access), s.accs.find? (fun b => b.id == a.id) = some a → mayPerform s a = true → a.guard = .free →
    let fails (c : Code) : Prop :=
      ∃ t, exec (.homeAccess (.tile a.id)) s = .next t ∧ HasResult t a.id (.fault c) ∧ SameBytes s t
    (a.space = .sp → 0x30000 ≤ a.ea.toNat → fails .xlate) ∧
    (a.space = .ql → 2 ^ 20 ≤ a.ea.toNat → fails .xlate) ∧
    (a.space = .gl → 2 ^ 57 ≤ a.ea.toNat → replicaOf s a.tile a.ea = none → fails .xlate) ∧
    (a.space = .pr → a.ea.toNat / 2 ^ 32 ≠ a.tile → a.ea.toNat < 2 ^ 48 → a.ea.toNat % 2 ^ 32 < 0x30000 →
      sameCohort s a.tile (a.ea.toNat / 2 ^ 32) = false → fails .peerGone)

/-- R53, R135, R141-R143, R279: what an access's result fills when it returns: the pending a-register, which becomes ready, or the
reserved entry of lq0 or lq1; a fault leaves zero there, poisoned with the code and address, and logs an entry, also where the
task has suspended meanwhile; it is logged on the tile where the task now stands (the model's choice, log 13). What returns for a
saved task lands in its save area, once no host agent may hold a line of it (R256). -/
def Claims.ResultsReturn : Prop :=
  ∀ (s : State) (a : Access) (r : AccResult), s.accs.find? (fun b => b.id == a.id) = some a → a.res = some r →
    a.op ≠ .tdef → (chan5 a = true → inputBusy s a.tile a.id = false) →
    (∀ addr ar, savedWith s a = some (addr, ar) → r ≠ .fault .kerbRefused →
      (regionHeld s addr (areaSize ar.cohort) = none → Becomes (.accessResponse a.id) s (deliverSaved s addr ar a r)) ∧
      ∀ l, regionHeld s addr (areaSize ar.cohort) = some l → Becomes (.accessResponse a.id) s (askBack s l)) ∧
    (savedWith s a = none →
    let k := (tileOf s a.tile).task
    let fills (l : List LqEntry) (v : Vec) : List LqEntry :=
      l.map fun e => if e.fill = .waiting a.id then { e with fill := .data v } else e
    let done (t : State) : Prop := exec (.accessResponse a.id) s = .next t ∧ (∀ b ∈ t.accs, b.id ≠ a.id) ∧ SameBytes s t
    (∀ n v, k.act = a.act → a.dest = .a n → n ≠ 0#4 → k.a[n.toFin].st = .pending a.id → r = .value v →
      ∃ t, done t ∧ (tileOf t a.tile).task = { k with a := k.a.set n.toFin ⟨v.setWidth 64, .ready⟩ }) ∧
    (∀ i v, k.act = a.act → a.dest = .lq 0#1 i → r = .value v →
      ∃ t, done t ∧ (tileOf t a.tile).task = { k with lq0 := fills k.lq0 v }) ∧
    (∀ i v, k.act = a.act → a.dest = .lq 1#1 i → r = .value v →
      ∃ t, done t ∧ (tileOf t a.tile).task = { k with lq1 := fills k.lq1 v }) ∧
    (∀ n c, k.act = a.act → k.gtid = a.gtid → a.dest = .a n → n ≠ 0#4 → k.a[n.toFin].st = .pending a.id → r = .fault c →
      c ≠ .kerbRefused → (tileOf s a.tile).run = .running →
      ∃ t e, done t ∧ (tileOf t a.tile).replay = (tileOf s a.tile).replay ++ [e] ∧
        e.code = c ∧ e.ea = a.ea ∧ e.pc = a.pc ∧
        (tileOf t a.tile).task = { k with a := k.a.set n.toFin ⟨0#64, .poisoned c a.ea⟩ }) ∧
    (∀ c u, k.act ≠ a.act → r = .fault c → c ≠ .kerbRefused → taskTile s a.tile a.gtid = some u →
      ∃ t e, done t ∧ (tileOf t u).replay = (tileOf s u).replay ++ [e] ∧ e.gtid = a.gtid ∧ e.code = c ∧ e.ea = a.ea) ∧
    (∀ v, k.act ≠ a.act ∨ a.dest = .none → r = .value v → ∃ t, done t ∧ (tileOf t a.tile).task = k))

/-- R135, R285, R298, R305: with 32 entries logged and nothing of the task in flight, the oldest fault that a report point raises
stops the task between bundles, imprecise, with its address; under a halt it does not yet. -/
def Claims.FullReplayQueueRaises : Prop :=
  ∀ (s : State) (t : Nat) (e : ReplayEntry) (r : List ReplayEntry), (tileOf s t).run = .running →
    32 ≤ (tileOf s t).replay.length → reportable s t = e :: r →
    let g := (tileOf s t).task.gtid
    (haltAllows (tileOf s t) = true → (∀ a ∈ s.accs, sameTask s t g a.tile a.gtid = false) →
      (∀ m ∈ s.net, sameTask s t g m.src m.gtid = true → m.chan ≠ 5 ∧ m.chan ≠ 4) →
      ∃ t' i, exec (.replayQueueFull t) s = .next t' ∧ Stops t s t' i ∧ i.code = e.code ∧ i.arg0 = e.ea ∧ i.precise = false ∧
        i.rpc = (tileOf s t).task.pc) ∧
    (haltAllows (tileOf s t) = false ∨ (∃ a ∈ s.accs, sameTask s t g a.tile a.gtid = true) →
      Becomes (.replayQueueFull t) s s)

/-- R23, R24, R134, R53, R135, R141, R142, R143, R279, R285, R298, R305: Where accesses fault, what results fill, and when a
logged fault is raised: `Claims.AccessesFault`, `Claims.ResultsReturn`, `Claims.FullReplayQueueRaises`. -/
def Obligations.FaultsAndResults : Prop :=
  Claims.AccessesFault ∧ Claims.ResultsReturn ∧ Claims.FullReplayQueueRaises

/-- R47, R48, R299-R302: a line of code that a running task waits for joins its fetch buffer through the translation of its
die, and that of any tile of its cluster whose fetch of the line is merged with it; a line whose fetch fails takes no place in
the buffer and leaves its fault for the task. A walk that finds a translation fills the die's TLB; an invalidation drops the
translations of its tenant that meet its range, and no others. Which line leaves the buffer, what a failed fetch leaves and what
the TLB keeps are the model's choices (logs 79, 80 and 82). -/
def Claims.FetchAndTranslation : Prop :=
  (∀ (s : State) (t : Nat) (base : DWord), (tileOf s t).run = .running →
    base.toNat = lineOf (tileOf s t).task.pc → (∀ x ∈ (tileOf s t).lines, x.base ≠ base.toNat) →
    (∀ l s0, fetchLine s t base = some (.ok l, s0) →
      ∃ t', exec (.fetchLineFill t base) s = .next t' ∧ SameBytes s t' ∧ l.base = base.toNat ∧
        tileOf t' t = { tileOf s t with lines := (l :: (tileOf s t).lines).take 8 } ∧
        (∀ u, clusterOf u ≠ clusterOf t → tileOf t' u = tileOf s u) ∧
        ∀ u, u ≠ t → (tileOf t' u).lines = (tileOf s u).lines ∨ (tileOf t' u).lines = (l :: (tileOf s u).lines).take 8) ∧
    ∀ c s0, fetchLine s t base = some (.error c, s0) →
      ∃ t', exec (.fetchLineFill t base) s = .next t' ∧ SameBytes s t' ∧
        tileOf t' t = { tileOf s t with badFetch := some ((tileOf s t).task.act, base.toNat, c) } ∧
        fetchBundle (tileOf t' t) (tileOf t' t).task.pc = .bad c) ∧
  (∀ (s : State) (die tag va : Nat) (e : TlbEntry), va < 2 ^ 57 → walk s tag (BitVec.ofNat 64 va) = some e →
    ∃ t, exec (.pageWalk die tag va) s = .next t ∧ (dieAt t die).tlb.head? = some e ∧ (dieAt t die).tlb.length ≤ 256 ∧
      SameBytes s t) ∧
  ∀ (s : State) (die tenant : Nat) (range : Option (Nat × Nat)), ∃ t,
    exec (.gatewayInvalidation die tenant range) s = .next t ∧
    (∀ e, e ∈ (dieAt t die).tlb ↔ e ∈ (dieAt s die).tlb ∧
      ¬ (e.tenant = tenant ∧ ∀ r, range = some r → e.lo < r.2 ∧ r.1 < e.hi)) ∧
    SameBytes s t

/-- R255, R256: a back-invalidation response takes a line from every host agent, and its home then performs the writes that it has
held behind it, in their order; a write that still waits for another line keeps those that its port sent after it; a load of a line
of which its home holds a write waits for that write; a flushing read settles the host stores of its port. -/
def Claims.HostOrdering : Prop :=
  ∀ (s : State),
    (∀ pa, ∃ t, exec (.backInvalidationResponse pa) s = .next t ∧ hostHolds t pa = false ∧
      (s.homeQ = [] → SameBytes s t) ∧
      (∀ (w : Writer) (a : Nat) (bs : List Byte), s.memsOk = true → s.homeQ = [⟨w, a, bs⟩] → badMerge s a bs.length = false →
        (∀ l ∈ linesOf a bs.length, l = pa / 64 ∨ hostHolds s (64 * l) = false) →
        t.homeQ = [] ∧ (∀ j, (h : j < bs.length) → byteAt t (.edge (a + j)) = bs[j]) ∧
          ∀ b, (∀ j, j < bs.length → b ≠ .edge (a + j)) → byteAt t b = byteAt s b) ∧
      ∀ (p a a' : Nat) (bs bs' : List Byte), s.homeQ = [⟨.port p, a, bs⟩, ⟨.port p, a', bs'⟩] →
        (∃ l ∈ linesOf a bs.length, l ≠ pa / 64 ∧ hostHolds s (64 * l) = true) → t.homeQ = s.homeQ ∧ SameBytes s t) ∧
    (∀ (a : Access) (pa : Nat) (ty : BitVec 2), s.accs.find? (fun b => b.id == a.id) = some a → a.op = .load →
      mayPerform s a = true → a.guard = .free → reach s a = .at (.gl (.edge pa) ty) → queuedAt s pa a.n = true →
      Becomes (.homeAccess (.tile a.id)) s (askBack s (pa / 64))) ∧
    ∀ port, ∃ t, exec (.flushingReadCompletion port) s = .next t ∧ (portAt t port).unflushed = [] ∧ SameBytes s t

/-- R47, R48, R299, R300, R301, R302, R255, R256: Fetch lines, page walks, invalidations and the ordering of host stores:
`Claims.FetchAndTranslation`, `Claims.HostOrdering`. -/
def Obligations.FetchAndTranslation : Prop :=
  Claims.FetchAndTranslation ∧ Claims.HostOrdering

/-- R8, R17, R21, R30, R41, R224, R304: how an inbox message meets its tile. A discarded one is dropped and a held one waits; the
Kerb refuses what leaves its region, and a tile without a cohort of the sender's launch refuses it with PEER_GONE; a cohort that is
not resident, a PLACED cohort saved with its fellows, or a migration keeps it waiting (a cohort whose halt is not complete is still
resident); where every slot is held it stands at the tile's input, and what comes later on channel 5 waits behind it, a Plaza core's
message too (the model's choice, log 130); otherwise it takes the lowest free slot, whose 256 bytes receive
it, and the record that waits longest for a message consumes the oldest one. A message of tag 0 to a reserved selector, or to a
selector 15 whose bits 15:8 are not zero, is dropped, and a KERB_REFUSED NOTIFY of TAG 0 and TILE 0xFFFF joins the mailbox; one of
an engine that acts on a task's command is also logged for that task. -/
def Claims.InboxTakesMessages : Prop :=
  (∀ (s : State) (m : Msg) (bytes : List Byte), s.memsOk = true → msgOf s m.id = some m → m.body = .inbox bytes →
    m.src ≠ plazaSource →
    let t := (m.dst.extractLsb' 0 16).toNat
    let i : Instr := .inboxDelivery (.net m.id)
    let refused (c : Code) : State := refuseMsg s m c 0#3 0#3 (payloadData bytes)
    (m.guard = .discarded → Becomes i s (dropMsg s m.id)) ∧
    (m.guard.isBound = true → Becomes i s s) ∧
    (m.guard = .free → msgMay s m = false ∨ earlierDone s m.src m.gtid m.id 5#3 = false ∨ placedAway s t m.launch = true →
      Becomes i s s) ∧
    (m.guard = .free → msgMay s m = true → earlierDone s m.src m.gtid m.id 5#3 = true → placedAway s t m.launch = false →
      (kerbTile s m.tag t = false → Becomes i s (refused .kerbRefused)) ∧
      (kerbTile s m.tag t = true → cohortOf s t = none → Becomes i s (refused .peerGone)) ∧
      ∀ key c j, kerbTile s m.tag t = true → cohortOf s t = some (key, c, j) →
        (c.launch ≠ m.launch → Becomes i s (refused .peerGone)) ∧
        (c.launch = m.launch → takesInbox c = false ∨ (tileOf s t).halt = .migrate → Becomes i s s) ∧
        (c.launch = m.launch → takesInbox c = true → (tileOf s t).halt ≠ .migrate →
          ((∀ n : Fin 8, (tileOf s t).inbox[n] ≠ none) → ∃ t', exec i s = .next t' ∧
            t' = setTile s t { tileOf s t with stuck := some m.id } ∧
            ∀ x ∈ s.net, x.id ≠ m.id → x.chan = 5 → unitNamed x.dst = (0, t) → msgMay t' x = false) ∧
          ∀ n : Fin 8, (tileOf s t).inbox[n] = none → (∀ n' : Fin 8, n' < n → (tileOf s t).inbox[n'] ≠ none) →
            ∃ t', exec i s = .next t' ∧ msgOf t' m.id = none ∧ t'.tiles = smSet t (giveMessage { tileOf s t with
                sp := memWrite (tileOf s t).sp (0x2f800 + 256 * n.val) bytes
                inbox := (tileOf s t).inbox.set n.val (some ⟨m.src, bytes.length, s.nextId, false⟩) } (s.nextId + 1)) s.tiles ∧
              (∀ o, o < bytes.length → byteAt t' (.sp t (0x2f800 + 256 * n.val + o)) = bytes[o]?.getD 0#8) ∧
              ∀ b, (∀ o, o < bytes.length → b ≠ .sp t (0x2f800 + 256 * n.val + o)) → byteAt t' b = byteAt s b))) ∧
  (∀ (s : State) (t launch : Nat) (bytes : List Byte) (key : Nat) (c : Cohort) (j : Nat), bytes.length ≤ 256 →
    cohortOf s t = some (key, c, j) →
    let i : Instr := .inboxDelivery (.plaza t launch bytes)
    (inputBusy s t s.nextId = true → Becomes i s { s with reply := ⟨.retry, []⟩ }) ∧
    (inputBusy s t s.nextId = false →
      (c.launch ≠ launch → Becomes i s { s with reply := ⟨.discarded, []⟩ }) ∧
      (c.launch = launch → takesInbox c = false ∨ (tileOf s t).halt = .migrate →
        Becomes i s { s with reply := ⟨.retry, []⟩ }) ∧
      (c.launch = launch → takesInbox c = true → (tileOf s t).halt ≠ .migrate →
        (∀ n : Fin 8, (tileOf s t).inbox[n] ≠ none) →
        let t' : State := { plazaStands s t launch bytes with reply := ⟨.done, []⟩ }
        Becomes i s t' ∧ (msgOf s s.nextId = none → ∃ m, msgOf t' s.nextId = some m ∧ m.body = .inbox bytes) ∧
          ∀ x ∈ s.net, x.id ≠ s.nextId → x.chan = 5 → unitNamed x.dst = (0, t) → msgMay t' x = false) ∧
      ∀ n : Fin 8, c.launch = launch → takesInbox c = true → (tileOf s t).halt ≠ .migrate → (tileOf s t).inbox[n] = none →
        (∀ n' : Fin 8, n' < n → (tileOf s t).inbox[n'] ≠ none) →
        Becomes i s { acceptInbox s t n.val 0xffff bytes with reply := ⟨.done, []⟩ })) ∧
  (∀ (s : State) (m : Msg) (bytes : List Byte), msgOf s m.id = some m → m.body = .inbox bytes → m.src = plazaSource →
    m.guard = .free →
    let t := (m.dst.extractLsb' 0 16).toNat
    let i : Instr := .inboxDelivery (.net m.id)
    (msgMay s m = false → Becomes i s s) ∧
    (msgMay s m = true → cohortOf s t = none → Becomes i s (dropMsg s m.id)) ∧
    ∀ key c j, msgMay s m = true → cohortOf s t = some (key, c, j) →
      (c.launch ≠ m.launch → Becomes i s (dropMsg s m.id)) ∧
      (c.launch = m.launch → takesInbox c = false ∨ (tileOf s t).halt = .migrate → Becomes i s s) ∧
      ∀ n : Fin 8, c.launch = m.launch → takesInbox c = true → (tileOf s t).halt ≠ .migrate → (tileOf s t).inbox[n] = none →
        (∀ n' : Fin 8, n' < n → (tileOf s t).inbox[n'] ≠ none) →
        Becomes i s (acceptInbox (dropMsg s m.id) t n.val 0xffff bytes)) ∧
  (∀ (s : State) (t : Nat) (gtid pc : DWord) (dst : BitVec 20) (u : Nat), outsideRegions dst = true → framed s gtid = false →
    (dieAt s 0).mailbox.length < 256 → taskTile s t gtid = some u →
    ∃ (t' : State) (e : ReplayEntry), exec (.inboxDelivery (.engine t gtid pc dst)) s = .next t' ∧
      (tileOf t' u).replay = (tileOf s u).replay ++ [e] ∧ e.code = .kerbRefused ∧ e.gtid = gtid ∧ e.ea = dst.setWidth 64 ∧
      (dieAt t' 0).mailbox.length = (dieAt s 0).mailbox.length + 1) ∧
  (∀ (s : State) (die : Nat) (dst : BitVec 20), die < 64 → (dieAt s die).mailbox.length < 256 →
    let sel := (dst.extractLsb' 16 4).toNat
    (sel = 6 ∨ sel = 7 ∨ (11 ≤ sel ∧ sel ≤ 14) ∨ (sel = 15 ∧ dst.extractLsb' 8 8 ≠ 0#8)) →
    ∃ (t : State) (r : TrapRecord), exec (.inboxDelivery (.tagZero die dst)) s = .next t ∧
      (dieAt t die).mailbox = (dieAt s die).mailbox ++ [r] ∧ r.note = true ∧ r.code = .kerbRefused ∧ r.tag = 0 ∧ r.tile = 0xffff ∧
      t.net = s.net ∧ t.tiles = s.tiles ∧ ∀ b, byteAt t b = byteAt s b) ∧
  ∀ (tl : Tile) (n : Fin 8) (m : InboxMsg) (pre post : List Resident) (r : Resident) (order : Nat),
    tl.inbox[n] = some m → m.consumed = false →
    (∀ (n' : Fin 8) (m' : InboxMsg), n' ≠ n → tl.inbox[n'] = some m' → m'.consumed = false → m.order < m'.order) →
    tl.resident = pre ++ r :: post → waitsMsg r = true → (∀ x ∈ pre ++ post, waitsMsg x = true → r.order < x.order) →
    giveMessage tl order = { tl with
      inbox := tl.inbox.set n.val (some { m with consumed := true })
      resident := pre ++ { r with
        r := { r.r with w0 := BitVec.ofNat 32 (0x2f800 + 256 * n.val), w1 := BitVec.ofNat 32 (m.src * 2 ^ 16 + m.n) }
        ready := true, order := order, slot := some n.val } :: post }

/-- R60, R61, R63, R225: a `put` lands in its register once that is empty, on a tile of its cohort that is not closed to it, and
waits until then; to a tile of another cohort it is refused with PEER_GONE; a ring value joins ri while ri holds fewer than
4, once what came before it on channel 5 has arrived. -/
def Claims.WordsLand : Prop :=
  (∀ (s : State) (m : Msg) (reg : Fin 8) (v : Word), msgOf s m.id = some m → m.body = .put reg.val v → msgMay s m = true →
    let t := (m.dst.extractLsb' 0 16).toNat
    let tl := tileOf s t
    (m.guard = .discarded → Becomes (.putLanding m.id) s (dropMsg s m.id)) ∧
    (m.guard = .free → sameCohort s m.src t = false →
      Becomes (.putLanding m.id) s (refuseMsg s m .peerGone 2#3 (BitVec.ofNat 3 reg.val) (v.setWidth 256))) ∧
    (m.guard = .free → sameCohort s m.src t = true →
      (takesWords s t = true → tl.e[reg] = none → Becomes (.putLanding m.id) s
        (setTile (dropMsg s m.id) t { tl with e := tl.e.set reg.val (some v) })) ∧
      (tl.e[reg] ≠ none → Becomes (.putLanding m.id) s s) ∧
      (takesWords s t = false → Becomes (.putLanding m.id) s s))) ∧
  ∀ (s : State) (t n : Nat) (w : Word) (r : List (Nat × Word)), (tileOf s t).riNet = (n, w) :: r →
    let tl := tileOf s t
    let before := sentBefore s t (ringPredecessor s t) n
    (takesWords s t = true → tl.ri.length < 4 → before = false →
      Becomes (.ringValueArrival t) s (setTile s t { tl with riNet := r, ri := tl.ri ++ [w] })) ∧
    (takesWords s t = false ∨ 4 ≤ tl.ri.length ∨ before = true → Becomes (.ringValueArrival t) s s)

/-- R8, R17, R21, R30, R41, R224, R304, R60, R61, R63, R225: How inbox messages, landing words and ring values arrive:
`Claims.InboxTakesMessages`, `Claims.WordsLand`. -/
def Obligations.MessagesLand : Prop :=
  Claims.InboxTakesMessages ∧ Claims.WordsLand

/-- R38, R220, R222, R275, R292: what a free tile runs next: an answered frame, as edge memory then holds it; the record of a
`suspend` that found no place; the reserved slot of the highest depth; the resident record that has been ready longest; the newest
record of its deque; the newest of its spill. A bad record raises ILLEGAL_ENCODING at its PC. That an answered frame comes before
an unplaced record, and which of several comes first, are the model's choices (logs 64 and 121). -/
def Claims.TasksSelected : Prop :=
  ∀ (s : State) (t : Nat),
    (freeToRun s t = false → Becomes (.taskSelect t) s s) ∧
    (freeToRun s t = true →
      let tl := tileOf s t
      let runs (r : Rec) (slot : Option Nat) (p : Tile → Prop) : Prop := r.bad = false → ∃ t', exec (.taskSelect t) s = .next t' ∧
        (tileOf t' t).run = .running ∧ (tileOf t' t).task = { recTask r s.nextAct slot with
          bl := tl.task.ring, hold := keptHold tl r.gtid } ∧
        p (tileOf t' t) ∧ SameBytes s t'
      (∀ a f single skip, answered s t = some (a, f, single, skip) →
        (∀ l, regionHeld s a.toNat frameSize = some l → Becomes (.taskSelect t) s (askBack s l)) ∧
        (regionHeld s a.toNat frameSize = none → frameSpoilt s a f = false →
          Becomes (.taskSelect t) s (resumeFrame s a (frameNow s a f) single skip)) ∧
        (regionHeld s a.toNat frameSize = none → frameSpoilt s a f = true → Becomes (.taskSelect t) s (spoilFrame s a f))) ∧
      (answered s t = none →
        (∀ r, tl.unplaced = some r → runs (r.setTransit false) none fun u => u.unplaced = none) ∧
        (tl.unplaced = none → ∀ d r rest, tl.reserved = rest ++ [(d, r)] → (∀ e ∈ rest, e.1 ≠ d) →
          runs (r.setTransit false) none fun u => u.reserved = rest) ∧
        (tl.unplaced = none → tl.reserved = [] → ∀ pre r post, tl.resident = pre ++ r :: post → r.ready = true →
          (∀ x ∈ pre ++ post, x.ready = true → r.order < x.order) → tl.overflow = [] →
          runs (r.r.setTransit false) r.slot fun u => u.resident = pre ++ post) ∧
        (tl.unplaced = none → tl.reserved = [] → (∀ x ∈ tl.resident, x.ready = false) →
          (∀ rest r, tl.deque = rest ++ [r] → runs (r.setTransit false) none fun u => u.deque = rest) ∧
          ∀ rest r, tl.deque = [] → tl.spill = rest ++ [r] → runs (r.setTransit false) none fun u => u.spill = rest))) ∧
    ∀ (r : Rec) (slot : Option Nat), r.bad = true → ∃ i, (tileOf (startTask s t r slot) t).run = .stopping i ∧
      i.code = .illegalEncoding ∧ i.pc = r.pc ∧ i.precise = true

/-- R8, R21, R135, R220, R275, R276: an idle tile with nothing of its own takes the oldest stealable record of the first victim that
has one for it, its general spill before its deque, with what its task has logged (the model's choice, log 13); a victim that takes
its only record itself has none; with none at all the thief waits; the record then starts at the thief, in its order on channel 5.
While either tile is being moved a steal waits. -/
def Claims.StealsTakeOldest : Prop :=
  ∀ (s : State) (t v : Nat),
    (freeToRun s t = true → noSteal s t = false → nothingOwn s t = true →
      ((victims s t).find? (fun u => claimable s u) = none →
        Becomes (.stealClaim t v) s (setTile s t { tileOf s t with backoff := true })) ∧
      ((victims s t).find? (fun u => claimable s u) = some v → pathClear s t v s.nextId = false → Becomes (.stealClaim t v) s s) ∧
      ((victims s t).find? (fun u => claimable s u) = some v → pathClear s t v s.nextId = true →
        let takes (r : Rec) (p : Tile → Prop) : Prop :=
          let mine := (tileOf s v).replay.filter fun e => e.gtid == r.gtid
          (tileOf s t).replay.length + mine.length ≤ 256 → ∃ t', exec (.stealClaim t v) s = .next t' ∧
            (tileOf t' t).landing = some (v, s.nextId, r.setTransit true) ∧
            (tileOf t' t).replay = (tileOf s t).replay ++ mine ∧ p (tileOf t' v) ∧ SameBytes s t'
        (∀ r rest, (tileOf s v).spill = r :: rest → takes r fun u => u.spill = rest ∧ u.deque = (tileOf s v).deque) ∧
        ∀ r rest, (tileOf s v).spill = [] → (tileOf s v).deque = r :: rest → takes r fun u => u.deque = rest)) ∧
    (∀ u n r, (tileOf s t).landing = some (u, n, r) →
      let s1 := setTile s t { tileOf s t with landing := none }
      (pathClear s u t n = false → Becomes (.stealLanding t) s s) ∧
      (pathClear s u t n = true → freeToRun s1 t = true → (r.setTransit false).bad = false →
        ∃ t', exec (.stealLanding t) s = .next t' ∧ (tileOf t' t).run = .running ∧
          (tileOf t' t).landing = none ∧ (tileOf t' t).task.gtid = r.gtid ∧ (tileOf t' t).task.pc = r.pc ∧ SameBytes s t') ∧
      (pathClear s u t n = true → freeToRun s1 t = false → haltAllows (tileOf s t) = false → Becomes (.stealLanding t) s
        (setTile s1 t { tileOf s1 t with deque := (tileOf s t).deque ++ [r.setTransit false] }))) ∧
    (ownerTakes s v = true → claimable s v = false) ∧
    (moving s t v = true → pathClear s t v s.nextId = false) ∧
    Becomes (.stealRetry t) s (setTile s t { tileOf s t with backoff := false })

/-- R38, R220, R222, R275, R292, R8, R21, R135, R276: What a free tile runs next, and what it steals: `Claims.TasksSelected`,
`Claims.StealsTakeOldest`. -/
def Obligations.TasksSelected : Prop :=
  Claims.TasksSelected ∧ Claims.StealsTakeOldest

/-- R256, R285, R287, R288, R291, R334: a stopped task whose queues have settled goes to a frame at the oldest address of its die's
pool: its registers with the resume PC, its replay entries, its trap, whose 64 KiB edge memory then holds; the tile is free, and a
record that names the frame joins the tile's records. Until then, with no frame left, with 16 records queued behind the one that
waits, or with a line of the frame at a host, nothing of it happens. How much of the bytes the tables give, and what the CRC-32C
covers, are the model's choices (log rows 27, 29 and 30). -/
def Claims.FramesWritten : Prop :=
  (∀ (s : State) (t : Nat) (i : TrapInfo), (tileOf s t).run = .stopping i →
    let k := (tileOf s t).task
    let d := dieAt s (dieOf t)
    (frameReady s t i = false → Becomes (.frameWrite t) s s) ∧
    (recordsFull s t = true → Becomes (.frameWrite t) s s) ∧
    (d.fp = [] → Becomes (.frameWrite t) s s) ∧
    (∀ a rest l, d.fp = a :: rest → frameReady s t i = true → recordsFull s t = false →
      regionHeld s a.toNat 0x10000 = some l → Becomes (.frameWrite t) s (askBack s l)) ∧
    ∀ a rest, d.fp = a :: rest → frameReady s t i = true → recordsFull s t = false → regionHeld s a.toNat 0x10000 = none →
      ∃ (t' : State) (f : Frame) (r : TrapRecord), exec (.frameWrite t) s = .next t' ∧
        (dieAt t' (dieOf t)).fp = rest ∧ smFind a.toNat t'.frames = some f ∧ (tileOf t' t).run = .idle ∧
        (tileOf t' t).records = (tileOf s t).records ++ [r] ∧
        f.tile = t ∧ f.trap = i ∧ f.answer = none ∧ f.crcOk = true ∧
        f.replay = (tileOf s t).replay.filter (fun e => e.gtid == k.gtid) ∧ f.vshare = (tileOf s t).vshare ∧
        f.task = { k with pc := i.rpc, xpushed := i.xpushed, stepping := .no, skipbp := false, xbusy := false } ∧
        r.code = i.code ∧ r.pc = i.pc ∧ r.apc = i.apc ∧ r.arg0 = i.arg0 ∧ r.arg1 = i.arg1 ∧ r.arg2 = i.arg2 ∧
        r.xside = i.xside ∧ r.precise = i.precise ∧ r.info = i.info ∧ r.gtid = k.gtid ∧ r.frame = a ∧
        r.nlog = f.replay.length ∧ r.tile = t ∧ r.note = false ∧
        (s.memsOk = true → (∀ c ∈ frameImage f, c.1 < 0x10000) →
          ∀ j, j < 0x10000 → byteAt t' (.edge (a.toNat + j)) = memGet (frameImage f) j) ∧
        (s.memsOk = true → ∀ b, (∀ j, j < 0x10000 → b ≠ .edge (a.toNat + j)) → byteAt t' b = byteAt s b)) ∧
  ∀ (s : State) (t : Nat) (r : TrapRecord) (rest : List TrapRecord), (tileOf s t).records = r :: rest →
    let d := dieAt s (dieOf t)
    (d.mailbox.length < 256 → Becomes (.trapRecordDelivery t) s
      (setTile (setDie s (dieOf t) { d with mailbox := d.mailbox ++ [r] }) t { tileOf s t with records := rest })) ∧
    (256 ≤ d.mailbox.length → Becomes (.trapRecordDelivery t) s s)

/-- R48, R78, R184, R192, R292: a frame resumed gives the tile its task back, with a reserved rounding mode read as RNE, its fetch
buffer empty and its address back in the pool (its entry in edge memory is log 127); a slab that has landed meanwhile is the
task's, or waits on the Ringway while its ring buffer is full; each replay entry is then replayed, supplied or discarded, and a
destination that no longer holds the entry's poison receives nothing. -/
def Claims.FramesResume : Prop :=
  (∀ (s : State) (addr : DWord) (f : Frame) (single skip : Bool), f.replay = [] →
    let t := f.tile
    let tl := tileOf s t
    let t' := resumeFrame s addr f single skip
    let k := { f.task with
      rm := if f.task.rm = 5#3 ∨ f.task.rm = 6#3 ∨ f.task.rm = 7#3 then 0#3 else f.task.rm
      skipbp := skip, stepping := if single = true then .armed else .no }
    (tl.task.ring = none → (tileOf t' t).task = k ∧ (tileOf t' t).ringNet = tl.ringNet) ∧
      (∀ b, tl.task.ring = some b →
        (f.task.ring = none → f.task.bl = none → (tileOf t' t).task = { k with bl := some b } ∧ (tileOf t' t).ringNet = tl.ringNet) ∧
        (f.task.ring = none → f.task.bl ≠ none →
          (tileOf t' t).task = { k with ring := some b } ∧ (tileOf t' t).ringNet = tl.ringNet) ∧
        (f.task.ring ≠ none → (tileOf t' t).task = k ∧ (tileOf t' t).ringNet = some b)) ∧
      (tileOf t' t).run = .running ∧ (tileOf t' t).lines = [] ∧ (tileOf t' t).closed = false ∧
      (tileOf t' t).vshare = f.vshare ∧ JoinsPool s t' (dieOf t) addr ∧ t'.accs = s.accs ++ f.held ∧
      t'.net = s.net ++ f.heldMsgs ∧ (tileOf t' t).matq = f.matq ++ tl.matq) ∧
  ∀ (s : State) (t : Nat) (e : ReplayEntry) (n : BitVec 4), e.kind ≠ 10#8 → n ≠ 0#4 → e.dest = n.setWidth 5 →
    let k := (tileOf s t).task
    let after := replayOne t s e
    let poisoned := k.a[n.toFin].st = .poisoned e.code e.ea
    (e.action = 2#4 → e.kind ≠ 7#8 → poisoned →
      after = setTask s t { k with a := k.a.set n.toFin ⟨e.data.setWidth 64, .ready⟩ }) ∧
    (e.action ≠ 1#4 → e.action ≠ 2#4 → poisoned → after = setTask s t { k with a := k.a.set n.toFin ⟨0#64, .ready⟩ }) ∧
    (e.action ≠ 1#4 → ¬ poisoned → (tileOf after t).task = k ∧ after.accs = s.accs) ∧
    ∀ op, e.action = 1#4 → e.what = some op → ∃ a, after.accs = s.accs ++ [a] ∧ a.op = op ∧ a.ea = e.ea ∧ a.tile = t ∧
      a.space = e.space ∧ a.data = e.data ∧ a.id = s.nextId ∧ a.act = k.act ∧ a.res = none ∧
      (poisoned → (tileOf after t).task = { k with a := k.a.set n.toFin ⟨0#64, .pending s.nextId⟩ }) ∧
      (¬ poisoned → (tileOf after t).task = k)

/-- R292, R342, R344, Table 21-5: the edits of a frame: the registers and fields that may be edited take the new value, or that
which stands for them in edge memory; another change is caught by the CRC-32C, and such a frame, or one that is damaged, is not
restored. That the CRC-32C leaves out the fields that may be edited is log 30. -/
def Claims.FrameEditsChecked : Prop :=
  (∀ (s : State) (addr : DWord) (f : Frame),
    let now := frameNow s addr f
    let word (o n : Nat) : Nat := leNat (memRead (regionMem s addr.toNat 0x10000) o n)
    (∀ i : Fin 16, i ≠ 0 → now.task.a[i] = ⟨BitVec.ofNat 64 (word (0x40 + 8 * i.val) 8), f.task.a[i].st⟩) ∧
    (∀ i : Fin 48, i ≠ 0 → now.task.g[i] = BitVec.ofNat 32 (word (0x100 + 4 * i.val) 4)) ∧
    now.task.pc = BitVec.ofNat 64 (word 0x1c8 8) ∧ now.task.acc = BitVec.ofNat 32 (word 0x1c4 4) ∧
    now.task.lfsr = BitVec.ofNat 32 (word 0x1e0 4) ∧ now.task.v = f.task.v ∧ now.trap = f.trap ∧
    (frameIntact (regionMem s addr.toNat 0x10000) f = false ∨ f.crcOk = false ∨
      (∃ g c, addr.toNat / 64 ≤ g ∧ g ≤ (addr.toNat + 0xffff) / 64 ∧ Damage.edge g c ∈ s.damage ∧
        c ≠ crc32c (memRead s.edge (64 * g) 64)) → frameSpoilt s addr f = true)) ∧
  ∀ (f : Frame), f.crcOk = true →
    (∀ (n : BitVec 4) v, n ≠ 0#4 → editAll f [.a n v] =
      { f with task := { f.task with a := f.task.a.set n.toFin ⟨v, f.task.a[n.toFin].st⟩ } }) ∧
    (∀ (n : BitVec 6) v, n ≠ 0#6 → (h : n.toNat < 48) → editAll f [.g n v] =
      { f with task := { f.task with g := f.task.g.set n.toNat v } }) ∧
    (∀ v, editAll f [.rpc v] = { f with task := { f.task with pc := v } }) ∧
    (∀ v, editAll f [.acc v] = { f with task := { f.task with acc := v } }) ∧
    (editAll f [.other]).crcOk = false ∧
    ∀ s addr, f.crcOk = true → frameSpoilt s addr (editAll f [.other]) = true

/-- R285, R287, R288, R291, R48, R78, R184, R192, R292, R342, R344, Table 21-5: A trapped task goes to a frame, may be edited,
and resumes from it: `Claims.FramesWritten`, `Claims.FramesResume`, `Claims.FrameEditsChecked`. -/
def Obligations.FramesHoldTasks : Prop :=
  Claims.FramesWritten ∧ Claims.FramesResume ∧ Claims.FrameEditsChecked

/-- R289, R290, R292, R295, R298, R305: what a resolution does: to a frame, RESUME and STEP leave it answered for its tile to take,
END_TASK ends its task where the cohort is in place, and gives the frame back to the pool, and END_LAUNCH its launch with the trap's
code; to a halted cohort, RESUME
releases every tile, STEP lets one tile issue one bundle, END_TASK ends the tile's task and END_LAUNCH the launch with
HALTED, and all four wait, each as what it asks, while the cohort is away or the tile is being moved; where RESOLVE0 names neither
it is refused as COMMAND_INVALID. Where the pool's entries stand is log 127. -/
def Obligations.ResolutionsAct : Prop :=
  ∀ (s : State) (r : Resolution),
    (targetOf s r.die = .nothing → ∀ i ∈ [Instr.resume r, .step r, .endTask r, .endLaunch r],
      Becomes i s (refuseAccess s r.core (blockBase r.die + 0x68) .commandInvalid)) ∧
    (∀ addr f0, targetOf s r.die = .frame addr f0 →
      let x := (editedFrame s addr f0 r.edits).1
      let f := (editedFrame s addr f0 r.edits).2
      let answered (a : FrameAnswer) : State := { x with frames := smSet addr.toNat { f with answer := some a } x.frames }
      (r.edits = [] → x = s ∧ f = f0) ∧
      Becomes (.resume r) s (answered (.go false r.skipbp)) ∧ Becomes (.step r) s (answered (.go true r.skipbp)) ∧
      (frameInPlace x f = false → Becomes (.endTask r) s (answered .endTask)) ∧
      (frameInPlace x f = false → Becomes (.endLaunch r) s (answered .endLaunch)) ∧
      (∀ key c j, frameInPlace x f = true → cohortOf x f.tile = some (key, c, j) → f.copies = [] →
        ∃ t, exec (.endTask r) s = .next t ∧ JoinsPool x t (dieOf f.tile) addr ∧
          smFind key t.cohorts = some { c with live := c.live - 1 }) ∧
      ∀ l, frameInPlace x f = true → smFind (launchOf x f.tile) x.launches = some l → l.failed = none →
        ∃ t l', exec (.endLaunch r) s = .next t ∧ smFind (launchOf x f.tile) t.launches = some l' ∧ l'.ended = true ∧
          l'.failed = some f.trap.code) ∧
    ∀ u key c, targetOf s r.die = .halted u key c →
      let tl := tileOf s u
      (c.status = .halted → tl.halt ≠ .migrate →
        (∃ t, exec (.resume r) s = .next t ∧ smFind key t.cohorts = some { c with status := .resident } ∧
          (∀ v ∈ cohortTiles c, (tileOf t v).halt = (if (tileOf s v).halt = .migrate then .migrate else .none) ∧
            (tileOf t v).run = (tileOf s v).run) ∧ SameBytes s t) ∧
        Becomes (.step r) s (setTile s u { tl with
          halt := .held true, task := { tl.task with skipbp := r.skipbp || tl.task.skipbp } }) ∧
        (tl.run ≠ .running → Becomes (.endTask r) s s) ∧
        (tl.run = .running → ∃ t, exec (.endTask r) s = .next t ∧ (tileOf t u).run = .idle) ∧
        ∀ l, smFind c.launch s.launches = some l → l.failed = none →
          ∃ t l', exec (.endLaunch r) s = .next t ∧ smFind c.launch t.launches = some l' ∧ l'.ended = true ∧
            l'.failed = some .halted) ∧
      (c.status ≠ .halted ∨ tl.halt = .migrate →
        ∀ p ∈ [(Instr.resume r, FrameAnswer.go false r.skipbp), (.step r, .go true r.skipbp), (.endTask r, .endTask),
          (.endLaunch r, .endLaunch)],
        Becomes p.1 s (setCohort s key { c with waiting := c.waiting ++ [(u, p.2)] }))

/-- R289, R290, Tables 21-8 and 21-10: the registers of a die's panel block. FPPUSH adds a frame to the pool, and sets FPOVF where
the pool is full; FPOVF reads the flag and clears it; MBPOP takes the oldest record, or reads 64 zero bytes; a guest's access is
discarded, reads zero and is refused as PRIVILEGE, one of the wrong width or value as COMMAND_INVALID. The first refused access of
a core stays until its status register is read. The code of a guest's access is log 59, where the pool's entries stand is log 127.
-/
def Claims.PanelBlockRegisters : Prop :=
  ∀ (s : State) (w : BlockAccess),
    let d := dieAt s w.die
    let refused (off : Nat) (c : Code) (x : State) : State := refuseAccess x w.core (blockBase w.die + off) c
    let dropped : State := { s with reply := ⟨.discarded, []⟩ }
    (w.guest = true → ∀ p ∈ [(Instr.fppush w, 0x10), (.fpovf w, 0x20), (.mbpop w, 0x100), (.preempt w, 0x40), (.restore w, 0x48)],
      Becomes p.1 s (refused p.2 .privilege { s with reply := ⟨.done, List.replicate w.width 0#8⟩ })) ∧
    (w.guest = false → w.width ≠ 8 → ∀ p ∈ [(Instr.fppush w, 0x10), (.fpovf w, 0x20), (.preempt w, 0x40), (.restore w, 0x48)],
      Becomes p.1 s (refused p.2 .commandInvalid dropped)) ∧
    (w.guest = false → w.width ≠ 64 → Becomes (.mbpop w) s (refused 0x100 .commandInvalid dropped)) ∧
    (w.guest = false → w.width = 8 →
      (w.val.toNat % 65536 ≠ 0 ∨ 3 * 2 ^ 40 ≤ w.val.toNat → Becomes (.fppush w) s (refused 0x10 .commandInvalid s)) ∧
      (w.val.toNat % 65536 = 0 → w.val.toNat < 3 * 2 ^ 40 →
        (d.fp.length < d.fpsize.toNat → ∃ t, exec (.fppush w) s = .next t ∧ JoinsPool s t w.die w.val ∧
          dieAt t w.die = { d with fp := d.fp ++ [w.val], fpnext := (d.fpnext + 1) % d.fpsize.toNat } ∧
          t.tiles = s.tiles ∧ t.frames = s.frames) ∧
        (d.fpsize.toNat ≤ d.fp.length → Becomes (.fppush w) s (setDie s w.die { d with fpovf := true }))) ∧
      Becomes (.fpovf w) s { setDie s w.die { d with fpovf := false } with
        reply := ⟨.done, leBytes (if d.fpovf = true then 1 else 0) 8⟩ }) ∧
    (w.guest = false → w.width = 64 →
      (∀ r rest, d.mailbox = r :: rest → Becomes (.mbpop w) s
        { setDie s w.die { d with mailbox := rest } with reply := ⟨.done, recordBytes r⟩ }) ∧
      (d.mailbox = [] → Becomes (.mbpop w) s { s with reply := ⟨.done, List.replicate 64 0#8⟩ })) ∧
    ∀ core off c,
      let k := coreAt s core
      (k.accValid = true → refuseAccess s core off c = s) ∧
      (k.accValid = false → refuseAccess s core off c = setCore s core { k with
        accValid := true, accOff := BitVec.ofNat 32 off, accCode := BitVec.ofNat 8 (codeNum c) }) ∧
      (Becomes (.panelAccessStatus core) s
        { setCore s core { k with accValid := false, accOff := 0#32, accCode := 0#8 } with
          reply := ⟨.done, leBytes
            ((if k.accValid = true then 2 ^ 63 else 0) + k.accOff.toNat * 256 + k.accCode.toNat) 8⟩ })

/-- R289, R290, R330, R332, R334, R336, R337: what a write to a panel register does: RESOLVE0 takes any value; FPBASE and FPSIZE
take a legal one only while the pool is empty, and their ring then starts at its first entry; a status register is read-only; a
session slot takes its event only while the session is closed; a TOTAL takes no write of a guest, in either half, and no half
alone; PULSE takes no write of another width than its own; an address that no register answers discards the write. The code of a
guest's write is log 59, the start of the pool's ring log 127. -/
def Claims.PanelRegisterWrites : Prop :=
  ∀ (s : State) (w : CfgWrite) (die : Nat), die < 64 →
    let d := dieAt s die
    let refused (c : Code) : State := refuseAccess { s with reply := ⟨.discarded, []⟩ } w.core w.off c
    let takes (x : State) : State := { x with reply := ⟨.done, []⟩ }
    let dropped : State := { s with reply := ⟨.discarded, []⟩ }
    (w.guest = true → 0x800000 ≤ w.off → w.off < 0x840000 → Becomes (.registerWrite w) s (refused .privilege)) ∧
    (w.guest = false → w.width = 8 →
      (w.off = 0x800000 + 0x1000 * die + 0x60 →
        Becomes (.registerWrite w) s (takes (setDie s die { d with resolve0 := w.val }))) ∧
      (w.off = 0x800000 + 0x1000 * die → w.val.toNat % 4096 = 0 → w.val.toNat < 3 * 2 ^ 40 →
        (d.fp = [] → Becomes (.registerWrite w) s (takes (setDie s die { d with fpbase := w.val, fpnext := 0 }))) ∧
        (d.fp ≠ [] → Becomes (.registerWrite w) s dropped)) ∧
      (w.off = 0x800000 + 0x1000 * die + 8 →
        (∀ n, 3 ≤ n → n ≤ 16 → w.val = BitVec.ofNat 64 (2 ^ n) →
          (d.fp = [] → Becomes (.registerWrite w) s (takes (setDie s die { d with fpsize := w.val, fpnext := 0 }))) ∧
          (d.fp ≠ [] → Becomes (.registerWrite w) s dropped)) ∧
        ((∀ n, 3 ≤ n → n ≤ 16 → w.val.toNat ≠ 2 ^ n) → Becomes (.registerWrite w) s (refused .commandInvalid))) ∧
      (w.off = 0x800000 + 0x1000 * die + 0x18 → Becomes (.registerWrite w) s (refused .privilege))) ∧
    (0x140 ≤ w.off → w.off < 0x160 → Becomes (.registerWrite w) s (refused .privilege)) ∧
    (∀ tag (i : Fin 16), tag < 256 → w.off = 0x1000000 + 0x1000 * tag + 0x40 + 4 * i.val →
      let se := sessionAt s tag
      (w.width ≠ 4 → Becomes (.registerWrite w) s (refused .commandInvalid)) ∧
      (w.width = 4 → se.open_ = true → Becomes (.registerWrite w) s dropped) ∧
      (w.width = 4 → se.open_ = false → Becomes (.registerWrite w) s
        (takes (setSession s tag { se with slots := se.slots.set i.val (w.val.setWidth 16) })))) ∧
    (w.off = 0x201000 → w.width ≠ 8 → Becomes (.registerWrite w) s (refused .commandInvalid)) ∧
    (∀ tag (i : Fin 16), tag < 256 →
      let se := sessionAt s tag
      let low := w.off = 0x1000000 + 0x1000 * tag + 0x100 + 8 * i.val
      let high := w.off = 0x1000000 + 0x1000 * tag + 0x104 + 8 * i.val
      (low ∨ high → w.guest = true → Becomes (.registerWrite w) s (refused .privilege)) ∧
      (low ∧ w.width ≠ 8 ∨ high → w.guest = false → Becomes (.registerWrite w) s (refused .commandInvalid)) ∧
      (low → w.guest = false → w.width = 8 →
        (se.open_ = true → Becomes (.registerWrite w) s dropped) ∧
        (se.open_ = false → Becomes (.registerWrite w) s
          (takes (setSession s tag { se with total := se.total.set i.val w.val }))))) ∧
    (0x1100000 ≤ w.off → Becomes (.registerWrite w) s dropped)

/-- R20, R289, R290, R310, R330, R332, R334, R336, R337: what a read of a panel register answers: the entries of the remap tables,
EVCAP, the registers of a die's panel block, of its ring and of a session page, SHADOW, and BUSY of PULSE; reserved bits read zero.
A guest's read of a panel block or of SHADOW reads zero and is refused as PRIVILEGE, one of the wrong width as COMMAND_INVALID. WIDX
stands before what a home still holds of the ring's records. The code of a guest's read is log 59, the width of a read of EVCAP is
log 112. -/
def Claims.PanelRegisterReads : Prop :=
  ∀ (s : State) (r : CfgRead),
    let i : Instr := .homeAccess (.configRead r)
    let answers (width v : Nat) : Prop :=
      (r.width = width → Becomes i s { s with reply := ⟨.done, leBytes v width⟩ }) ∧
      (r.width ≠ width → Becomes i s (refuseAccess { s with reply := ⟨.discarded, []⟩ } r.core r.off .commandInvalid))
    (∀ die, die < 64 → r.off = 0x1000 + 4 * die → answers 4 (dieEntry (dieAt s die))) ∧
    (∀ q, q < 16384 → r.off = 0x10000 + 4 * q → answers 4 (quadEntry (quadAt s q))) ∧
    (r.off = 0x140 → r.width = 32 → Becomes i s { s with reply := ⟨.done, leBytes (2 ^ 18 - 2) 32⟩ }) ∧
    (∀ die, die < 64 → let d := dieAt s die
      let at_ (o : Nat) : Prop := r.off = 0x800000 + 0x1000 * die + o
      (∀ o ∈ [0, 8, 0x18, 0x20, 0x60, 0x80, 0x100], at_ o → r.guest = true → Becomes i s
        (refuseAccess { s with reply := ⟨.done, List.replicate r.width 0#8⟩ } r.core r.off .privilege)) ∧
      (r.guest = false → (at_ 0 → answers 8 d.fpbase.toNat) ∧ (at_ 8 → answers 8 d.fpsize.toNat) ∧
        (at_ 0x18 → answers 8 d.fp.length) ∧ (at_ 0x60 → answers 8 d.resolve0.toNat) ∧
        (at_ 0x80 → answers 8 (min d.mailbox.length 256)) ∧
        (at_ 0x20 → exec i s = exec (.fpovf ⟨r.core, false, die, r.width, 0#64⟩) s) ∧
        (at_ 0x100 → exec i s = exec (.mbpop ⟨r.core, false, die, r.width, 0#64⟩) s)) ∧
      let g := d.ring
      let ring (o : Nat) : Prop := r.off = 0x200000 + 0x40 * die + o
      (ring 0 → answers 8 g.base.toNat) ∧ (ring 8 → answers 8 g.size.toNat) ∧ (ring 0x10 → answers 8 (widxOf s (.die die)).toNat) ∧
        (ring 0x18 → answers 8 g.ridx.toNat) ∧ (ring 0x28 → answers 8 g.on.toNat) ∧
        (ring 0x20 → r.width = 8 → exec i s = exec (.lost (.die die)) s)) ∧
    (r.off = 0x201000 → answers 8 (if s.pulse.todo = [] then 0 else 1)) ∧
    (∀ core, core < 512 → r.off = 0x30000 + 8 * core → let k := coreAt s core
      (r.guest = true →
        Becomes i s (refuseAccess { s with reply := ⟨.done, List.replicate r.width 0#8⟩ } r.core r.off .privilege)) ∧
      (r.guest = false → answers 8
        (((if k.shValid = true then 2 ^ 63 else 0) + k.shTag.toNat * 2 ^ 40 + k.shSlot.toNat * 2 ^ 32 + k.shHigh.toNat) % 2 ^ 64))) ∧
    ∀ tag, tag < 256 → let se := sessionAt s tag
      let at_ (o : Nat) : Prop := r.off = 0x1000000 + 0x1000 * tag + o
      (at_ 0 → answers 8 (((if se.open_ = true then 2 ^ 63 else 0) + se.sumbar.toNat * 2 ^ 32 + se.sper.toNat * 2 ^ 24) % 2 ^ 64)) ∧
      (at_ 8 → answers 8 se.ring.base.toNat) ∧ (at_ 0x10 → answers 8 se.ring.size.toNat) ∧
      (at_ 0x18 → answers 8 (widxOf s (.session tag)).toNat) ∧ (at_ 0x20 → answers 8 se.ring.ridx.toNat) ∧
      (∀ n : Fin 16, at_ (0x40 + 4 * n.val) →
        answers 4 (((if se.absent[n] = true then 2 ^ 31 else 0) + se.slots[n].toNat) % 2 ^ 32)) ∧
      ∀ n : Fin 16, at_ (0x100 + 8 * n.val) →
        (r.width = 4 → exec i s = exec (.totalLowRead r.core tag n.val) s) ∧
        (r.width ≠ 4 → answers 8 (if se.absent[n] = true then 0 else se.total[n].toNat)) ∧
        (at_ (0x104 + 8 * n.val) → (r.width = 4 → exec i s = exec (.totalHighRead r.core tag n.val) s) ∧
          (r.width ≠ 4 → Becomes i s (refuseAccess { s with reply := ⟨.discarded, []⟩ } r.core r.off .commandInvalid)))

/-- R289, R290, Table 21-8, Table 21-10, R330, R332, R334, R336, R337, R20, R310: What the registers of the panel do when read
and written: `Claims.PanelBlockRegisters`, `Claims.PanelRegisterWrites`, `Claims.PanelRegisterReads`. -/
def Obligations.PanelRegisters : Prop :=
  Claims.PanelBlockRegisters ∧ Claims.PanelRegisterWrites ∧ Claims.PanelRegisterReads

/-- R330, R332, R334, R336: opening a session, also one that is open, clears the counters of its region's tiles, its totals and
its ring's indices and marks the slots whose event does not exist, and a closed one's ring starts anew; closing it stops the
counting; what is summed of the region's barrier phases under way ends with either (log 126); the counters are those of the
region's tiles (log 75); a read of the low half of a total latches the high half for its core, and the high half reads the latched
one once; LOST reads and clears; turning on the first source of an idle die ring zeroes its indices. -/
def Claims.SessionsAndRings : Prop :=
  ∀ s : State,
    (∀ tag, let se := sessionAt s tag
      (∃ t, exec (.sessionOpen tag) s = .next t ∧
        (∀ u, tagOf s u = tag → (tileOf t u).counters = Vector.replicate 16 0#32) ∧
        (∀ u, tagOf s u ≠ tag → tileOf t u = tileOf s u) ∧
        (let new := sessionAt t tag
         new.open_ = true ∧ new.total = Vector.replicate 16 0#64 ∧ new.slots = se.slots ∧
          new.ring = (if se.open_ = true then { se.ring with widx := 0#64, ridx := 0#64 }
            else { se.ring with widx := 0#64, ridx := 0#64, lost := 0#32, seq := 0#32 }) ∧
          ∀ i : Fin 16, new.absent[i] = !(decide (se.slots[i].toNat ≤ 0x11))) ∧
        t.sums = s.sums.filter (fun e => tagOf s (e.1 / 32) != tag) ∧ widxOf t (.session tag) = 0#64 ∧ SameBytes s t) ∧
      Becomes (.sessionClose tag) s (setSession (forgetSums s tag) tag { se with open_ := false }) ∧
      (forgetSums s tag).sums = s.sums.filter (fun e => tagOf s (e.1 / 32) != tag)) ∧
    (∀ core tag (i : Fin 16), tag < 256 →
      let se := sessionAt s tag
      let k := coreAt s core
      let v : DWord := if se.absent[i] = true then 0#64 else se.total[i]
      Becomes (.totalLowRead core tag i.val) s
        { setCore s core { k with
            shValid := true, shTag := BitVec.ofNat 8 tag, shSlot := BitVec.ofNat 4 i.val, shHigh := v.extractLsb' 32 32 } with
          reply := ⟨.done, leBytes v.toNat 4⟩ } ∧
      (k.shValid = true → k.shTag.toNat = tag → k.shSlot.toNat = i.val → Becomes (.totalHighRead core tag i.val) s
        { setCore s core { k with shValid := false } with reply := ⟨.done, leBytes k.shHigh.toNat 4⟩ }) ∧
      (k.shValid = false ∨ k.shTag.toNat ≠ tag ∨ k.shSlot.toNat ≠ i.val → Becomes (.totalHighRead core tag i.val) s
        { s with reply := ⟨.done, leBytes (v.toNat / 2 ^ 32) 4⟩ })) ∧
    (∀ r, Becomes (.lost r) s
      { setRing s r { ringOf s r with lost := 0#32 } with reply := ⟨.done, leBytes (ringOf s r).lost.toNat 8⟩ }) ∧
    ∀ die (v : DWord), let r := (dieAt s die).ring
      let on : BitVec 2 := v.setWidth 2
      (r.on = 0#2 → on ≠ 0#2 → ∃ t, exec (.ringSourceEnable die v) s = .next t ∧
        ringOf t (.die die) = { r with widx := 0#64, ridx := 0#64, lost := 0#32, seq := 0#32, on := on } ∧
        widxOf t (.die die) = 0#64 ∧ SameBytes s t) ∧
      (r.on ≠ 0#2 ∨ on = 0#2 → Becomes (.ringSourceEnable die v) s (setRing s (.die die) { r with on := on }))

/-- R330, R331: a record that fits a ring lies at its write index, with its sequence number; where it would cross the end, a pad
without a number runs to the end and the record lies at the base; one that does not fit, or does not fit with its pad, is counted
in LOST and writes nothing; the bytes are there at once unless a home holds them or merges nothing into a damaged granule, and a
reader's WIDX stands before a record that a home holds. -/
def Claims.RingRecords : Prop :=
  ∀ (s : State) (r : RingName) (kind : Nat) (body : List Byte) (cycle : Nat), s.memsOk = true → kind < 256 →
    body.length < 2 ^ 20 →
    let g := ringOf s r
    let size := g.size.toNat
    let n := 16 + body.length
    let used := (g.widx - g.ridx).toNat
    let t := ringPut s r kind body cycle
    let at_ := g.widx.toNat % size
    let lands (a k : Nat) : Prop := homeHolds s (.ring r g.widx) a k = false ∧ badMerge s a k = false
    let holds (a : Nat) : Prop :=
      (∀ i, i < body.length → byteAt t (.edge (a + 16 + i)) = body[i]?.getD 0#8) ∧
      byteAt t (.edge a) = BitVec.ofNat 8 kind ∧
      ∀ i, i < 4 → byteAt t (.edge (a + 4 + i)) = BitVec.ofNat 8 (g.seq.toNat / 256 ^ i)
    (used + n ≤ size → at_ + n ≤ size →
      ringOf t r = { g with widx := g.widx + BitVec.ofNat 64 n, seq := g.seq + 1#32 } ∧
      (lands (g.base.toNat + at_) n → holds (g.base.toNat + at_) ∧
        ∀ b, (∀ i, i < n → b ≠ .edge (g.base.toNat + at_ + i)) → byteAt t b = byteAt s b) ∧
      (homeHolds s (.ring r g.widx) (g.base.toNat + at_) n = true → SameBytes s t ∧ widxOf t r = widxOf s r)) ∧
    (size < at_ + n → used + (size - at_) + n ≤ size →
      ringOf t r = { g with widx := g.widx + BitVec.ofNat 64 (size - at_ + n), seq := g.seq + 1#32 } ∧
      (lands (g.base.toNat + at_) 16 → lands g.base.toNat n → holds g.base.toNat ∧
        (∀ i, i < 16 → byteAt t (.edge (g.base.toNat + at_ + i)) = (recordHeader 0#32 0 ((size - at_) / 32) cycle)[i]?.getD 0#8) ∧
        ∀ b, (∀ i, i < n → b ≠ .edge (g.base.toNat + i)) → (∀ i, i < 16 → b ≠ .edge (g.base.toNat + at_ + i)) →
          byteAt t b = byteAt s b)) ∧
    (size < used + n ∨ size < at_ + n ∧ size < used + (size - at_) + n →
      SameBytes s t ∧ ringOf t r = { g with lost := satAdd g.lost 1, seq := g.seq + 1#32 })

/-- R337-R341: a write of T sends the pulse to every cluster whose die has the source on, unless one is in progress; a tile that
the pulse has reached latches its run state; a cluster whose tiles have latched writes its record and leaves the pulse; a marked
bundle's record is written once it has completed; a droop of 30 mV or more is counted, and recorded where its die asks for it, at
most once in 1 µs, by its physical quad, which no remapping moves (the units of the counts are log 109); the lifetime records are
committed as they stand. -/
def Claims.SamplesTaken : Prop :=
  ∀ s : State,
    (∀ core tick, s.pulse.todo = [] → ∃ t, exec (.pulse core tick) s = .next t ∧ t.pulse.tick = tick ∧
      (∀ c, c ∈ t.pulse.todo ↔ c < 256 ∧ (dieAt s (dieOfCluster c)).ring.on.getLsbD 0 = true) ∧
      (∀ u, (tileOf t u).latch = none) ∧ t.reply.answer = .done ∧ SameBytes s t) ∧
    (∀ core tick, s.pulse.todo ≠ [] → Becomes (.pulse core tick) s { s with reply := ⟨.discarded, []⟩ }) ∧
    (∀ u, let l : Latch :=
        ⟨s.pulse.tick, (runState s u).1, (runState s u).2.1, (runState s u).2.2, decide (s.pulse.tick.toNat < s.clk)⟩
      (clusterOf u ∈ s.pulse.todo → s.pulse.tick.toNat ≤ s.clk → (tileOf s u).latch = none →
        Becomes (.sampleLatch u) s (setTile s u { tileOf s u with latch := some l })) ∧
      (clusterOf u ∉ s.pulse.todo ∨ s.clk < s.pulse.tick.toNat ∨ (tileOf s u).latch ≠ none →
        Becomes (.sampleLatch u) s s)) ∧
    (∀ c, c ∈ s.pulse.todo → s.pulse.tick.toNat ≤ s.clk → ∃ t, exec (.snapshotRecord c) s = .next t ∧
      t.pulse.todo = s.pulse.todo.filter (· != c) ∧ (ringOf t (.die (dieOfCluster c))).seq = (ringOf s (.die (dieOfCluster c))).seq + 1#32) ∧
    (∀ u b, let tl := tileOf s u
      (sessionAt s (tagOf s u)).open_ = true → (sessionAt s (tagOf s u)).sper ≠ 0#5 → tl.gap = 0 → tl.mark = none →
      tl.run = .running → tl.halt = .none → tl.task.xpushed = false → nextBundle s u = some b →
      ∃ t m, exec (.taggedSampleMark u) s = .next t ∧ (tileOf t u).mark = some m ∧ m.pc = tl.task.pc ∧
        m.gtid = tl.task.gtid ∧ m.out = false ∧ 1 ≤ (tileOf t u).gap ∧
        (tileOf t u).gap < 2 ^ ((sessionAt s (tagOf s u)).sper.toNat + 1) ∧ SameBytes s t) ∧
    (∀ u m cs, let tl := tileOf s u
      tl.mark = some m → m.out = true → markWaits tl.task m = false → markTrapped s u m = false →
      ∃ t, exec (.taggedSampleRecord u cs) s = .next t ∧ (tileOf t u).mark = none ∧
        (ringOf t (.session (tagOf s u))).seq = (ringOf s (.session (tagOf s u))).seq + 1#32) ∧
    (∀ q depth dur, depth < 30 → Becomes (.droop q depth dur) s s) ∧
    (∀ q depth dur, 30 ≤ depth → (dieAt s (dieOfCluster (q / 64))).ring.on.getLsbD 1 = false →
      Becomes (.droop q depth dur) s (bumpLife s (.droop (wearOf s (pquadOf s q))) 1)) ∧
    (∀ q depth dur c, 30 ≤ depth → (quadAt s q).droopAt = some c → s.clk < c + 1250 →
      Becomes (.droop q depth dur) s (bumpLife s (.droop (wearOf s (pquadOf s q))) 1)) ∧
    (∀ q depth dur, 30 ≤ depth → (dieAt s (dieOfCluster (q / 64))).ring.on.getLsbD 1 = true →
      (∀ c, (quadAt s q).droopAt = some c → c + 1250 ≤ s.clk) →
      ∃ t, exec (.droop q depth dur) s = .next t ∧ (quadAt t q).droopAt = some s.clk ∧
        (ringOf t (.die (dieOfCluster (q / 64)))).seq = (ringOf s (.die (dieOfCluster (q / 64)))).seq + 1#32) ∧
    Becomes .lifetimeCommit s { s with lifeSaved := s.life }

/-- R330, R332, R334, R336, R331, R337, R338, R339, R340, R341: Sessions, rings and their records, pulses, samples and droops:
`Claims.SessionsAndRings`, `Claims.RingRecords`, `Claims.SamplesTaken`. -/
def Obligations.SessionsAndSamples : Prop :=
  Claims.SessionsAndRings ∧ Claims.RingRecords ∧ Claims.SamplesTaken

/-- R70, R205, R256, R278-R280, R289, R297, R298: a well-formed request begins the halt of the cohorts it names that can be taken,
and of all cohorts of a PLACED launch it meets; a tile that the request reaches stops issuing and has halted once its execute side
has run out, and its unfinished subscriptions start again in full; the last tile to halt gives its cohort its place in the order
of the areas, and frees the cluster's tokens where no other cohort waits for them. A cohort all of whose tiles have halted is
saved to its area of the table, which edge memory then holds, with every tile and quad memory as it stood, and its quads are free;
with no area left it stays in place. The model's choices: how an area is laid out where Table 21-4 is silent (log 29), a descriptor
with a reserved bit (log 60), the subscriptions that start again (log 113). -/
def Claims.CohortsPreempted : Prop :=
  (∀ (s : State) (w : BlockAccess), w.guest = false → w.width = 8 →
    (descriptorOk s w.val true = false →
      Becomes (.preempt w) s (refuseAccess s w.core (blockBase w.die + 0x40) .commandInvalid)) ∧
    (descriptorOk s w.val true = true → let d := memDWord s.edge w.val.toNat
      preemptSet s d ≠ [] →
      ∃ t r, exec (.preempt w) s = .next t ∧ r ∈ t.requests ∧ r.addr = w.val ∧ r.todo = preemptSet s d ∧ r.restore = false ∧
        r.used = 0 ∧ r.done = 0 ∧ SameBytes s t ∧
        (∀ key c, smFind key s.cohorts = some c → c.status = .resident ∨ c.status = .halted → smFind key t.cohorts =
          some (if key ∈ preemptSet s d then { c with status := .halting (decide (c.status = .halted)) } else c)) ∧
        (smSorted s.cohorts = true → ∀ key c, smFind key s.cohorts = some c →
          (key ∈ preemptSet s d ↔ mayTake s key c = true ∧ (namedBy s d c = true ∨
            cohortPlaced s c = true ∧ ∃ h ∈ s.cohorts, namedBy s d h.2 = true ∧ h.2.launch = c.launch))))) ∧
  (∀ (s : State) (t key : Nat) (c : Cohort) (j : Nat) (h : Bool), cohortOf s t = some (key, c, j) → c.status = .halting h →
    let tl := tileOf s t
    ((∀ b, tl.halt ≠ .preempt b) → tl.halt ≠ .migrate →
      Becomes (.preemptionHalt t) s (setTile s t { tl with halt := .preempt false })) ∧
    (tl.halt = .preempt false → tileStill s (cohortKeeps s c) t = true →
      Becomes (.preemptionHalt t) s (noteHalted (restartCopies (setTile s t { tl with halt := .preempt true }) t) key c)) ∧
    (tl.halt = .preempt false → tileStill s (cohortKeeps s c) t = false → Becomes (.preemptionHalt t) s s) ∧
    (tl.halt = .preempt true → Becomes (.preemptionHalt t) s (noteHalted s key c)) ∧
    (tl.halt = .migrate → Becomes (.preemptionHalt t) s s)) ∧
  (∀ (s : State) (key : Nat) (c : Cohort),
    (allHalted s c = false → noteHalted s key c = s) ∧
    (allHalted s c = true → let t := noteHalted s key c
      t.tiles = s.tiles ∧ t.requests = s.requests.map (fun r =>
        if r.restore = false ∧ key ∈ r.todo ∧ key ∉ r.order then { r with order := r.order ++ [key] } else r) ∧
      (othersWait s c = true → t.clusters = s.clusters) ∧
      (othersWait s c = false → (clusterAt t c.cluster).tokens = 0 ∧ (clusterAt t c.cluster).claim = none ∧
        (dieAt t (dieOfCluster c.cluster)).tokens =
          (dieAt s (dieOfCluster c.cluster)).tokens + (clusterAt s c.cluster).tokens))) ∧
  (∀ (s : State) (t : Nat) (key : Nat) (c : Cohort) (j : Nat), cohortOf s t = some (key, c, j) → (∀ h, c.status ≠ .halting h) →
    Becomes (.preemptionHalt t) s s) ∧
  ∀ (s : State) (key : Nat) (c : Cohort) (held : Bool) (r : Request), smFind key s.cohorts = some c → c.status = .halting held →
    let still := allHalted s c = true ∧ ∀ t ∈ cohortTiles c, tileStill s (cohortKeeps s c) t = true
    (¬ still → Becomes (.cohortSave key) s s) ∧
    (still → s.requests.find? (fun r => !r.restore && r.order.contains key) = some r →
      let area := areaFor s r c (r.order.idxOf key)
      (∀ addr l, area = some addr → regionHeld s addr.toNat (areaSize c) = some l → Becomes (.cohortSave key) s (askBack s l)) ∧
      (∀ addr, area = some addr → regionHeld s addr.toNat (areaSize c) = none → ∃ t a, exec (.cohortSave key) s = .next t ∧
        smFind addr.toNat t.areas = some a ∧ a.key = key ∧ a.cohort = c ∧
        (∀ u ∈ cohortTiles c, smFind u a.tiles = some (tileOf s u) ∧ (tileOf t u).run = .idle ∧ (tileOf t u).sp = []) ∧
        (∀ q ∈ cohortQuads c, smFind q a.ql = some (quadAt s q).ql ∧ (quadAt t q).team = none) ∧
        smFind key t.cohorts = some { c with status := .saved addr held } ∧
        (s.memsOk = true → (∃ k ∈ r.todo, k ≠ key) → (∀ x ∈ areaImage s a, x.1 < areaSize c) →
          ∀ i, i < areaSize c → byteAt t (.edge (addr.toNat + i)) = memGet (areaImage s a) i)) ∧
      (area = none → ∃ t, exec (.cohortSave key) s = .next t ∧ t.areas = s.areas ∧ t.tiles = s.tiles ∧
        smFind key t.cohorts = some { c with status := .stranded held }))

/-- R29, R30, R122, R279, R280, R289, R298: a restore that system software asks for is recorded for each cohort whose area the
table lists; a saved cohort that has been asked for returns to its own quads once they are free, with its tiles and quad memories
as its area holds them but for an empty fetch buffer and what belongs to the logical tile, at its launch's fidelity; the cohorts
of a PLACED launch all at once or not at all, and none before its loads of host memory have landed in its area. The model's
choices: which bytes of an area a restore reads (log 29), a descriptor with a reserved bit (log 60), the subscriptions that start
again (log 113). -/
def Claims.CohortsRestored : Prop :=
  (∀ (s : State) (w : BlockAccess), w.guest = false → w.width = 8 →
    (descriptorOk s w.val false = false →
      Becomes (.restore w) s (refuseAccess s w.core (blockBase w.die + 0x48) .commandInvalid)) ∧
    (descriptorOk s w.val false = true → ∀ a key c, s.areas = [(a, c)] → c.key = key → ∀ co, smFind key s.cohorts = some co →
      tableNames s.edge (requestAt s w.val true []).table.toNat (requestAt s w.val true []).count a = true →
      (memDWord s.edge a).toNat = headerWord c.cohort →
      ∃ t, exec (.restore w) s = .next t ∧ smFind key t.cohorts = some { co with restoreAsked := some w.val } ∧
        SameBytes s t)) ∧
  (∀ (s : State) (key : Nat) (c : Cohort) (addr : DWord) (held : Bool) (a : Area), smFind key s.cohorts = some c →
    c.status = .saved addr held → cohortPlaced s c = false →
    let b := areaNow s addr.toNat a
    (c.restoreAsked = none → Becomes (.cohortRestore key) s s) ∧
    (quadsFree s c = false ∨ hostPending s addr.toNat = true → Becomes (.cohortRestore key) s s) ∧
    (c.restoreAsked.isSome = true → quadsFree s c = true → hostPending s addr.toNat = false → smFind addr.toNat s.areas = some a → a.key = key →
      a.cohort = { c with status := a.cohort.status, restoreAsked := a.cohort.restoreAsked, waiting := a.cohort.waiting } →
      smSorted s.areas = true → c.waiting = [] → s.frames = [] → (b.tiles.map (·.1)).Nodup → (cohortQuads c).Nodup →
      (cohortTiles c).Nodup → s.damage = [] →
      ∃ t, exec (.cohortRestore key) s = .next t ∧
        (∀ p u, (p, u) ∈ (upFrom 0 (cohortTasks c)).zip (cohortTiles c) → ∀ x, x < 0x30000 →
          byteAt t (.sp u x) = byteAt s (.edge (addr.toNat + 0x1000 + p * 0x80000 + x))) ∧
        (∀ u tl, (u, tl) ∈ b.tiles → (tileOf t u).sp = tl.sp ∧ (tileOf t u).ver = tl.ver ∧
          (tileOf t u).task = { tl.task with xbusy := false } ∧ (tileOf t u).run = tl.run ∧ (tileOf t u).lines = [] ∧
          (tileOf t u).records = (tileOf s u).records ∧ (tileOf t u).counters = (tileOf s u).counters ∧
          (tileOf t u).halt = if held = true then .held false else .none) ∧
        (∀ q ∈ cohortQuads c, (quadAt t q).ql = smGet [] q b.ql ∧ (∃ j, (quadAt t q).team = some (key, j)) ∧
          (quadAt t q).fid = fidOf s c.launch) ∧
        smFind addr.toNat t.areas = none ∧
        ∃ co, smFind key t.cohorts = some co ∧ co.status = if held = true then .halted else .resident)) ∧
  ∀ (s : State) (key : Nat) (c : Cohort), smFind key s.cohorts = some c → cohortPlaced s c = true →
    let fellows := s.cohorts.filter fun e => e.2.launch == c.launch
    ((∃ e ∈ fellows, mayRestore s e.2 = false) → Becomes (.cohortRestore key) s s) ∧
    ((∀ e ∈ fellows, mayRestore s e.2 = true) → smSorted s.cohorts = true → smSorted s.areas = true → s.frames = [] → s.damage = [] →
      (∀ e ∈ fellows, e.2.waiting = [] ∧ ∃ addr held a, e.2.status = .saved addr held ∧ smFind addr.toNat s.areas = some a ∧
        a.key = e.1) →
      ∃ t, exec (.cohortRestore key) s = .next t ∧
        ∀ e ∈ fellows, ∀ addr held, e.2.status = .saved addr held → smFind addr.toNat t.areas = none ∧
          ∃ co, smFind e.1 t.cohorts = some co ∧ co.status = if held = true then .halted else .resident)

/-- R70, R205, R256, R278, R279, R280, R289, R297, R298, R29, R30, R122: A cohort is halted, saved whole, and restored as it
stood: `Claims.CohortsPreempted`, `Claims.CohortsRestored`. -/
def Obligations.CohortsPreempted : Prop :=
  Claims.CohortsPreempted ∧ Claims.CohortsRestored

/-- R20, R21, R48, R179, R235, R305, R329: the team of a quad above 95 °C halts to move to the coolest spare that qualifies, and
is held at the lowest point where none does, a halted team among them; what other quads send its tiles meanwhile waits. Once both
sides of its tiles have stopped, their accesses and their commands at the quad unit done, its remap entry names the spare and the
tiles go on, or stand still under the halt of their cohort, with empty fetch buffers. Which quads are spares, and that a team
migrates in halted cohorts too, are the model's reading (log rows 102 and 108). -/
def Claims.TeamsMigrate : Prop :=
  (∀ (s : State) (q key j : Nat) (c : Cohort) (t : Int), hottest (pquadAt s (pquadOf s q)) = some t →
    (quadAt s q).team = some (key, j) → smFind key s.cohorts = some c → mayMigrate s c = true →
    (∀ i, i < 4 → (tileOf s (tileAt q i)).halt = .none ∨ (tileOf s (tileAt q i)).halt = .held false ∨
      (tileOf s (tileAt q i)).halt = .preempt true) →
    (t ≤ 95 → Becomes (.thermalMigration q) s s) ∧
    (95 < t → ∀ spare, coolSpare s (q / 64) = some spare → ∃ t', exec (.thermalMigration q) s = .next t' ∧
      (quadAt t' q).target = some spare ∧ (∀ i, i < 4 → (tileOf t' (tileAt q i)).halt = .migrate) ∧ SameBytes s t') ∧
    (95 < t → coolSpare s (q / 64) = none → ∃ t', exec (.thermalMigration q) s = .next t' ∧
      (pquadAt t' (pquadOf s q)).limit ≠ none ∧ wantedPoint t' q = 6 ∧ SameBytes s t')) ∧
  (∀ (s : State) (cl : Nat), let reads (p : Nat) : Option Int := hottest (pquadAt s (cl * 72 + p))
    (∀ p, coolSpare s cl = some p → p ∈ sparesOf s cl ∧ ∃ t, reads p = some t ∧ t ≤ 85 ∧
      ∀ x ∈ sparesOf s cl, ∀ tx, reads x = some tx → t ≤ tx) ∧
    (coolSpare s cl = none → ∀ x ∈ sparesOf s cl, ∀ tx, reads x = some tx → 85 < tx)) ∧
  (∀ (s : State) (t : Nat), (tileOf s t).halt = .migrate →
    (∀ m : Msg, unitNamed m.dst = (0, t) → 65536 ≤ m.src ∨ quadOf m.src ≠ quadOf t → msgMay s m = false) ∧
    ∀ a : Access, chan5 a = true → prTile a.ea = t → quadOf a.tile ≠ quadOf t → mayPerform s a = false) ∧
  ∀ (s : State) (q p key : Nat) (c : Cohort), (quadAt s q).target = some p → cohortOfQuad s q = some (key, c) →
    let ready (i : Nat) : Bool := readyToMove s (cohortKeeps s c) (tileAt q i)
    (c.waiting = [] → s.frames = [] → (∀ i, i < 4 → ready i = true) →
      ∃ t, exec (.migrationComplete q) s = .next t ∧ (quadAt t q).pquad = p ∧ (quadAt t q).mig = true ∧
        (quadAt t q).target = none ∧ (quadAt t q).mcount = min 16383 ((quadAt s q).mcount + 1) ∧
        (∀ i, i < 4 → (tileOf t (tileAt q i)).halt = haltOf c ∧ (tileOf t (tileAt q i)).lines = [] ∧
          (tileOf t (tileAt q i)).task = (tileOf s (tileAt q i)).task) ∧ SameBytes s t) ∧
    ((∃ i, i < 4 ∧ ready i = false) → Becomes (.migrationComplete q) s s)

/-- R328, R329: one sample of a quad's sensors. A reading outside its range, the 64th equal one, or the third that differs by more
than 12 °C from the median around it quarantines a sensor for good; two bad sensors hold the quad at the lowest point and
interrupt Gwemon; a good reading above 105 °C holds the quad, which is released 10 °C below the limit that held it, the lower where
both did. Which quads are adjacent, and which of their sensors the median takes, is the model's reading (log 106). -/
def Claims.SensorsSampled : Prop :=
  (∀ (x : Sensor) (v lo hi : Int) (med : Option Int), let y := sampleSensor x v lo hi med
    y.last = v ∧ (x.bad = true → y.bad = true) ∧ (v < lo ∨ hi < v → y.bad = true) ∧
    (x.same = 63 → x.last = v → y.bad = true) ∧
    (∀ m, med = some m → 24 < (2 * v - m).natAbs → x.differ = 2 → y.bad = true) ∧
    (x.bad = false → lo ≤ v → v ≤ hi → x.last ≠ v → med = none → y = ⟨v, 1, 0, false⟩)) ∧
  (∀ (s : State) (p : Nat) (r : SensorReading),
    let old := pquadAt s p
    let med := median2 ((around s p).flatMap fun x => allThermal (pquadAt s x))
    let t0 := sampleSensor old.t0 r.t0 (-20) 150 med
    let t1 := sampleSensor old.t1 r.t1 (-20) 150 med
    let amp := sampleSensor old.amp r.amps 0 40 none
    let few := ([t0, t1, amp].filter (·.bad)).length
    (∀ t, hottest { old with t0 := t0, t1 := t1, amp := amp } = some t → t ≤ 115) →
    ∃ s', exec (.sensorSample p r) s = .next s' ∧
      (pquadAt s' p).t0 = t0 ∧ (pquadAt s' p).t1 = t1 ∧ (pquadAt s' p).amp = amp ∧
      (pquadAt s' p).fallback = (old.fallback || decide (2 ≤ few)) ∧
      (2 ≤ few → old.fallback = false → s'.irqs = s.irqs ++ [.thermal (dieOfCluster (p / 72))]) ∧
      (few < 2 ∨ old.fallback = true → s'.irqs = s.irqs) ∧
      (∀ t, hottest { old with t0 := t0, t1 := t1, amp := amp } = some t → 105 < t →
        (pquadAt s' p).limit = some (min 105 (old.limit.getD 105))) ∧
      (∀ t l, hottest { old with t0 := t0, t1 := t1, amp := amp } = some t → t ≤ 105 → old.limit = some l →
        (pquadAt s' p).limit = if t ≤ l - 10 then none else some l) ∧ SameBytes s s') ∧
  ∀ (s : State) (p : Nat) (r : SensorReading) (t : Int),
    let old := pquadAt s p
    let med := median2 ((around s p).flatMap fun x => allThermal (pquadAt s x))
    hottest { old with
      t0 := sampleSensor old.t0 r.t0 (-20) 150 med, t1 := sampleSensor old.t1 r.t1 (-20) 150 med
      amp := sampleSensor old.amp r.amps 0 40 none } = some t → 115 < t →
    ∃ s', exec (.sensorSample p r) s = .next s' ∧ s'.tiles = [] ∧ s'.mgmt.step = 0 ∧ s'.lifeSaved = s'.life

/-- R324, R329, R341: an input below 10.5 V resets the module, as does a reading above 115 °C: nothing that ran is left, host
memory and the firmware slots stay, and only a reading's orderly reset keeps lifetime counts not yet committed. What such a reset
keeps is the model's reading (log 72). -/
def Claims.ModuleResets : Prop :=
  ∀ s : State, s.mgmt.undervolt = true →
    (∀ mv, mv < 10500 → ∃ t, exec (.undervoltageReset mv) s = .next t ∧ t.tiles = [] ∧ t.launches = [] ∧ t.cohorts = [] ∧
      t.edge = [] ∧ t.mgmt.step = 0 ∧ t.mgmt.running = none ∧ t.mgmt.slotA = s.mgmt.slotA ∧ t.mgmt.slotB = s.mgmt.slotB ∧
      t.mgmt.keyIndex = s.mgmt.keyIndex ∧ t.life = s.lifeSaved ∧ t.lifeSaved = s.lifeSaved ∧
      ∀ p a, byteAt t (.host p a) = byteAt s (.host p a)) ∧
    ∀ mv, 10500 ≤ mv → Becomes (.undervoltageReset mv) s s

/-- R20, R21, R48, R179, R235, R305, R329, R328, R324, R341: Sensors, migrations of hot teams, and resets of the module:
`Claims.TeamsMigrate`, `Claims.SensorsSampled`, `Claims.ModuleResets`. -/
def Obligations.TeamsMigrate : Prop :=
  Claims.TeamsMigrate ∧ Claims.SensorsSampled ∧ Claims.ModuleResets

/-- R324, R326, R328, R329: operating points. A change completes at the point asked for; a quad under a thermal limit, a fallen-back
sensor set or an input below 11.0 V is wanted at the lowest point; a cohort's virtual state asks for the point that its tenant
maps it to; the power cap withdraws boost grants first, and with none left lowers the quads of the highest-drawing cluster that can
still fall by one point at each sample. -/
def Claims.OperatingPoints : Prop :=
  ∀ s : State,
    (∀ q p, (quadAt s q).changing = some p → Becomes (.operatingPointChange q) s
      (setQuad s q { quadAt s q with point := p, changing := none })) ∧
    (∀ q, (quadAt s q).changing = none → ∃ t, exec (.operatingPointChange q) s = .next t ∧
      (quadAt t q).changing = if wantedPoint s q = (quadAt s q).point then none else some (wantedPoint s q)) ∧
    (∀ q, ((pquadAt s (pquadOf s q)).fallback = true ∨ (pquadAt s (pquadOf s q)).limit ≠ none ∨ s.mgmt.undervolt = true) →
      wantedPoint s q = 6) ∧
    (∀ q, wantedPoint s q ≤ 6) ∧
    (∀ key c vs, smFind key s.cohorts = some c → vs < 8 → ∃ t, exec (.virtualStateSet (.set key vs)) s = .next t ∧
      smFind key t.cohorts = some { c with vstate := vs } ∧ SameBytes s t) ∧
    (∀ tenant x vs point, smFind tenant s.tenants = some x → vs < 8 → point ≤ 6 →
      ∃ t x', exec (.virtualStateSet (.remap tenant vs point)) s = .next t ∧ smFind tenant t.tenants = some x' ∧
        ∀ i, i < 8 → mappedPoint x' i = if i = vs then point else mappedPoint x i) ∧
    (∀ mv, mv < 11000 → ∃ t, exec (.inputUndervoltage mv) s = .next t ∧ t.mgmt.undervolt = true ∧
      (∀ q ∈ s.quads.map (·.1), (quadAt t q).point ≠ 6 → (quadAt t q).changing = some 6) ∧ SameBytes s t) ∧
    (∀ mv, 11000 ≤ mv → Becomes (.inputUndervoltage mv) s s) ∧
    (∀ mv, 11000 < mv → ∃ t, exec (.inputRecovery mv) s = .next t ∧ t.mgmt.undervolt = false ∧ SameBytes s t) ∧
    (∀ mv, mv ≤ 11000 → Becomes (.inputRecovery mv) s s) ∧
    (∀ w, (w :: s.mgmt.power).length < 100 → ∃ t, exec (.powerSample w) s = .next t ∧ t = { s with
      mgmt := { s.mgmt with power := w :: s.mgmt.power } }) ∧
    (∀ w, 100 ≤ (w :: s.mgmt.power).length → ((w :: s.mgmt.power).take 100).foldl (· + ·) 0 ≤ 1850000 →
      Becomes (.powerSample w) s { s with mgmt := { s.mgmt with power := (w :: s.mgmt.power).take 100 } }) ∧
    (∀ w, 100 ≤ (w :: s.mgmt.power).length → 1850000 < ((w :: s.mgmt.power).take 100).foldl (· + ·) 0 →
      ∀ c, c < 256 → (clusterAt s c).grant = true →
      ∃ t, exec (.powerSample w) s = .next t ∧ (clusterAt t c).falling = true ∧
        (clusterAt t c).permits = (clusterAt s c).permits ∧ SameBytes s t) ∧
    (∀ w, 100 ≤ (w :: s.mgmt.power).length → 1850000 < ((w :: s.mgmt.power).take 100).foldl (· + ·) 0 →
      (∀ c, c < 256 → (clusterAt s c).grant = false) → ∀ c, hungriest s = some c →
      ∃ t, exec (.powerSample w) s = .next t ∧ SameBytes s t ∧ ∀ q, (quadAt t q).lowered =
        if 64 * c ≤ q ∧ q < 64 * c + 64 ∧ (quadAt s q).valid = true then (quadAt s q).lowered + 1 else (quadAt s q).lowered) ∧
    (∀ c, hungriest s = some c → let canFall (x : Nat) : Prop := ∃ q, 64 * x ≤ q ∧ q < 64 * x + 64 ∧ (quadAt s q).point < 6
      c < 256 ∧ canFall c ∧ ∀ x, x < 256 → canFall x → clusterAmps s x ≤ clusterAmps s c)

/-- R327: boost. A cluster in which a quad requests P0 or P1 files its claim, granted while fewer than two clusters of its die
hold one; an interval above P2 takes a permit, the last of which starts the fall; the fall releases the grant; 40 µs at or
below P2 refill one permit, up to 64. -/
def Claims.BoostPermits : Prop :=
  ∀ (s : State) (c : Nat), let cl := clusterAt s c
    (wantsBoost s c = true → cl.boostClaim = none → cl.permits ≠ 0 →
      c ∈ clustersOfDie (dieOfCluster c) → cl.grant = false →
      let held := ((clustersOfDie (dieOfCluster c)).filter fun x => (clusterAt s x).grant).length
      (held < 2 → (∀ x ∈ clustersOfDie (dieOfCluster c), x ≠ c →
          (clusterAt s x).boostClaim = none ∨ (clusterAt s x).grant = true) →
        ∃ t, exec (.boostClaim c) s = .next t ∧ (clusterAt t c).boostClaim = some s.clk ∧ (clusterAt t c).grant = true ∧
          SameBytes s t) ∧
      (2 ≤ held → Becomes (.boostClaim c) s (setCluster s c { cl with boostClaim := some s.clk }))) ∧
    (wantsBoost s c = true → cl.boostClaim.isSome = true ∨ cl.permits = 0 → Becomes (.boostClaim c) s s) ∧
    (wantsBoost s c = false → cl.grant = true ∨ cl.boostClaim.isSome = true →
      Becomes (.boostClaim c) s (releaseBoost s c)) ∧
    (aboveNominal s c = true → ∃ t, exec (.boostPermitInterval c) s = .next t ∧ (clusterAt t c).permits = cl.permits - 1 ∧
      (cl.permits ≤ 1 → (clusterAt t c).falling = true) ∧ (1 < cl.permits → (clusterAt t c).falling = cl.falling) ∧
      SameBytes s t) ∧
    (aboveNominal s c = false → Becomes (.boostPermitInterval c) s s ∧
      Becomes (.boostPermitRefill c) s (setCluster s c { cl with permits := min 64 (cl.permits + 1) })) ∧
    (aboveNominal s c = true → Becomes (.boostPermitRefill c) s s) ∧
    (cl.falling = true → Becomes (.boostFall c) s (releaseBoost s c)) ∧
    (cl.falling = false → Becomes (.boostFall c) s s) ∧
    ((∀ x ∈ clustersOfDie (dieOfCluster c), x ≠ c → (clusterAt s x).boostClaim = none) →
      let t := releaseBoost s c
      (clusterAt t c).grant = false ∧ (clusterAt t c).boostClaim = none ∧ (clusterAt t c).falling = false ∧
        (clusterAt t c).permits = cl.permits ∧ SameBytes s t)

/-- R324, R326, R328, R329, R327: Operating points, the power cap and boost permits: `Claims.OperatingPoints`,
`Claims.BoostPermits`. -/
def Obligations.OperatingPoints : Prop :=
  Claims.OperatingPoints ∧ Claims.BoostPermits

/-- R260, R309, R310: a whole, aligned 128-byte write to a slot of an open page whose stream holds fewer than 256 cards joins the
queue of the stream of its port's page; with the stream full or the page suspended it is answered with retry; any other write is
unsupported; a core's outcome stands in its submission status register, which a read returns and clears. -/
def Claims.CardsSubmitted : Prop :=
  ∀ (s : State) (w : SlotWrite),
    let slot := w.off / 128
    let k := streamKey (slotPage w) slot
    let st := streamAt s k
    let takes : State := setStream s k { st with queue := st.queue ++ [BitVec.ofNat 1024 (leNat w.bytes)] }
    let told (core : Nat) (x : State) (code : Byte) : State := setCore x core { coreAt x core with subValid := true, subStatus := code }
    let good := w.whole = true ∧ w.bytes.length = 128 ∧ w.off % 128 = 0 ∧ w.off < 4096
    (good → pageOpen s (slotPage w) = true → st.queue.length < 256 →
      Becomes (.cardSubmission w) s { takes with reply := ⟨.done, []⟩ } ∧
      ∀ core, Becomes (.plazaSubmission core w) s (told core takes 0#8)) ∧
    (good → pageOpen s (slotPage w) = false ∨ 256 ≤ st.queue.length →
      Becomes (.cardSubmission w) s { s with reply := ⟨.retry, []⟩ } ∧
      ∀ core, Becomes (.plazaSubmission core w) s (told core s 1#8)) ∧
    (¬ good → Becomes (.cardSubmission w) s { s with reply := ⟨.unsupported, []⟩ } ∧
      ∀ core, Becomes (.plazaSubmission core w) s (told core s 2#8)) ∧
    (w.page < 16384 → ∀ v : SlotWrite, v.page < 16384 → v.port ≠ w.port → slotPage v ≠ slotPage w) ∧
    ∀ core, let c := coreAt s core
      Becomes (.submissionStatus core) s { setCore s core { c with subValid := false, subStatus := 0#8 } with
        reply := ⟨.done, leBytes ((if c.subValid = true then 2 ^ 63 else 0) + c.subStatus.toNat) 8⟩ }

/-- R31, R256, R261, R266, R267: the next card of a stream is given a launch number that no launch holds and examined: the first
check of Table 19-3 that fails refuses it with its status, and it then dispatches nothing; otherwise the launch stands admitted
with the fidelity applied. A feature bit from 12 on is refused. A card waits while its home holds a write that came before it
through its port. -/
def Claims.CardsAdmitted : Prop :=
  ∀ (s : State) (page slot : Nat) (card : BitVec 1024) (rest : List (BitVec 1024)) (p : Page),
    (streamAt s (streamKey page slot)).queue = card :: rest → smFind page s.pages = some p → freeNumber s ≠ none →
    (behind s (.port (page / 16384)) = true → Becomes (.admission page slot) s s) ∧
    (behind s (.port (page / 16384)) = false → let st := streamAt s (streamKey page slot)
      ∃ t n l, exec (.admission page slot) s = .next t ∧ smFind n s.launches = none ∧ smFind n t.launches = some l ∧
      (streamAt t (streamKey page slot)).queue = rest ∧ (streamAt t (streamKey page slot)).open_ = st.open_ ++ [st.seq] ∧
      l.card = card ∧ l.seq = st.seq ∧ l.tag = p.tag ∧ l.start = s.clk ∧ l.retired = 0 ∧ SameBytes s t ∧
      (∀ code reason, refusal s p card = some (code, reason) → l.failed = some code ∧ l.ended = true ∧ l.tickets = [] ∧
        l.reason = BitVec.ofNat 8 reason) ∧
      (refusal s p card = none → l.failed = none ∧ l.ended = false ∧ l.fid = appliedFid s p.tag card ∧
        l.info = if l.fid = cardFid card then 0#8 else 0x24#8) ∧
      (∀ f, invalidField s p.tag card = some f → l.failed = some .cardInvalid ∧ l.reason = BitVec.ofNat 8 f) ∧
      (∀ b, invalidField s p.tag card = none → ¬ (40 ≤ cardPrio card ∧ p.system = false) → 12 ≤ b → b < 128 →
        card.getLsbD (64 + b) = true → l.failed = some .featureMissing))

/-- R260, R309, R310, R31, R256, R261, R266, R267: How a card is submitted, examined and admitted or refused:
`Claims.CardsSubmitted`, `Claims.CardsAdmitted`. -/
def Obligations.CardsAdmitted : Prop :=
  Claims.CardsSubmitted ∧ Claims.CardsAdmitted

/-- R27, R268-R273: what a cluster's free quads go to: the launch that is chosen there, once no lower cluster of the die (of the
panel, for BATCH) has been offered to the same launch. A GRID ticket that is eligible is made resident on the lowest free quads,
one that is not is parked; a BATCH launch takes the lowest free quad, and the die's round robin goes on; a PLACED launch reserves
quads, and its cohorts become resident together; an idle cluster of an exhausted die takes the last ticket of the die with most
left, in replica mode but for one whose other run is there (the model's choice, log 22), where its launch is the one whose turn it
is; a BATCH tile without work, the lowest first, claims a chunk of half its fair share of what remains, or leaves. -/
def Claims.CohortsDispatched : Prop :=
  (∀ (s : State) (c : Nat), chooseLaunch s c = none → Becomes (.cohortDispatch c) s s) ∧
  (∀ (s : State) (c ln x : Nat) (l l' : Launch), chooseLaunch s c = some (ln, l) → x < c → chooseLaunch s x = some (ln, l') →
    (cardKind l.card = 2 ∧ x < 256) ∨ (cardKind l.card = 1 ∧ x ∈ clustersOfDie (dieOfCluster c)) → Becomes (.cohortDispatch c) s s) ∧
  (∀ (s : State) (c ln : Nat) (l : Launch), chooseLaunch s c = some (ln, l) → cardKind l.card = 1 →
    (∀ x ∈ clustersOfDie (dieOfCluster c), x < c → (chooseLaunch s x).map (·.1) ≠ some ln) → wokenTicket l c = none →
    ∀ tk b, runWithTickets l (dieOfCluster c) = some b → smFind (2 * dieOfCluster c + if b = true then 1 else 0) l.tickets = some tk →
    let l1 := { l with tickets := smSet (2 * dieOfCluster c + if b = true then 1 else 0) { tk with next := tk.next + 1 } l.tickets }
    (eligible l1 tk.next b = false → Becomes (.cohortDispatch c) s
      (setLaunch s ln { l1 with parked := l.parked ++ [⟨c, tk.next, b⟩] })) ∧
    (eligible l1 tk.next b = true → Becomes (.cohortDispatch c) s (served (makeResident (setLaunch s ln l1) ln l1 tk.next b c
      ((freeQuads s c (levelOf l1)).take (cardT l.card))) c ln))) ∧
  (∀ (s : State) (c ln : Nat) (l : Launch) (q : Nat) (qs : List Nat), chooseLaunch s c = some (ln, l) → cardKind l.card = 2 →
    (∀ x < c, x < 256 → (chooseLaunch s x).map (·.1) ≠ some ln) → freeQuads s c (levelOf l) = q :: qs →
    let d := dieAt s (dieOfCluster c)
    Becomes (.cohortDispatch c) s (setLaunch
      (setDie s (dieOfCluster c) { d with rr := smSet (levelOf l) (streamKey l.page l.slot + 1) d.rr })
      ln { l with batchQuads := l.batchQuads ++ [q] })) ∧
  (∀ (s : State) (c ln : Nat) (l : Launch), chooseLaunch s c = some (ln, l) → cardKind l.card = 3 →
    let more := ((freeQuads s c (levelOf l)).filter fun q => !l.placed.contains q).take (placedNeeds s ln l c - reservedIn s l c)
    let l1 := { l with placed := l.placed ++ more }
    (placedReady s ln l1 = false → Becomes (.cohortDispatch c) s (setLaunch s ln l1)) ∧
    (placedReady s ln l1 = true → ∀ (k : Nat) (runB : Bool) (cl : Nat), placedGroup s ln l1 = [(k, runB, cl)] →
      let mine := (sortBy (fun a b : Nat => a ≤ b) ((reservedQuads s l1).filter fun q => q / 64 == cl)).take (cardT l.card)
      Becomes (.cohortDispatch c) s
        (served (makeResident (setLaunch s ln { l1 with placed := [] }) ln l1 k runB cl mine) c ln))) ∧
  (∀ (s : State) (c ln k : Nat) (l : Launch) (tk : Tickets), chooseLaunch s c = some (ln, l) → cardKind l.card = 1 →
    wokenTicket l c = none → cardNoDieSteal l.card = false → runWithTickets l (dieOfCluster c) = none → richestDie l = some (k, tk) →
    let b := k % 2 == 1
    Becomes (.ticketSteal c ln) s (useTicket s c ln { l with
      tickets := smSet k { tk with last := tk.last - 1 } l.tickets
      moved := if cardReplica l.card = true then (tk.last - 1, b, dieOfCluster c) :: l.moved else l.moved } (tk.last - 1) b)) ∧
  (∀ (s : State) (c ln k : Nat) (l : Launch) (tk : Tickets), cardKind l.card = 1 → cardReplica l.card = true →
    wokenTicket l c = none → runWithTickets l (dieOfCluster c) = none → richestDie l = some (k, tk) →
    dieOfTicket s l (tk.last - 1) (!(k % 2 == 1)) = some (dieOfCluster c) →
    canUse s c ln l = false ∧ ((∀ e ∈ s.launches, e.1 = ln → e.2 = l) → Becomes (.ticketSteal c ln) s s)) ∧
  (∀ (s : State) (c ln : Nat), (chooseLaunch s c).map (·.1) ≠ some ln → Becomes (.ticketSteal c ln) s s) ∧
  (∀ (s : State) (c ln : Nat) (l : Launch), chooseLaunch s c = some (ln, l) → cardNoDieSteal l.card = true →
    Becomes (.ticketSteal c ln) s s) ∧
  (∀ (s : State) (c ln : Nat) (l : Launch), chooseLaunch s c = some (ln, l) → (ln, l) ∈ s.launches ∧ mayDispatch s l = true ∧
    tagOfCluster s c = l.tag ∧ ∀ e ∈ s.launches, canUse s c e.1 e.2 = true → levelOf e.2 ≤ levelOf l) ∧
  (∀ (s : State) (c ln k : Nat) (l : Launch) (tk : Tickets), mayDispatch s l = true → tagOfCluster s c = l.tag → cardKind l.card = 1 →
    cardT l.card ≤ (freeQuads s c (levelOf l)).length → mayDraw l c = true → cardNoDieSteal l.card = false →
    cardReplica l.card = false → richestDie l = some (k, tk) → canUse s c ln l = true) ∧
  (∀ (s : State) (t ln : Nat) (l : Launch), batchOf s (quadOf t) = some (ln, l) → qidx t = 0 →
    mayClaim s (quadOf t) = true → (∀ q ∈ l.batchQuads, q < quadOf t → mayClaim s q = false) →
    let b := runOfQuad s l (quadOf t)
    let first := batchNextOf l b
    let remaining := cardRecords l.card - first
    let p := batchP s l b
    let chunk := max 1 ((remaining + 2 * p - 1) / (2 * p))
    (remaining = 0 ∨ l.ended = true → Becomes (.batchChunkClaim t) s (leaveBatch s t ln l)) ∧
    (remaining ≠ 0 → l.ended = false →
      let l1 := if b = true then { l with batchNextB := first + chunk } else { l with batchNext := first + chunk }
      Becomes (.batchChunkClaim t) s (startRecord (setLaunch
        (setTile s t { tileOf s t with chunk := some (first, first + chunk) }) ln l1) t ln l1))) ∧
  (∀ (s : State) (t ln : Nat) (l : Launch) (q : Nat), batchOf s (quadOf t) = some (ln, l) → q ∈ l.batchQuads → q < quadOf t →
    mayClaim s q = true → Becomes (.batchChunkClaim t) s s) ∧
  ∀ (l : Launch) (k : Nat) (tk : Tickets), richestDie l = some (k, tk) →
    (k, tk) ∈ l.tickets ∧ tk.next < tk.last ∧ ∀ e ∈ l.tickets, e.2.last - e.2.next ≤ tk.last - tk.next

/-- R26-R28, R36, R64, R122, R240, R258, R274, Table 1-8: what making a cohort resident leaves: its team on each quad, whose memory
is zero and whose fidelity is the launch's, and on each tile a blank context with the task of its serial at the card's entry. -/
def Claims.CohortsStart : Prop :=
  ∀ (s : State) (ln : Nat) (l : Launch) (index : Nat) (runB : Bool) (cluster : Nat) (quads : List Nat),
    cluster < 256 → (∀ q ∈ quads, 64 * cluster ≤ q ∧ q < 64 * cluster + 64) → quads.Nodup → cardS l.card ≤ 4 →
    let key := cohortKey ln index runB
    let t := makeResident s ln l index runB cluster quads
    let size := cardS l.card
    (∃ c, smFind key t.cohorts = some c ∧ c.launch = ln ∧ c.index = index ∧ c.size = size ∧ c.status = .resident ∧
      c.serial = quads.length * size ∧ c.live = quads.length * size) ∧
    (∀ j q, quads[j]? = some q → (quadAt t q).team = some (key, j) ∧ (quadAt t q).ql = [] ∧ (quadAt t q).fid = l.fid) ∧
    ∀ j q i, quads[j]? = some q → i < size →
      let tl := tileOf t (tileAt q i)
      let serial := j * size + i
      tl.run = .running ∧ tl.sp = [] ∧ tl.ver = [] ∧ tl.guards = guardsFor s l ∧ tl.det = 0#32 ∧ tl.rep = 0#32 ∧
        tl.drop = 0#32 ∧ tl.vshare = 1#4 ∧ tl.nbar = Vector.replicate 32 NBar.zero ∧ tl.tt = Vector.replicate 64 .invalid ∧
        tl.task.pc = cardEntry l.card &&& 0x01fffffffffffff8#64 ∧ tl.task.depth = 0 ∧
        tl.task.gtid = BitVec.ofNat 64 (ln % 65536 * 2 ^ 48 + index % 2 ^ 32 * 2 ^ 16 + serial % 65536) ∧
        tl.task.a[1].val = 0#64 ∧
        (cardKind l.card = 1 → tl.task.a[3].val = cardArgs l.card ∧
          tl.task.g[1] = BitVec.ofNat 32 (index / (cardE1 l.card * cardE2 l.card)) ∧
          tl.task.g[2] = BitVec.ofNat 32 (index / cardE2 l.card % cardE1 l.card) ∧
          tl.task.g[3] = BitVec.ofNat 32 (index % cardE2 l.card) ∧ tl.task.g[4] = BitVec.ofNat 32 serial)

/-- R26, R27, R28, R36, R64, R268, R269, R270, R271, R272, R273, R274: Where cohorts are dispatched, and what a starting cohort
holds: `Claims.CohortsDispatched`, `Claims.CohortsStart`. -/
def Obligations.CohortsDispatched : Prop :=
  Claims.CohortsDispatched ∧ Claims.CohortsStart

/-- R43, R44, R264, R265, R268, R271, R283: a cohort whose tasks have exited and whose stores have reached panel scope retires:
its bit is set, DET and REP are summed, its quads are free; a cohort of a launch that has ended leaves without its bit, and a BATCH
launch's quad with it; a launch
that is done writes its completion record, once hosts have given up its line, and leaves its stream; the watchdog and an abort end
a launch with their status; 2 ms of waiting raise its level. -/
def Obligations.LaunchesEnd : Prop :=
  (∀ (s : State) (key : Nat) (c : Cohort), smFind key s.cohorts = some c → launchGoes s c.launch = true →
    (mayRetire s c = false → Becomes (.cohortRetirement key) s s) ∧
    ∀ l, mayRetire s c = true → smFind c.launch s.launches = some l → cardKind l.card ≠ 2 → smSorted s.cohorts = true →
      ∃ t l', exec (.cohortRetirement key) s = .next t ∧ smFind key t.cohorts = none ∧
        smFind c.launch t.launches = some l' ∧ l'.retired = l.retired + 1 ∧
        (c.runB = false → l'.boardA = c.index :: l.boardA ∧ l'.boardB = l.boardB) ∧
        (c.runB = true → l'.boardB = c.index :: l.boardB ∧ l'.boardA = l.boardA) ∧
        l'.det = (cohortTiles c).foldl (fun d u => satAdd d (tileOf s u).det.toNat) l.det ∧
        l'.rep = (cohortTiles c).foldl (fun d u => satAdd d (tileOf s u).rep.toNat) l.rep ∧
        ∀ q ∈ cohortQuads c, (quadAt t q).team = none) ∧
  (∀ (s : State) (key : Nat) (c : Cohort), smFind key s.cohorts = some c → launchGoes s c.launch = false →
    smSorted s.cohorts = true → s.requests = [] → c.status = .resident →
    ∃ t, exec (.cohortRetirement key) s = .next t ∧ smFind key t.cohorts = none ∧
      (∀ q ∈ cohortQuads c, (quadAt t q).team = none) ∧
      (∀ a ∈ t.accs, a.tile ∉ cohortTiles c) ∧ (∀ m ∈ t.net, m.src ∉ cohortTiles c) ∧
      ∀ l, smFind c.launch s.launches = some l → ∃ l', smFind c.launch t.launches = some l' ∧ l'.retired = l.retired ∧
        l'.boardA = l.boardA ∧ l'.boardB = l.boardB ∧
        (cardKind l.card = 2 → ∀ q ∈ cohortQuads c, q ∉ l'.batchQuads) ∧
        l'.det = (cohortTiles c).foldl (fun d u => satAdd d (tileOf s u).det.toNat) l.det ∧
        l'.rep = (cohortTiles c).foldl (fun d u => satAdd d (tileOf s u).rep.toNat) l.rep) ∧
  (∀ (s : State) (ln : Nat) (l : Launch), smFind ln s.launches = some l → smSorted s.launches = true →
    (launchDone s ln l = false → Becomes (.launchCompletion ln) s s) ∧
    let held := if cardCompl l.card = 0#64 then none
      else virtualHeld s l.tag (cardCompl l.card) (if cardReplica l.card = true then 64 else 32)
    (launchDone s ln l = true → (∀ p ∈ s.ports, p.2.unflushed = []) → ∀ line, held = some line →
      Becomes (.launchCompletion ln) s (askBack s line)) ∧
    (launchDone s ln l = true → (∀ p ∈ s.ports, p.2.unflushed = []) → held = none → ∃ t, exec (.launchCompletion ln) s = .next t ∧
      smFind ln t.launches = none ∧
      (streamAt t (streamKey l.page l.slot)).done = (streamAt s (streamKey l.page l.slot)).done + 1 ∧
      l.seq ∉ (streamAt t (streamKey l.page l.slot)).open_) ∧
    (l.dispatched = true → l.ended = false → deadlineOf s l ≤ l.watched → l.failed = none → Becomes (.watchdog ln) s
      (setLaunch s ln { l with failed := some .watchdog, reason := 0#8, ended := true })) ∧
    (l.watched < deadlineOf s l ∨ l.dispatched = false → Becomes (.watchdog ln) s s) ∧
    (l.ended = false → l.failed = none → Becomes (.launchAbort ln) s
      (setLaunch s ln { l with failed := some .aborted, reason := 0#8, ended := true })) ∧
    (l.ended = true → Becomes (.launchAbort ln) s s) ∧
    (cardPrio l.card < 40 → hasDispatchable s ln l = true →
      Becomes (.ageing ln) s (setLaunch s ln { l with aged := l.aged + 1 })) ∧
    (40 ≤ cardPrio l.card → Becomes (.ageing ln) s s ∧ levelOf l = cardPrio l.card) ∧
    (cardPrio l.card < 40 → levelOf l = min 39 (cardPrio l.card + l.aged))) ∧
  ∀ (s : State) (ln : Nat) (l : Launch), let b := completionBytes s ln l
    b.length = 32 ∧ leNat (b.take 1) = (statusOf l).toNat ∧ leNat ((b.drop 1).take 1) = l.info.toNat ∧
      leNat ((b.drop 2).take 1) = l.fid % 4 ∧ leNat ((b.drop 3).take 3) = l.reason.toNat ∧ leNat ((b.drop 6).take 2) = ln % 65536 ∧
      leNat ((b.drop 8).take 4) = l.det.toNat ∧ leNat ((b.drop 12).take 4) = l.rep.toNat ∧
      leNat ((b.drop 16).take 8) = (s.clk - l.start) % 2 ^ 64 ∧
      leNat ((b.drop 24).take 4) = min l.retired (2 ^ 32 - 1) ∧ leNat ((b.drop 28).take 4) = min l.faults (2 ^ 32 - 1)

/-- R256, R306-R309, R311, R320, R344: a host request to the window of edge memory at its home: a read answers the bytes, a write
stores them, an AtomicOp answers the old value and stores its new one; before step 4 of the boot it is retried; outside the
window, across a 4 KiB boundary, above the payload limit or in recovery it is unsupported, as a DMWr and a request that relies on
an unsupported feature are; of no bytes it does nothing. A write to a line that a host may hold stands at the home, and a request
that answers data waits for it; a port's later requests stay behind its held writes. Port 0 shows the passing sites in recovery,
BAR0 the port's misroutes, and an unbound submission page of a port reads zero. Unmasking an MSI-X entry sends the message it
held. The model's choices: the widths of a read of a page (log 67), what is answered before step 4 and in recovery (log 76), the
payload limit, a DMWr, an unsupported feature and the answer `held` (log 107), the places in configuration space and the mailbox
(log 129). -/
def Claims.HostReachesEdgeMemory : Prop :=
  (∀ (s : State) (p o n : Nat) (bs : List Byte) (wide : Bool) (c v : DWord), ∀ r ∈ [Bar4Req.read p o n, .write p o bs,
      .fetchAdd p o wide v, .swap p o wide v, .cas p o wide c v],
    let k := (bar4Span r).2.2
    let outside := (portAt s p).bar4size < o + k ∨ 3 * 2 ^ 40 < (portAt s p).bar4base + o + k ∨
      (k ≠ 0 ∧ o / 4096 ≠ (o + k - 1) / 4096) ∨ (r = .write p o bs ∧ 512 < bs.length)
    (s.mgmt.recovery = true → Becomes (.hostBar4Access r) s { s with reply := ⟨.unsupported, []⟩ }) ∧
    (s.mgmt.recovery = false → s.mgmt.step < 4 → Becomes (.hostBar4Access r) s { s with reply := ⟨.retry, []⟩ }) ∧
    (s.mgmt.recovery = false → 4 ≤ s.mgmt.step → outside →
      Becomes (.hostBar4Access r) s { s with reply := ⟨.unsupported, []⟩ }) ∧
    (s.mgmt.recovery = false → 4 ≤ s.mgmt.step → ¬ outside → k = 0 →
      Becomes (.hostBar4Access r) s
        { s with reply := ⟨if r ≠ .write p o bs ∧ behind s (.port p) = true then .held else .done, []⟩ })) ∧
  (∀ (s : State) (p o : Nat) (bs : List Byte),
    Becomes (.hostBar4Access (.deferrable p o bs)) s { s with reply := ⟨.unsupported, []⟩ } ∧
    Becomes (.hostBar4Access (.feature p)) s { s with reply := ⟨.unsupported, []⟩ }) ∧
  (∀ s : State, s.mgmt.recovery = true →
    Becomes (.hostBar4Access (.bar0 0 .passing)) s { s with reply := ⟨.done, leBytes s.mgmt.passing 4⟩, freeIdx := s.freeIdx + 1 }) ∧
  (∀ (s : State) (p o : Nat) (bs : List Byte), s.mgmt.recovery = false → 4 ≤ s.mgmt.step →
    Becomes (.hostBar4Access (.bar0 p .misroute)) s
      { s with reply := ⟨.done, leBytes (portAt s p).misroute 4⟩, freeIdx := s.freeIdx + 1 } ∧
    Becomes (.hostBar4Access (.mailbox p o bs)) s { s with reply := ⟨.done, []⟩ }) ∧
  (∀ (s : State) (port off n : Nat), s.mgmt.recovery = false → 4 ≤ s.mgmt.step → off + n ≤ 2 ^ 26 →
    off / 4096 = (off + n - 1) / 4096 → 0 < n → smFind (port * 16384 + off / 4096) s.pages = none →
    Becomes (.hostBar4Access (.page port off n)) s { s with reply := ⟨.done, List.replicate n 0#8⟩ }) ∧
  (∀ (s : State) (port off n : Nat),
    (s.mgmt.step = 3 → Becomes (.hostBar4Access (.config port off n)) s { s with reply := ⟨.retry, []⟩ }) ∧
    (4 ≤ s.mgmt.step → Becomes (.hostBar4Access (.config port off n)) s
      { s with reply := ⟨.done, (upFrom off n).map (pcieByte port)⟩ }) ∧
    pcieByte port 0x44 &&& 7#8 = 2#8 ∧ (pcieByte port 0x82).toNat + (pcieByte port 0x83 &&& 7#8).toNat * 256 = 2047) ∧
  (∀ (s : State) (p o : Nat), s.memsOk = true → s.damage = [] → 4 ≤ s.mgmt.step → s.mgmt.recovery = false →
    let pa := (portAt s p).bar4base + o
    let fits (n : Nat) : Prop := 0 < n ∧ o + n ≤ (portAt s p).bar4size ∧ pa + n ≤ 3 * 2 ^ 40 ∧ o / 4096 = (o + n - 1) / 4096
    let old (n : Nat) : List Byte := (List.range n).map fun j => byteAt s (.edge (pa + j))
    let stores (t : State) (bs : List Byte) : Prop :=
      (∀ j, j < bs.length → byteAt t (.edge (pa + j)) = bs[j]?.getD 0#8) ∧
        ∀ b, (∀ j, j < bs.length → b ≠ .edge (pa + j)) → byteAt t b = byteAt s b
    let waits (r : Bar4Req) : Prop := ∃ t, exec (.hostBar4Access r) s = .next t ∧ t.reply = ⟨.held, []⟩ ∧ SameBytes s t ∧
      t.homeQ = s.homeQ
    (∀ n, fits n →
      (queuedAt s pa n = false → behind s (.port p) = false → ∃ t, exec (.hostBar4Access (.read p o n)) s = .next t ∧ t.reply = ⟨.done, old n⟩ ∧
        SameBytes s t) ∧
      (queuedAt s pa n = true ∨ behind s (.port p) = true → waits (.read p o n))) ∧
    (∀ bs, fits bs.length → bs.length ≤ 512 →
      let held := (heldLine s pa bs.length).isSome = true ∨ queuedAt s pa bs.length = true ∨ behind s (.port p) = true
      (¬ held → ∃ t, exec (.hostBar4Access (.write p o bs)) s = .next t ∧ t.reply = ⟨.done, []⟩ ∧ stores t bs) ∧
      (held → ∃ t, exec (.hostBar4Access (.write p o bs)) s = .next t ∧ t.reply = ⟨.done, []⟩ ∧ SameBytes s t ∧
        t.homeQ = s.homeQ ++ [⟨.port p, pa, bs⟩])) ∧
    ∀ (wide : Bool) (v c : DWord), let n := if wide = true then 8 else 4
      fits n →
      ((heldLine s pa n).isSome = true ∨ queuedAt s pa n = true ∨ behind s (.port p) = true →
        waits (.fetchAdd p o wide v) ∧ waits (.swap p o wide v)) ∧
      (heldLine s pa n = none → queuedAt s pa n = false → behind s (.port p) = false →
        (∃ t, exec (.hostBar4Access (.fetchAdd p o wide v)) s = .next t ∧ t.reply = ⟨.done, old n⟩ ∧
          stores t (leBytes (leNat (old n) + v.toNat) n)) ∧
        (∃ t, exec (.hostBar4Access (.swap p o wide v)) s = .next t ∧ t.reply = ⟨.done, old n⟩ ∧
          stores t (leBytes v.toNat n)) ∧
        ∃ t, exec (.hostBar4Access (.cas p o wide c v)) s = .next t ∧ t.reply = ⟨.done, old n⟩ ∧
          (leNat (old n) = c.toNat % 2 ^ (8 * n) → stores t (leBytes v.toNat n)) ∧
          (leNat (old n) ≠ c.toNat % 2 ^ (8 * n) → SameBytes s t))) ∧
  ∀ (s : State) (port vec : Nat) (e : Msix), smFind vec (portAt s port).msix = some e →
    ∃ t, exec (.msiXUnmask port vec) s = .next t ∧
      smFind vec (portAt t port).msix = some { e with masked := false, pending := false } ∧
      t.irqs = (if e.masked = true ∧ e.pending = true then s.irqs ++ [.msix port vec] else s.irqs) ∧ SameBytes s t

/-- R312-R314, R318: a span port that keeps 4 lanes or more retrains at 4, one with fewer is lost; a peer module may be
lost; a retrained one carries flits
again. A die link beyond its error threshold closes and sheds: to 8 lanes with a good half, else to 4, and never widens; it
reopens at its new width. -/
def Claims.LinksShedLanes : Prop :=
  ∀ s : State,
    (∀ p lanes, p < 32 → lanes < (spanAt s p).lanes →
      (4 ≤ lanes → ∃ t, exec (.spanLaneLoss (.port p) lanes) s = .next t ∧ spanAt t p = ⟨4, true⟩ ∧ SameBytes s t) ∧
      (lanes < 4 → ∃ t, exec (.spanLaneLoss (.port p) lanes) s = .next t ∧ spanAt t p = ⟨0, false⟩ ∧ SameBytes s t)) ∧
    (∀ p lanes, 32 ≤ p ∨ (spanAt s p).lanes ≤ lanes → Becomes (.spanLaneLoss (.port p) lanes) s s) ∧
    (∀ id lanes, id < 65536 → id ∉ s.lostModules →
      Becomes (.spanLaneLoss (.module id) lanes) s { s with lostModules := id :: s.lostModules }) ∧
    (∀ id lanes, id ∈ s.lostModules → Becomes (.spanLaneLoss (.module id) lanes) s s) ∧
    (∀ p, (spanAt s p).retraining = true → ∃ t, exec (.spanRetrainComplete p) s = .next t ∧
      spanAt t p = { spanAt s p with retraining := false } ∧ SameBytes s t) ∧
    (∀ p, (spanAt s p).retraining = false → Becomes (.spanRetrainComplete p) s s) ∧
    (∀ l bad, let x := linkAt s l
      let b := x.bad ||| bad
      (linkWidth x.lanes b < x.lanes → ∃ t, exec (.laneShed l bad) s = .next t ∧
        linkAt t l = ⟨b, linkWidth x.lanes b, true⟩ ∧ SameBytes s t) ∧
      (x.lanes ≤ linkWidth x.lanes b → Becomes (.laneShed l bad) s s)) ∧
    (∀ l, (linkAt s l).closed = true → ∃ t, exec (.linkReopen l) s = .next t ∧
      linkAt t l = { linkAt s l with closed := false } ∧ SameBytes s t) ∧
    (∀ l, (linkAt s l).closed = false → Becomes (.linkReopen l) s s) ∧
    ∀ old (bad : BitVec 16), linkWidth old bad ≤ old ∧
      (bad ≠ 0#16 → bad.toNat % 256 = 0 ∨ bad.toNat / 256 = 0 → linkWidth old bad = min old 8) ∧
      (bad.toNat % 256 ≠ 0 → bad.toNat / 256 ≠ 0 → linkWidth old bad = min old 4)

/-- R256, R306, R307, R308, R309, R311, R320, R344, R312, R313, R314, R318: What host requests do to edge memory, and how links
shed lanes: `Claims.HostReachesEdgeMemory`, `Claims.LinksShedLanes`. -/
def Obligations.HostAndLinks : Prop :=
  Claims.HostReachesEdgeMemory ∧ Claims.LinksShedLanes

/-- R6, R11, R20, R237, R307, R308, R319-R321: with 12 V in range, power on boots the slot whose image verifies and trains the
host ports; where 64 sites pass, the boot then writes the remap tables (each cluster's quads stand on its good physical quads, its
own number first), opens the host windows and starts cr.cycle at zero; with no slot, or with fewer sites, the module waits in
recovery. A confirmation of health makes the running slot active and raises the minimum version; without one the module resets,
the slot is invalid, and a revert is counted. An update goes to the slot that is not active. (The range of 12 V, which is that of
Table 23-8, and the two turns of a power on are the model's choice: log 110; so is the order in which sites and spares are taken:
log 68.) -/
def Claims.ModuleBoots : Prop :=
  (∀ (s : State) (r : BootReport), s.mgmt.step = 0 → s.mgmt.recovery = false →
    (r.input < 11000 ∨ 13000 < r.input → Becomes (.powerOn r) s s) ∧
    (11000 ≤ r.input → r.input ≤ 13000 → bootSlot s.mgmt = none → ∃ t, exec (.powerOn r) s = .next t ∧
      t.mgmt.recovery = true ∧ t.mgmt.running = none ∧ t.mgmt.step = 1 ∧ t.tiles = s.tiles ∧ t.dies = s.dies ∧ t.quads = s.quads) ∧
    (11000 ≤ r.input → r.input ≤ 13000 → ∀ a, bootSlot s.mgmt = some a → ∃ t, exec (.powerOn r) s = .next t ∧
      t.mgmt.running = some a ∧ t.mgmt.confirmed = false ∧ t.mgmt.step = 3 ∧ t.mgmt.recovery = false ∧ SameBytes s t ∧
      t.tiles = s.tiles ∧ t.dies = s.dies ∧ t.quads = s.quads ∧
      ∀ p x, p < 4 → r.ports[p]? = some x → (portAt t p).cxl = x.cxl)) ∧
  (∀ (s : State) (r : BootReport), s.mgmt.step = 3 → s.mgmt.recovery = false →
    ((passingSites r).length < 64 → Becomes (.powerOn r) s { s with mgmt := { s.mgmt with
      step := 4, recovery := true, passing := (passingSites r).length } }) ∧
    (64 ≤ (passingSites r).length → ∃ t, exec (.powerOn r) s = .next t ∧ t.mgmt.step = 5 ∧ t.mgmt.running = s.mgmt.running ∧
      t.clk = 0 ∧ SameBytes { s with quads := [] } { t with quads := [] } ∧
      (∀ p x, p < 4 → r.ports[p]? = some x → (portAt t p).bar4base = x.base ∧ (portAt t p).bar4size = min x.size (2 ^ 39)) ∧
      (∀ d site, d < 64 → (passingSites r)[d]? = some site →
        (dieAt t d).site = site ∧ (dieAt t d).valid = true ∧ (dieAt t d).tokens = 12) ∧
      ∀ c q site, c < 256 → q < 64 → (passingSites r)[dieOfCluster c]? = some site →
        let bad := badOf r site ((clustersOfDie (dieOfCluster c)).idxOf c)
        (quadAt t (64 * c + q)).valid = true ∧ (quadAt t (64 * c + q)).team = none ∧
        (q ∉ bad → (quadAt t (64 * c + q)).pquad = q) ∧
        (q ∈ bad → 64 ≤ (quadAt t (64 * c + q)).pquad ∧ (quadAt t (64 * c + q)).pquad < 72 ∧
          (quadAt t (64 * c + q)).pquad ∉ bad))) ∧
  (∀ (s : State) (r : BootReport), (s.mgmt.step ≠ 0 ∧ s.mgmt.step ≠ 3) ∨ s.mgmt.recovery = true → Becomes (.powerOn r) s s) ∧
  (∀ (m : Mgmt) (a : Bool), bootSlot m = some a → slotRuns m (if a = true then m.slotA else m.slotB) = true) ∧
  (∀ (m : Mgmt) (sl : Slot), slotRuns m (some sl) = true → sl.invalid = false ∧ m.minVersion ≤ sl.img.version) ∧
  (∀ (s : State) (a : Bool) (sl : Slot), s.mgmt.running = some a → (if a = true then s.mgmt.slotA else s.mgmt.slotB) = some sl →
    (s.mgmt.step = 5 → s.mgmt.recovery = false → Becomes .healthConfirmation s { s with mgmt := { s.mgmt with
      confirmed := true, step := 6, activeA := a, minVersion := max s.mgmt.minVersion sl.img.version } }) ∧
    (s.mgmt.confirmed = false → ∃ t, exec .healthWatchdog s = .next t ∧ t.tiles = [] ∧ t.mgmt.running = none ∧
      t.mgmt.step = 0 ∧ (if a = true then t.mgmt.slotA else t.mgmt.slotB) = some { sl with invalid := true } ∧
      (if a = true then t.mgmt.slotB else t.mgmt.slotA) = (if a = true then s.mgmt.slotB else s.mgmt.slotA) ∧
      lifeCount t .reverts = min (lifeCount s .reverts + 1) (2 ^ 32 - 1) ∧ lifeCount { t with life := t.lifeSaved } .reverts = lifeCount t .reverts) ∧
    (s.mgmt.confirmed = true → Becomes .healthWatchdog s s)) ∧
  ∀ (s : State) (img : Image), let other := !s.mgmt.activeA
    (s.mgmt.recovery = false → ∃ t, exec (.firmwareUpdate other img) s = .next t ∧ t.reply.answer = .done ∧
      (if other = true then t.mgmt.slotA else t.mgmt.slotB) = some ⟨img, false⟩ ∧
      (if other = true then t.mgmt.slotB else t.mgmt.slotA) = if other = true then s.mgmt.slotB else s.mgmt.slotA) ∧
    (s.mgmt.recovery = false →
      Becomes (.firmwareUpdate s.mgmt.activeA img) s { s with reply := ⟨.discarded, []⟩ }) ∧
    (s.mgmt.recovery = true → ∃ t, exec (.firmwareUpdate true img) s = .next t ∧ t.mgmt.slotA = some ⟨img, false⟩ ∧
      t.reply.answer = .done)

/-- R322: the key index that a report is signed with is committed before the report leaves, no index is used twice, and after 2^20
signatures the report is refused. The layout of the report is the model's choice (log 70), as is the digest of the remap tables in
it (log 125). -/
def Claims.AttestationKeys : Prop :=
  ∀ (s : State) (nonce : BitVec 256),
    (s.mgmt.running = none → Becomes (.attestationReport nonce) s { s with reply := ⟨.unsupported, []⟩ }) ∧
    (s.mgmt.running ≠ none → 2 ^ 20 ≤ s.mgmt.keyIndex →
      Becomes (.attestationReport nonce) s { s with reply := ⟨.exhausted, []⟩ }) ∧
    (s.mgmt.running ≠ none → s.mgmt.keyIndex < 2 ^ 20 → ∃ t sig, exec (.attestationReport nonce) s = .next t ∧
      t.mgmt = { s.mgmt with keyIndex := s.mgmt.keyIndex + 1 } ∧
      t.reply = ⟨.done, reportBytes s nonce ++ sig⟩ ∧ SameBytes s t)

/-- R6, R11, R20, R237, R307, R308, R319, R320, R321, R322: Boot, health, updates and attestation of the firmware:
`Claims.ModuleBoots`, `Claims.AttestationKeys`. -/
def Obligations.ModuleBoots : Prop :=
  Claims.ModuleBoots ∧ Claims.AttestationKeys

/-- R4, R71, R74-R84: words written out from the encoding tables decode to what they stand for: the bundles of Table 6-1, and an
instruction of each family. The source lines of Table 5-2 assemble to its words, and a held operand alone on its line does
not (R88). -/
def Obligations.SampleWordsDecode : Prop :=
  let lone (w0 : Word) (i : Instr) : Prop := decodeWords w0 0#32 = .ok (.loneA i 0#32)
  decodeWords 0x16934001#32 0x0c8244e2#32 =
      .ok (.paired false false (.stPr ⟨2#3, 2#3, 6#4, 16#5, 0#3, 1#7⟩) (.cmpF32 ⟨0#3, 2#3, 2#3, 9#6, 49#6⟩)) ∧
    lone 0x820d27fd#32 (.bltu ⟨3#4, 4#4, 0x7fd#11⟩) ∧
    decodeWords 0#32 0x8ec12624#32 = .ok (.paired true false .nopA (.fmaF32 ⟨0#3, 9#6, 12#6, 18#6⟩)) ∧
    decodeWords 0xce8083fc#32 0x3f000000#32 = .ok (.loneX (.mulF32 ⟨0#3, 4#6, 7#6, 62#6⟩) 0x3f000000#32) ∧
    decodeWords 0x880cc000#32 0x00010000#32 = .ok (.loneA (.aaddi ⟨3#4, 3#4, 0#14⟩) 0x00010000#32) ∧
    lone 0x9d014c0c#32 (.casSp ⟨0#3, 2#4, 9#4, 8#4, 0#3, 1#1, 2#2⟩) ∧ lone 0x82cc0003#32 (.loop ⟨0#1, 6#4, 0#8, 3#9⟩) ∧
    decodeWords 0xdd87e07d#32 0x10#32 = .ok (.loneX (.vredqF32 ⟨0#3, 0#6, 62#6, 1#1⟩) 0x10#32) ∧
    lone 0xa0002600#32 (.tdef ⟨1#6, 12#6, 0#6⟩) ∧ lone 0xa140410d#32 (.mldBl ⟨0#3, 2#6, 2#6, 6#6⟩) ∧
    lone 0xa1002101#32 (.mmaR ⟨0#3, 1#6, 2#6, 0#2⟩) ∧ lone 0xa0c082ac#32 (.mma ⟨0#3, 4#6, 5#6, 1#2, 6#4⟩) ∧
    lone 0xa4c0c084#32 (.kbinApp ⟨6#6, 2#6⟩) ∧ lone 0xa480a30e#32 (.ksend ⟨0#3, 5#6, 6#6, 7#6, 0#1⟩) ∧
    lone 0xa3490484#32 (.cpyMma ⟨1#3, 8#6, 9#6, 2#6, 0#1⟩) ∧ lone 0xa5404480#32 (.engK ⟨2#6, 9#6, 0#1⟩) ∧
    lone 0xa8009017#32 (.spawn ⟨0#3, 1#4, 2#4, 0x17#11⟩) ∧ lone 0xa8810003#32 (.join ⟨2#4, 3#2⟩) ∧
    lone 0xac000006#32 (.fence ⟨6#3⟩) ∧
    decodeWords 0x40000000#32 0#32 = .error .pairedK ∧ (∃ e, decodeWords 0x80000000#32 1#32 = .error e) ∧
    (∃ e, decodeWords 0#32 0x01400000#32 = .error e) ∧ (∃ e, decodeWords 0#32 0xbc000000#32 = .error e) ∧
    (∃ e, decodeWords 0x0c814004#32 0x0ec0d87c#32 = .error e) ∧ (∃ e, decodeWords 0x0c894004#32 0x0ec0d818#32 = .error e) ∧
    let line (l : String) : Except AsmFail (Word × Word) := (lex l).bind (assembleBundle ⟨[], [], true, false, 0#64⟩)
    line "ld.sp.w32 lq0, [a2+16] || fma.f32 g6, lq0, g12" = .ok (0x0c814004#32, 0x0ec0d818#32) ∧
    line "add g5, g7, 0x1234_5678" = .ok (0xc200a3fc#32, 0x12345678#32) ∧
    line "aaddi a3, a3, 0x1_0000" = .ok (0x880cc000#32, 0x00010000#32) ∧ line "mul.f32 g6, lq0, g2^" = .error .lone

/-- R4, R47, R71, R74, R215: every well-formed bundle, encoded into its eight bytes at the front of any bytes, decodes to itself and
leaves the bytes behind it: no operand bit of any instruction is dropped. -/
def Obligations.BundlesRoundTrip : Prop :=
  ∀ (b : Bundle) (rest : List Byte), b.WellFormed → decode (encodeBytes b ++ rest) = .ok (b, rest)

/-- R71, R74, R86, R90, R215: what two words decode to is well formed, and encodes back to the same words, but for a word 1 that
was folded into the immediate of format AS: no two pairs of words are the same bundle. Whatever Wennu assembles is a bundle that
decodes. -/
def Obligations.DecodedBundlesEncodeBack : Prop :=
  (∀ (w0 w1 : Word) (b : Bundle), decodeWords w0 w1 = .ok b →
    b.WellFormed ∧ ((field w0 30 2 = 2#2 → foldedOpcode (field w0 22 8).toNat = true → w1 = 0#32) → encodeBundle b = (w0, w1))) ∧
  ∀ (env : AsmEnv) (ts : List Tok) (w : Word × Word), assembleBundle env ts = .ok w → ∃ b, decodeWords w.1 w.2 = .ok b

/-- R6, R20, R59, R194, R227, R238, R260, R278, R289, R320, R327, R332: the machine right after reset: nothing booted, nothing runs,
nothing is resident or submitted; every register at the value of its table, every memory blank in its canonical form. The
values for which the manual gives none are the model's own choice (logs 2 to 4). -/
def Obligations.ResetState : Prop :=
  let s := State.reset
  s.memsOk = true ∧ s.cohorts = [] ∧ s.launches = [] ∧ s.streams = [] ∧ s.accs = [] ∧ s.net = [] ∧ s.frames = [] ∧ s.clk = 0 ∧
    s.mgmt.step = 0 ∧ s.mgmt.running = none ∧
    (∀ t, (tileOf s t).run = .idle ∧ (tileOf s t).halt = .none ∧ (tileOf s t).vshare = 1#4 ∧
      (tileOf s t).nbar = Vector.replicate 32 NBar.zero ∧ (tileOf s t).tt = Vector.replicate 64 .invalid ∧
      (tileOf s t).replay = [] ∧ (tileOf s t).inbox = Vector.replicate 8 none) ∧
    (∀ d, (dieAt s d).fp = [] ∧ (dieAt s d).fpovf = false ∧ (dieAt s d).mailbox = [] ∧ (dieAt s d).tokens = 12 ∧
      (dieAt s d).fpsize = 8#64 ∧ (dieAt s d).fpbase = 0#64 ∧ (dieAt s d).resolve0 = 0#64 ∧ (dieAt s d).ring.on = 0#2 ∧
      (dieAt s d).valid = false) ∧
    (∀ q, (quadAt s q).valid = false ∧ (quadAt s q).mig = false ∧ (quadAt s q).mcount = 0 ∧ (quadAt s q).team = none) ∧
    (∀ c, (clusterAt s c).permits = 64 ∧ (clusterAt s c).tokens = 0 ∧ (clusterAt s c).grant = false) ∧
    (∀ g, (sessionAt s g).open_ = false ∧ (sessionAt s g).sper = 0#5 ∧ (sessionAt s g).sumbar = 0#5) ∧
    (∀ c, (coreAt s c).subValid = false ∧ (coreAt s c).accValid = false ∧ (coreAt s c).shValid = false) ∧
    ∀ b, byteAt s b = 0#8

/-- R47-R49, R69, R71-R74, R86, R285, R294, R295: the turn of a tile's access side. A bundle that has been fetched, decodes and
meets no breakpoint pushes its X instruction, unless that stands pushed already, and its A instruction is carried out by `exec`; a
lone X bundle falls through; words that are no bundle raise ILLEGAL_ENCODING precisely, a failed fetch its own code with the PC, a
breakpoint BREAK with its number; where its words are not there the turn issues nothing, also at a tile of a halted cohort that is
to issue one bundle. A task whose stepped bundle has issued raises STEP at the next bundle, once its X instructions have
completed, but after a breakpoint and after ILLEGAL_ENCODING; that it comes before a failed fetch is the model's choice (log 105).
-/
def Obligations.StepRunsBundle : Prop :=
  ∀ (s : State) (dt t : Nat) (rest : List Turn), s.agenda = ⟨dt, .access t⟩ :: rest → t < 65536 →
    let s1 := clearWaits (passTime { s with agenda := rest } dt) t [3, 4]
    let tl := tileOf s1 t
    let k := tl.task
    let s2 : State := { s1 with cur := { s1.cur with went := false } }
    let here (ext : Word) (opened : Nat) : State := { s1 with cur :=
      { tile := t, pc := k.pc, ext, opened, pushed := false, went := false, ha := false, hb := false } }
    let pushed (x : Instr) (ext : Word) (ha hb : Bool) : State :=
      let n := opensSlot x
      let gd := if n = 0 then k.gd else k.gd.set (n % 8) ((k.gd[n % 8]'(Nat.mod_lt _ (by decide))).openGen) (Nat.mod_lt _ (by decide))
      { setTile s1 t { tl with task := { k with xinstr := k.xinstr ++ [⟨x, ext, ha, hb, k.pc⟩], gd } } with cur :=
        { tile := t, pc := k.pc, ext := 0#32, opened := n, pushed := true, went := false, ha := false, hb := false } }
    let roomFor (x : Instr) : Prop :=
      k.slip < 16 ∧ (opensSlot x = 0 ∨ unresolved (k.gd[opensSlot x % 8]'(Nat.mod_lt _ (by decide))) < 8)
    (mayIssue s1 t = false → step s = .next s1) ∧
    (mayIssue s1 t = true → tl.halt = .none →
      (∀ i, breakAt s1 t = some i → step s = .next (preciseTrapInfo (here 0#32 0) .brk (BitVec.ofNat 8 i) 0#64 0#64)) ∧
      (breakAt s1 t = none →
        (fetchBundle tl k.pc = .missing → step s = .next s2) ∧
        (∀ c, k.stepping ≠ .issued → fetchBundle tl k.pc = .bad c →
          step s = .next (preciseTrap (setTile (here 0#32 0) t { tl with badFetch := none }) c k.pc 0#64)) ∧
        (∀ c, k.stepping = .issued → fetchBundle tl k.pc = .bad c → step s = .next (stepTrap s2 t)) ∧
        ∀ w0 w1, fetchBundle tl k.pc = .words w0 w1 →
          (∀ e, decodeWords w0 w1 = .error e →
            step s = .next (preciseTrap (here 0#32 0) .illegalEncoding 0#64 0#64)) ∧
          (∀ b, decodeWords w0 w1 = .ok b → k.stepping = .issued → step s = .next (stepTrap s2 t)) ∧
          (k.stepping ≠ .issued →
            (∀ a ext, decodeWords w0 w1 = .ok (.loneA a ext) → step s = afterAccess (exec a (here ext 0)) t) ∧
            (∀ ha hb a x, decodeWords w0 w1 = .ok (.paired ha hb a x) →
              (k.xpushed = true → step s = afterAccess (exec a (here 0#32 (opensSlot x))) t) ∧
              (k.xpushed = false → roomFor x → step s = afterAccess (exec a (pushed x 0#32 ha hb)) t)) ∧
            ∀ x ext, decodeWords w0 w1 = .ok (.loneX x ext) → k.xpushed = false → roomFor x →
              step s = .next (afterSingle (finish (pushed x ext false false)) t)))) ∧
    (mayIssue s1 t = true → tl.halt = .held true → breakAt s1 t = none → fetchBundle tl k.pc = .missing → step s = .next s2) ∧
    (k.xinstr ≠ [] → stepTrap s2 t = s2) ∧
    (k.xinstr = [] → ∃ i : TrapInfo, stepTrap s2 t = setTile s2 t { tl with run := .stopping i } ∧
      i.code = .step ∧ i.precise = true ∧ i.pc = k.pc) ∧
    ∀ o u, o = .next u → (tileOf u t).halt ≠ .held true → afterAccess o t = o

/-- R47-R49, R68, R286, R292, R298: the turn of a tile's execute side carries out the X instruction at the head of its queue by
`exec`, with its own EXT and hold bits, and marks it as waiting where it has not completed; it does nothing while accesses are
replayed; a step of the table is carried out by `exec`. That a turn of an instruction that stands nowhere, or of something outside
the panel, does nothing is the model's choice (log 77). -/
def Obligations.StepRunsQueueAndEvents : Prop :=
  (∀ (s : State) (dt t : Nat) (rest : List Turn), s.agenda = ⟨dt, .execute t⟩ :: rest → t < 65536 →
    let s1 := clearWaits (passTime { s with agenda := rest } dt) t [5]
    ((tileOf s1 t).task.xinstr = [] ∨ (tileOf s1 t).run = .idle ∨ replaying s1 t = true → step s = .next s1) ∧
    ∀ (x : XEntry) (xs : List XEntry), (tileOf s1 t).task.xinstr = x :: xs → (tileOf s1 t).run = .running →
      (tileOf s1 t).halt = .none → replaying s1 t = false →
      let here : State := { s1 with cur :=
        { tile := t, pc := x.pc, ext := x.ext, opened := 0, pushed := false, went := false, ha := x.ha, hb := x.hb } }
      ∀ u, exec x.x here = .next u →
        ((tileOf u t).task.xinstr.length ≠ xs.length + 1 → step s = .next u) ∧
        ((tileOf u t).task.xinstr.length = xs.length + 1 →
          step s = .next (setTile u t { tileOf u t with task := { (tileOf u t).task with xbusy := true } }))) ∧
  ∀ (s : State) (dt : Nat) (i : Instr) (rest : List Turn), s.agenda = ⟨dt, .event i⟩ :: rest →
    let s0 := passTime { s with agenda := rest } dt
    (isA i = false → isX i = false → eventOk i = true → step s = exec i { s0 with cur := Cur.none }) ∧
    (isA i = true ∨ isX i = true ∨ eventOk i = false → step s = .next s0)

/-- R284: nothing stops the machine: every instruction and every step of the table answers a next state from every state, and so
does every turn; time passes alike for every tile, and leaves each as it is but for its counters. -/
def Obligations.EveryStepAnswers : Prop :=
  (∀ (i : Instr) (s : State), ∃ t, exec i s = .next t) ∧ (∀ s : State, ∃ t, step s = .next t) ∧
    ∀ (s : State) (n : Nat), (passTime s n).clk = s.clk + n ∧ SameBytes s (passTime s n) ∧
      ∀ u, { tileOf (passTime s n) u with counters := (tileOf s u).counters } = tileOf s u

/-- R39, R133, R144, R152, R180, R213: an instruction itself changes no byte of any memory, whether it completes, waits or traps:
what it stores travels as an access, a command or a message, and changes memory when its home or its engine performs it. The copy
commands are apart: their charge may write a ring record. -/
def Obligations.InstructionsLeaveMemory : Prop :=
  ∀ (i : Instr) (s t : State), isA i = true ∨ isX i = true → mayCharge i = false → exec i s = .next t → SameBytes s t

/-- R46, R57, R128, R152, R235: what an instruction never touches. An instruction of the access side leaves the task of every other
tile alone, and, but for one that suspends or ends its task, the g-, p- and v-registers and acc of its own; an X instruction
leaves the a-registers, the loops, the k registers, the PC and the tensor entries, and of the other tiles everything but the
ring values on their way to its ring successor. -/
def Obligations.SidesStayApart : Prop :=
  (∀ (i : Instr) (s t : State), isA i = true → exec i s = .next t →
    (∀ u, u ≠ s.cur.tile → (tileOf t u).task = (tileOf s u).task ∧ (tileOf t u).run = (tileOf s u).run) ∧
    ((tileOf t s.cur.tile).run ≠ .idle → (tileOf s s.cur.tile).run ≠ .idle →
      let k := (tileOf s s.cur.tile).task
      let k' := (tileOf t s.cur.tile).task
      k'.g = k.g ∧ k'.p = k.p ∧ k'.v = k.v ∧ k'.acc = k.acc ∧ k'.gtid = k.gtid)) ∧
  ∀ (i : Instr) (s t : State), isX i = true → exec i s = .next t →
    let tl := tileOf s s.cur.tile
    let tl' := tileOf t s.cur.tile
    tl'.task.a = tl.task.a ∧ tl'.task.lc = tl.task.lc ∧ tl'.task.k = tl.task.k ∧ tl'.task.pc = tl.task.pc ∧ tl'.tt = tl.tt ∧
      tl'.nbar = tl.nbar ∧ t.cohorts = s.cohorts ∧ t.launches = s.launches ∧ t.quads = s.quads ∧ t.dies = s.dies ∧
      ∀ u, u ≠ s.cur.tile →
        (u ≠ ringSuccessor s s.cur.tile → tileOf t u = tileOf s u) ∧
        { tileOf t u with riNet := (tileOf s u).riNet } = tileOf s u

/-- The memories keep their canonical form: whatever the state, a step that starts with every byte memory in canonical form (edge
memory, host memories, scratchpads with their versions, quad memories, and those in save areas) ends with every one in it, so that
equal memories stay equal data. -/
def Obligations.StepsKeepMemories : Prop :=
  ∀ s t : State, s.memsOk = true → step s = .next t → t.memsOk = true
end

