-- ==== Sys2Proof/Laws/Memory.lean ====
section
/-! SUPPORT. Laws of the sparse tables and byte memories: a read after a write, and that every memory operation keeps the
canonical form. -/

namespace Sys2Proof.Machine

/-! ## Sorted tables -/

/-- Every key of a table is above a bound. -/
def above (k : Nat) (m : SMap α) : Prop := ∀ e ∈ m, k < e.1

theorem smSorted_cons (k : Nat) (v : α) (m : SMap α) :
    smSorted ((k, v) :: m) = true ↔ above k m ∧ smSorted m = true := by
  induction m generalizing k v with
  | nil => simp [smSorted, above]
  | cons e r ih =>
    obtain ⟨k', v'⟩ := e
    have := ih k' v'
    simp only [smSorted, Bool.and_eq_true, decide_eq_true_eq, above, List.mem_cons, forall_eq_or_imp] at *
    constructor
    · rintro ⟨h, hs⟩
      exact ⟨⟨h, fun e he => Nat.lt_trans h ((this.mp hs).1 e he)⟩, hs⟩
    · rintro ⟨⟨h, _⟩, hs⟩
      exact ⟨h, hs⟩

theorem smSorted_tail {e : Nat × α} {m : SMap α} (h : smSorted (e :: m) = true) : smSorted m = true :=
  ((smSorted_cons e.1 e.2 m).mp h).2

theorem mem_smSet {k : Nat} {v : α} {m : SMap α} {e : Nat × α} (h : e ∈ smSet k v m) : e = (k, v) ∨ e ∈ m := by
  induction m with
  | nil => simpa [smSet] using h
  | cons c r ih =>
    simp only [smSet] at h
    split at h
    · simpa using h
    · split at h
      · rcases List.mem_cons.mp h with h | h
        · exact .inl h
        · exact .inr (List.mem_cons_of_mem _ h)
      · simp only [List.mem_cons] at h ⊢
        rcases h with h | h
        · exact .inr (.inl h)
        · rcases ih h with h | h <;> simp [h]

theorem smSet_sorted {k : Nat} {v : α} {m : SMap α} (h : smSorted m = true) : smSorted (smSet k v m) = true := by
  induction m with
  | nil => rfl
  | cons c r ih =>
    obtain ⟨k', v'⟩ := c
    obtain ⟨ha, hr⟩ := (smSorted_cons k' v' r).mp h
    simp only [smSet]
    split
    · next hk =>
      refine (smSorted_cons _ _ _).mpr ⟨?_, h⟩
      intro e he
      rcases List.mem_cons.mp he with rfl | he
      · exact hk
      · exact Nat.lt_trans hk (ha e he)
    · split
      · next hk =>
        rw [beq_iff_eq] at hk
        exact (smSorted_cons _ _ _).mpr ⟨hk ▸ ha, hr⟩
      · next h1 h2 =>
        simp only [beq_iff_eq] at h2
        refine (smSorted_cons _ _ _).mpr ⟨?_, ih hr⟩
        intro e he
        rcases mem_smSet he with rfl | he
        · show k' < k
          omega
        · exact ha e he

theorem mem_smErase {k : Nat} {m : SMap α} {e : Nat × α} (h : e ∈ smErase k m) : e ∈ m := by
  induction m with
  | nil => simp [smErase] at h
  | cons c r ih =>
    simp only [smErase] at h
    split at h
    · exact List.mem_cons_of_mem _ h
    · rcases List.mem_cons.mp h with rfl | h
      · simp
      · exact List.mem_cons_of_mem _ (ih h)

theorem smErase_sorted {k : Nat} {m : SMap α} (h : smSorted m = true) : smSorted (smErase k m) = true := by
  induction m with
  | nil => rfl
  | cons c r ih =>
    obtain ⟨ha, hr⟩ := (smSorted_cons c.1 c.2 r).mp h
    simp only [smErase]
    split
    · exact hr
    · exact (smSorted_cons _ _ _).mpr ⟨fun e he => ha e (mem_smErase he), ih hr⟩

theorem filter_sorted {m : SMap α} (p : Nat × α → Bool) (h : smSorted m = true) : smSorted (m.filter p) = true := by
  induction m with
  | nil => rfl
  | cons c r ih =>
    obtain ⟨ha, hr⟩ := (smSorted_cons c.1 c.2 r).mp h
    simp only [List.filter_cons]
    split
    · exact (smSorted_cons _ _ _).mpr ⟨fun e he => ha e ((List.mem_filter.mp he).1), ih hr⟩
    · exact ih hr

/-! ## Reading after writing -/

@[simp] theorem smGet_smSet_self (d : α) (k : Nat) (v : α) (m : SMap α) : smGet d k (smSet k v m) = v := by
  induction m with
  | nil => simp [smSet, smGet]
  | cons c r ih =>
    simp only [smSet]
    split
    · simp [smGet]
    · split
      · simp [smGet]
      · next h1 h2 =>
        have : ¬ c.1 = k := by
          simp only [beq_iff_eq] at h2
          omega
        simp [smGet, this, ih]

theorem smGet_smSet_ne (d : α) {k j : Nat} (v : α) (m : SMap α) (h : j ≠ k) :
    smGet d j (smSet k v m) = smGet d j m := by
  induction m with
  | nil => simp [smSet, smGet, Ne.symm h]
  | cons c r ih =>
    simp only [smSet]
    split
    · simp [smGet, Ne.symm h]
    · split
      · next h2 =>
        rw [beq_iff_eq] at h2
        simp [smGet, Ne.symm h, h2 ▸ Ne.symm h]
      · simp only [smGet, ih]

theorem smGet_above (d : α) {k : Nat} {m : SMap α} (h : above k m) : smGet d k m = d := by
  induction m with
  | nil => rfl
  | cons c r ih =>
    have hc : k < c.1 := h c (by simp)
    have : ¬ c.1 = k := by omega
    simp only [smGet, beq_iff_eq, this, if_false]
    exact ih fun e he => h e (List.mem_cons_of_mem _ he)

theorem smGet_smErase_self (d : α) (k : Nat) {m : SMap α} (h : smSorted m = true) : smGet d k (smErase k m) = d := by
  induction m with
  | nil => rfl
  | cons c r ih =>
    obtain ⟨ha, hr⟩ := (smSorted_cons c.1 c.2 r).mp h
    simp only [smErase]
    split
    · next h2 =>
      rw [beq_iff_eq] at h2
      exact smGet_above d (h2 ▸ ha)
    · next h2 =>
      simp only [smGet, h2]
      simpa using ih hr

theorem smGet_smErase_ne (d : α) {k j : Nat} (m : SMap α) (h : j ≠ k) : smGet d j (smErase k m) = smGet d j m := by
  induction m with
  | nil => rfl
  | cons c r ih =>
    simp only [smErase]
    split
    · next h2 =>
      rw [beq_iff_eq] at h2
      simp [smGet, h2 ▸ Ne.symm h]
    · simp only [smGet, ih]

theorem smFind_smSet_self (k : Nat) (v : α) (m : SMap α) : smFind k (smSet k v m) = some v := by
  induction m with
  | nil => simp [smSet, smFind]
  | cons c r ih =>
    simp only [smSet]
    split
    · simp [smFind]
    · split
      · simp [smFind]
      · next h1 h2 =>
        have : ¬ c.1 = k := by
          simp only [beq_iff_eq] at h2
          omega
        simp [smFind, this, ih]

theorem smFind_smSet_ne {k j : Nat} (v : α) (m : SMap α) (h : j ≠ k) : smFind j (smSet k v m) = smFind j m := by
  induction m with
  | nil => simp [smSet, smFind, Ne.symm h]
  | cons c r ih =>
    simp only [smSet]
    split
    · simp [smFind, Ne.symm h]
    · split
      · next h2 =>
        rw [beq_iff_eq] at h2
        simp [smFind, Ne.symm h, h2 ▸ Ne.symm h]
      · simp only [smFind, ih]

/-! ## Byte memories -/

theorem memWf_iff (m : Mem) : memWf m = true ↔ smSorted m = true ∧ ∀ c ∈ m, c.2 ≠ blank := by
  simp [memWf]

theorem memWf_nil : memWf [] = true := rfl

/-- A byte write keeps the canonical form. -/
theorem memSet_wf {m : Mem} (h : memWf m = true) (a : Nat) (b : Byte) : memWf (memSet m a b) = true := by
  obtain ⟨hs, hb⟩ := (memWf_iff m).mp h
  simp only [memSet]
  split
  · exact (memWf_iff _).mpr ⟨smErase_sorted hs, fun c hc => hb c (mem_smErase hc)⟩
  · next h1 =>
    refine (memWf_iff _).mpr ⟨smSet_sorted hs, fun c hc => ?_⟩
    rcases mem_smSet hc with rfl | hc
    · simpa using h1
    · exact hb c hc

/-- A write of several bytes keeps the canonical form. -/
theorem memWrite_wf {m : Mem} (h : memWf m = true) (a : Nat) (l : List Byte) : memWf (memWrite m a l) = true := by
  induction l generalizing m a with
  | nil => exact h
  | cons b r ih => exact ih (memSet_wf h a b) (a + 1)

theorem memFilter_wf {m : Mem} (h : memWf m = true) (p : Nat × Byte → Bool) : memWf (m.filter p) = true := by
  obtain ⟨hs, hb⟩ := (memWf_iff m).mp h
  exact (memWf_iff _).mpr ⟨filter_sorted p hs, fun c hc => hb c ((List.mem_filter.mp hc).1)⟩

/-- A slice of a memory is in canonical form. -/
theorem memSlice_wf {m : Mem} (h : memWf m = true) (lo n : Nat) : memWf (memSlice m lo n) = true := memFilter_wf h _

/-- A memory with a range cleared is in canonical form. -/
theorem memClear_wf {m : Mem} (h : memWf m = true) (lo n : Nat) : memWf (memClear m lo n) = true := memFilter_wf h _

/-- The byte written is the byte read. -/
theorem memGet_memSet_self {m : Mem} (h : memWf m = true) (a : Nat) (b : Byte) : memGet (memSet m a b) a = b := by
  obtain ⟨hs, _⟩ := (memWf_iff m).mp h
  simp only [memSet, memGet]
  split
  · next h1 =>
    rw [beq_iff_eq] at h1
    rw [smGet_smErase_self _ _ hs, h1]
  · simp

/-- A write leaves every other byte alone. -/
theorem memGet_memSet_ne (m : Mem) {a c : Nat} (b : Byte) (h : c ≠ a) : memGet (memSet m a b) c = memGet m c := by
  simp only [memSet, memGet]
  split
  · exact smGet_smErase_ne _ _ h
  · exact smGet_smSet_ne _ _ _ h

/-- A write of several bytes leaves every byte outside them alone. -/
theorem memGet_memWrite_out (m : Mem) (a c : Nat) (l : List Byte) (h : c < a ∨ a + l.length ≤ c) :
    memGet (memWrite m a l) c = memGet m c := by
  induction l generalizing m a with
  | nil => rfl
  | cons b r ih =>
    simp only [List.length_cons] at h
    rw [memWrite, ih _ _ (by omega), memGet_memSet_ne _ _ (by omega)]

/-- What a write of several bytes leaves at each of them. -/
theorem memGet_memWrite_in {m : Mem} (hm : memWf m = true) (a c : Nat) (l : List Byte) (h : a ≤ c ∧ c < a + l.length) :
    memGet (memWrite m a l) c = (l[c - a]?).getD blank := by
  induction l generalizing m a with
  | nil =>
    simp only [List.length_nil] at h
    omega
  | cons b r ih =>
    simp only [List.length_cons] at h
    rw [memWrite]
    by_cases hc : c = a
    · subst hc
      rw [memGet_memWrite_out _ _ _ _ (by omega), memGet_memSet_self hm]
      simp
    · rw [ih (memSet_wf hm a b) _ (by omega), show c - a = (c - (a + 1)) + 1 by omega]
      simp

/-- The bytes read back are the bytes written. -/
theorem memRead_memWrite {m : Mem} (hm : memWf m = true) (a : Nat) (l : List Byte) :
    memRead (memWrite m a l) a l.length = l := by
  induction l generalizing m a with
  | nil => rfl
  | cons b r ih =>
    simp only [memWrite, List.length_cons, memRead]
    rw [memGet_memWrite_out _ _ _ _ (by omega), memGet_memSet_self hm, ih (memSet_wf hm a b)]

/-! ## Little-endian numbers (R4) -/

theorem leBytes_length (v n : Nat) : (leBytes v n).length = n := by
  induction n generalizing v with
  | zero => rfl
  | succ n ih => simp [leBytes, ih]

/-- The number that the lowest bytes of a number spell. -/
theorem leNat_leBytes (v n : Nat) : leNat (leBytes v n) = v % 256 ^ n := by
  induction n generalizing v with
  | zero => simp [leBytes, leNat, Nat.mod_one]
  | succ n ih =>
    rw [leBytes, leNat, ih, BitVec.toNat_ofNat, Nat.pow_succ 256, Nat.mul_comm (256 ^ n), Nat.mod_mul]

/-- The memories of the machine are canonical right after reset. -/
theorem reset_memsOk : State.reset.memsOk = true := rfl

end Sys2Proof.Machine
end

