-- ==== Sys2Proof/Laws/State.lean ====
section
/-! SUPPORT. What every update of the state leaves in every field: one lemma for each field and update, so that no later
proof unfolds a record update. -/

namespace Sys2Proof.Machine

/-! ### `setTile` -/

section
variable (s : State) (t : Nat) (v : Tile)

@[simp] theorem setTile_agenda : (setTile s t v).agenda = s.agenda := rfl
@[simp] theorem setTile_cur : (setTile s t v).cur = s.cur := rfl
@[simp] theorem setTile_clk : (setTile s t v).clk = s.clk := rfl
@[simp] theorem setTile_freeIdx : (setTile s t v).freeIdx = s.freeIdx := rfl
@[simp] theorem setTile_nextId : (setTile s t v).nextId = s.nextId := rfl
@[simp] theorem setTile_nextAct : (setTile s t v).nextAct = s.nextAct := rfl
@[simp] theorem setTile_tiles : (setTile s t v).tiles = smSet t v s.tiles := rfl
@[simp] theorem setTile_quads : (setTile s t v).quads = s.quads := rfl
@[simp] theorem setTile_clusters : (setTile s t v).clusters = s.clusters := rfl
@[simp] theorem setTile_dies : (setTile s t v).dies = s.dies := rfl
@[simp] theorem setTile_pquads : (setTile s t v).pquads = s.pquads := rfl
@[simp] theorem setTile_cohorts : (setTile s t v).cohorts = s.cohorts := rfl
@[simp] theorem setTile_launches : (setTile s t v).launches = s.launches := rfl
@[simp] theorem setTile_nextLaunch : (setTile s t v).nextLaunch = s.nextLaunch := rfl
@[simp] theorem setTile_pages : (setTile s t v).pages = s.pages := rfl
@[simp] theorem setTile_streams : (setTile s t v).streams = s.streams := rfl
@[simp] theorem setTile_regions : (setTile s t v).regions = s.regions := rfl
@[simp] theorem setTile_tenants : (setTile s t v).tenants = s.tenants := rfl
@[simp] theorem setTile_edge : (setTile s t v).edge = s.edge := rfl
@[simp] theorem setTile_homeQ : (setTile s t v).homeQ = s.homeQ := rfl
@[simp] theorem setTile_damage : (setTile s t v).damage = s.damage := rfl
@[simp] theorem setTile_soft : (setTile s t v).soft = s.soft := rfl
@[simp] theorem setTile_ports : (setTile s t v).ports = s.ports := rfl
@[simp] theorem setTile_accs : (setTile s t v).accs = s.accs := rfl
@[simp] theorem setTile_net : (setTile s t v).net = s.net := rfl
@[simp] theorem setTile_frames : (setTile s t v).frames = s.frames := rfl
@[simp] theorem setTile_areas : (setTile s t v).areas = s.areas := rfl
@[simp] theorem setTile_requests : (setTile s t v).requests = s.requests := rfl
@[simp] theorem setTile_collTable : (setTile s t v).collTable = s.collTable := rfl
@[simp] theorem setTile_rounds : (setTile s t v).rounds = s.rounds := rfl
@[simp] theorem setTile_streamTable : (setTile s t v).streamTable = s.streamTable := rfl
@[simp] theorem setTile_streamQ : (setTile s t v).streamQ = s.streamQ := rfl
@[simp] theorem setTile_cores : (setTile s t v).cores = s.cores := rfl
@[simp] theorem setTile_sessions : (setTile s t v).sessions = s.sessions := rfl
@[simp] theorem setTile_sums : (setTile s t v).sums = s.sums := rfl
@[simp] theorem setTile_pulse : (setTile s t v).pulse = s.pulse := rfl
@[simp] theorem setTile_spans : (setTile s t v).spans = s.spans := rfl
@[simp] theorem setTile_lostModules : (setTile s t v).lostModules = s.lostModules := rfl
@[simp] theorem setTile_links : (setTile s t v).links = s.links := rfl
@[simp] theorem setTile_mgmt : (setTile s t v).mgmt = s.mgmt := rfl
@[simp] theorem setTile_life : (setTile s t v).life = s.life := rfl
@[simp] theorem setTile_lifeSaved : (setTile s t v).lifeSaved = s.lifeSaved := rfl
@[simp] theorem setTile_irqs : (setTile s t v).irqs = s.irqs := rfl
@[simp] theorem setTile_reply : (setTile s t v).reply = s.reply := rfl

end

/-! ### `setQuad` -/

section
variable (s : State) (q : Nat) (v : Quad)

@[simp] theorem setQuad_agenda : (setQuad s q v).agenda = s.agenda := rfl
@[simp] theorem setQuad_cur : (setQuad s q v).cur = s.cur := rfl
@[simp] theorem setQuad_clk : (setQuad s q v).clk = s.clk := rfl
@[simp] theorem setQuad_freeIdx : (setQuad s q v).freeIdx = s.freeIdx := rfl
@[simp] theorem setQuad_nextId : (setQuad s q v).nextId = s.nextId := rfl
@[simp] theorem setQuad_nextAct : (setQuad s q v).nextAct = s.nextAct := rfl
@[simp] theorem setQuad_tiles : (setQuad s q v).tiles = s.tiles := rfl
@[simp] theorem setQuad_quads : (setQuad s q v).quads = smSet q v s.quads := rfl
@[simp] theorem setQuad_clusters : (setQuad s q v).clusters = s.clusters := rfl
@[simp] theorem setQuad_dies : (setQuad s q v).dies = s.dies := rfl
@[simp] theorem setQuad_pquads : (setQuad s q v).pquads = s.pquads := rfl
@[simp] theorem setQuad_cohorts : (setQuad s q v).cohorts = s.cohorts := rfl
@[simp] theorem setQuad_launches : (setQuad s q v).launches = s.launches := rfl
@[simp] theorem setQuad_nextLaunch : (setQuad s q v).nextLaunch = s.nextLaunch := rfl
@[simp] theorem setQuad_pages : (setQuad s q v).pages = s.pages := rfl
@[simp] theorem setQuad_streams : (setQuad s q v).streams = s.streams := rfl
@[simp] theorem setQuad_regions : (setQuad s q v).regions = s.regions := rfl
@[simp] theorem setQuad_tenants : (setQuad s q v).tenants = s.tenants := rfl
@[simp] theorem setQuad_edge : (setQuad s q v).edge = s.edge := rfl
@[simp] theorem setQuad_homeQ : (setQuad s q v).homeQ = s.homeQ := rfl
@[simp] theorem setQuad_damage : (setQuad s q v).damage = s.damage := rfl
@[simp] theorem setQuad_soft : (setQuad s q v).soft = s.soft := rfl
@[simp] theorem setQuad_ports : (setQuad s q v).ports = s.ports := rfl
@[simp] theorem setQuad_accs : (setQuad s q v).accs = s.accs := rfl
@[simp] theorem setQuad_net : (setQuad s q v).net = s.net := rfl
@[simp] theorem setQuad_frames : (setQuad s q v).frames = s.frames := rfl
@[simp] theorem setQuad_areas : (setQuad s q v).areas = s.areas := rfl
@[simp] theorem setQuad_requests : (setQuad s q v).requests = s.requests := rfl
@[simp] theorem setQuad_collTable : (setQuad s q v).collTable = s.collTable := rfl
@[simp] theorem setQuad_rounds : (setQuad s q v).rounds = s.rounds := rfl
@[simp] theorem setQuad_streamTable : (setQuad s q v).streamTable = s.streamTable := rfl
@[simp] theorem setQuad_streamQ : (setQuad s q v).streamQ = s.streamQ := rfl
@[simp] theorem setQuad_cores : (setQuad s q v).cores = s.cores := rfl
@[simp] theorem setQuad_sessions : (setQuad s q v).sessions = s.sessions := rfl
@[simp] theorem setQuad_sums : (setQuad s q v).sums = s.sums := rfl
@[simp] theorem setQuad_pulse : (setQuad s q v).pulse = s.pulse := rfl
@[simp] theorem setQuad_spans : (setQuad s q v).spans = s.spans := rfl
@[simp] theorem setQuad_lostModules : (setQuad s q v).lostModules = s.lostModules := rfl
@[simp] theorem setQuad_links : (setQuad s q v).links = s.links := rfl
@[simp] theorem setQuad_mgmt : (setQuad s q v).mgmt = s.mgmt := rfl
@[simp] theorem setQuad_life : (setQuad s q v).life = s.life := rfl
@[simp] theorem setQuad_lifeSaved : (setQuad s q v).lifeSaved = s.lifeSaved := rfl
@[simp] theorem setQuad_irqs : (setQuad s q v).irqs = s.irqs := rfl
@[simp] theorem setQuad_reply : (setQuad s q v).reply = s.reply := rfl

end

/-! ### `setCluster` -/

section
variable (s : State) (c : Nat) (v : Cluster)

@[simp] theorem setCluster_agenda : (setCluster s c v).agenda = s.agenda := rfl
@[simp] theorem setCluster_cur : (setCluster s c v).cur = s.cur := rfl
@[simp] theorem setCluster_clk : (setCluster s c v).clk = s.clk := rfl
@[simp] theorem setCluster_freeIdx : (setCluster s c v).freeIdx = s.freeIdx := rfl
@[simp] theorem setCluster_nextId : (setCluster s c v).nextId = s.nextId := rfl
@[simp] theorem setCluster_nextAct : (setCluster s c v).nextAct = s.nextAct := rfl
@[simp] theorem setCluster_tiles : (setCluster s c v).tiles = s.tiles := rfl
@[simp] theorem setCluster_quads : (setCluster s c v).quads = s.quads := rfl
@[simp] theorem setCluster_clusters : (setCluster s c v).clusters = smSet c v s.clusters := rfl
@[simp] theorem setCluster_dies : (setCluster s c v).dies = s.dies := rfl
@[simp] theorem setCluster_pquads : (setCluster s c v).pquads = s.pquads := rfl
@[simp] theorem setCluster_cohorts : (setCluster s c v).cohorts = s.cohorts := rfl
@[simp] theorem setCluster_launches : (setCluster s c v).launches = s.launches := rfl
@[simp] theorem setCluster_nextLaunch : (setCluster s c v).nextLaunch = s.nextLaunch := rfl
@[simp] theorem setCluster_pages : (setCluster s c v).pages = s.pages := rfl
@[simp] theorem setCluster_streams : (setCluster s c v).streams = s.streams := rfl
@[simp] theorem setCluster_regions : (setCluster s c v).regions = s.regions := rfl
@[simp] theorem setCluster_tenants : (setCluster s c v).tenants = s.tenants := rfl
@[simp] theorem setCluster_edge : (setCluster s c v).edge = s.edge := rfl
@[simp] theorem setCluster_homeQ : (setCluster s c v).homeQ = s.homeQ := rfl
@[simp] theorem setCluster_damage : (setCluster s c v).damage = s.damage := rfl
@[simp] theorem setCluster_soft : (setCluster s c v).soft = s.soft := rfl
@[simp] theorem setCluster_ports : (setCluster s c v).ports = s.ports := rfl
@[simp] theorem setCluster_accs : (setCluster s c v).accs = s.accs := rfl
@[simp] theorem setCluster_net : (setCluster s c v).net = s.net := rfl
@[simp] theorem setCluster_frames : (setCluster s c v).frames = s.frames := rfl
@[simp] theorem setCluster_areas : (setCluster s c v).areas = s.areas := rfl
@[simp] theorem setCluster_requests : (setCluster s c v).requests = s.requests := rfl
@[simp] theorem setCluster_collTable : (setCluster s c v).collTable = s.collTable := rfl
@[simp] theorem setCluster_rounds : (setCluster s c v).rounds = s.rounds := rfl
@[simp] theorem setCluster_streamTable : (setCluster s c v).streamTable = s.streamTable := rfl
@[simp] theorem setCluster_streamQ : (setCluster s c v).streamQ = s.streamQ := rfl
@[simp] theorem setCluster_cores : (setCluster s c v).cores = s.cores := rfl
@[simp] theorem setCluster_sessions : (setCluster s c v).sessions = s.sessions := rfl
@[simp] theorem setCluster_sums : (setCluster s c v).sums = s.sums := rfl
@[simp] theorem setCluster_pulse : (setCluster s c v).pulse = s.pulse := rfl
@[simp] theorem setCluster_spans : (setCluster s c v).spans = s.spans := rfl
@[simp] theorem setCluster_lostModules : (setCluster s c v).lostModules = s.lostModules := rfl
@[simp] theorem setCluster_links : (setCluster s c v).links = s.links := rfl
@[simp] theorem setCluster_mgmt : (setCluster s c v).mgmt = s.mgmt := rfl
@[simp] theorem setCluster_life : (setCluster s c v).life = s.life := rfl
@[simp] theorem setCluster_lifeSaved : (setCluster s c v).lifeSaved = s.lifeSaved := rfl
@[simp] theorem setCluster_irqs : (setCluster s c v).irqs = s.irqs := rfl
@[simp] theorem setCluster_reply : (setCluster s c v).reply = s.reply := rfl

end

/-! ### `setDie` -/

section
variable (s : State) (d : Nat) (v : Die)

@[simp] theorem setDie_agenda : (setDie s d v).agenda = s.agenda := rfl
@[simp] theorem setDie_cur : (setDie s d v).cur = s.cur := rfl
@[simp] theorem setDie_clk : (setDie s d v).clk = s.clk := rfl
@[simp] theorem setDie_freeIdx : (setDie s d v).freeIdx = s.freeIdx := rfl
@[simp] theorem setDie_nextId : (setDie s d v).nextId = s.nextId := rfl
@[simp] theorem setDie_nextAct : (setDie s d v).nextAct = s.nextAct := rfl
@[simp] theorem setDie_tiles : (setDie s d v).tiles = s.tiles := rfl
@[simp] theorem setDie_quads : (setDie s d v).quads = s.quads := rfl
@[simp] theorem setDie_clusters : (setDie s d v).clusters = s.clusters := rfl
@[simp] theorem setDie_dies : (setDie s d v).dies = smSet d v s.dies := rfl
@[simp] theorem setDie_pquads : (setDie s d v).pquads = s.pquads := rfl
@[simp] theorem setDie_cohorts : (setDie s d v).cohorts = s.cohorts := rfl
@[simp] theorem setDie_launches : (setDie s d v).launches = s.launches := rfl
@[simp] theorem setDie_nextLaunch : (setDie s d v).nextLaunch = s.nextLaunch := rfl
@[simp] theorem setDie_pages : (setDie s d v).pages = s.pages := rfl
@[simp] theorem setDie_streams : (setDie s d v).streams = s.streams := rfl
@[simp] theorem setDie_regions : (setDie s d v).regions = s.regions := rfl
@[simp] theorem setDie_tenants : (setDie s d v).tenants = s.tenants := rfl
@[simp] theorem setDie_edge : (setDie s d v).edge = s.edge := rfl
@[simp] theorem setDie_homeQ : (setDie s d v).homeQ = s.homeQ := rfl
@[simp] theorem setDie_damage : (setDie s d v).damage = s.damage := rfl
@[simp] theorem setDie_soft : (setDie s d v).soft = s.soft := rfl
@[simp] theorem setDie_ports : (setDie s d v).ports = s.ports := rfl
@[simp] theorem setDie_accs : (setDie s d v).accs = s.accs := rfl
@[simp] theorem setDie_net : (setDie s d v).net = s.net := rfl
@[simp] theorem setDie_frames : (setDie s d v).frames = s.frames := rfl
@[simp] theorem setDie_areas : (setDie s d v).areas = s.areas := rfl
@[simp] theorem setDie_requests : (setDie s d v).requests = s.requests := rfl
@[simp] theorem setDie_collTable : (setDie s d v).collTable = s.collTable := rfl
@[simp] theorem setDie_rounds : (setDie s d v).rounds = s.rounds := rfl
@[simp] theorem setDie_streamTable : (setDie s d v).streamTable = s.streamTable := rfl
@[simp] theorem setDie_streamQ : (setDie s d v).streamQ = s.streamQ := rfl
@[simp] theorem setDie_cores : (setDie s d v).cores = s.cores := rfl
@[simp] theorem setDie_sessions : (setDie s d v).sessions = s.sessions := rfl
@[simp] theorem setDie_sums : (setDie s d v).sums = s.sums := rfl
@[simp] theorem setDie_pulse : (setDie s d v).pulse = s.pulse := rfl
@[simp] theorem setDie_spans : (setDie s d v).spans = s.spans := rfl
@[simp] theorem setDie_lostModules : (setDie s d v).lostModules = s.lostModules := rfl
@[simp] theorem setDie_links : (setDie s d v).links = s.links := rfl
@[simp] theorem setDie_mgmt : (setDie s d v).mgmt = s.mgmt := rfl
@[simp] theorem setDie_life : (setDie s d v).life = s.life := rfl
@[simp] theorem setDie_lifeSaved : (setDie s d v).lifeSaved = s.lifeSaved := rfl
@[simp] theorem setDie_irqs : (setDie s d v).irqs = s.irqs := rfl
@[simp] theorem setDie_reply : (setDie s d v).reply = s.reply := rfl

end

/-! ### `setCore` -/

section
variable (s : State) (c : Nat) (v : Core_)

@[simp] theorem setCore_agenda : (setCore s c v).agenda = s.agenda := rfl
@[simp] theorem setCore_cur : (setCore s c v).cur = s.cur := rfl
@[simp] theorem setCore_clk : (setCore s c v).clk = s.clk := rfl
@[simp] theorem setCore_freeIdx : (setCore s c v).freeIdx = s.freeIdx := rfl
@[simp] theorem setCore_nextId : (setCore s c v).nextId = s.nextId := rfl
@[simp] theorem setCore_nextAct : (setCore s c v).nextAct = s.nextAct := rfl
@[simp] theorem setCore_tiles : (setCore s c v).tiles = s.tiles := rfl
@[simp] theorem setCore_quads : (setCore s c v).quads = s.quads := rfl
@[simp] theorem setCore_clusters : (setCore s c v).clusters = s.clusters := rfl
@[simp] theorem setCore_dies : (setCore s c v).dies = s.dies := rfl
@[simp] theorem setCore_pquads : (setCore s c v).pquads = s.pquads := rfl
@[simp] theorem setCore_cohorts : (setCore s c v).cohorts = s.cohorts := rfl
@[simp] theorem setCore_launches : (setCore s c v).launches = s.launches := rfl
@[simp] theorem setCore_nextLaunch : (setCore s c v).nextLaunch = s.nextLaunch := rfl
@[simp] theorem setCore_pages : (setCore s c v).pages = s.pages := rfl
@[simp] theorem setCore_streams : (setCore s c v).streams = s.streams := rfl
@[simp] theorem setCore_regions : (setCore s c v).regions = s.regions := rfl
@[simp] theorem setCore_tenants : (setCore s c v).tenants = s.tenants := rfl
@[simp] theorem setCore_edge : (setCore s c v).edge = s.edge := rfl
@[simp] theorem setCore_homeQ : (setCore s c v).homeQ = s.homeQ := rfl
@[simp] theorem setCore_damage : (setCore s c v).damage = s.damage := rfl
@[simp] theorem setCore_soft : (setCore s c v).soft = s.soft := rfl
@[simp] theorem setCore_ports : (setCore s c v).ports = s.ports := rfl
@[simp] theorem setCore_accs : (setCore s c v).accs = s.accs := rfl
@[simp] theorem setCore_net : (setCore s c v).net = s.net := rfl
@[simp] theorem setCore_frames : (setCore s c v).frames = s.frames := rfl
@[simp] theorem setCore_areas : (setCore s c v).areas = s.areas := rfl
@[simp] theorem setCore_requests : (setCore s c v).requests = s.requests := rfl
@[simp] theorem setCore_collTable : (setCore s c v).collTable = s.collTable := rfl
@[simp] theorem setCore_rounds : (setCore s c v).rounds = s.rounds := rfl
@[simp] theorem setCore_streamTable : (setCore s c v).streamTable = s.streamTable := rfl
@[simp] theorem setCore_streamQ : (setCore s c v).streamQ = s.streamQ := rfl
@[simp] theorem setCore_cores : (setCore s c v).cores = smSet c v s.cores := rfl
@[simp] theorem setCore_sessions : (setCore s c v).sessions = s.sessions := rfl
@[simp] theorem setCore_sums : (setCore s c v).sums = s.sums := rfl
@[simp] theorem setCore_pulse : (setCore s c v).pulse = s.pulse := rfl
@[simp] theorem setCore_spans : (setCore s c v).spans = s.spans := rfl
@[simp] theorem setCore_lostModules : (setCore s c v).lostModules = s.lostModules := rfl
@[simp] theorem setCore_links : (setCore s c v).links = s.links := rfl
@[simp] theorem setCore_mgmt : (setCore s c v).mgmt = s.mgmt := rfl
@[simp] theorem setCore_life : (setCore s c v).life = s.life := rfl
@[simp] theorem setCore_lifeSaved : (setCore s c v).lifeSaved = s.lifeSaved := rfl
@[simp] theorem setCore_irqs : (setCore s c v).irqs = s.irqs := rfl
@[simp] theorem setCore_reply : (setCore s c v).reply = s.reply := rfl

end

/-! ### `setPort` -/

section
variable (s : State) (p : Nat) (v : Port)

@[simp] theorem setPort_agenda : (setPort s p v).agenda = s.agenda := rfl
@[simp] theorem setPort_cur : (setPort s p v).cur = s.cur := rfl
@[simp] theorem setPort_clk : (setPort s p v).clk = s.clk := rfl
@[simp] theorem setPort_freeIdx : (setPort s p v).freeIdx = s.freeIdx := rfl
@[simp] theorem setPort_nextId : (setPort s p v).nextId = s.nextId := rfl
@[simp] theorem setPort_nextAct : (setPort s p v).nextAct = s.nextAct := rfl
@[simp] theorem setPort_tiles : (setPort s p v).tiles = s.tiles := rfl
@[simp] theorem setPort_quads : (setPort s p v).quads = s.quads := rfl
@[simp] theorem setPort_clusters : (setPort s p v).clusters = s.clusters := rfl
@[simp] theorem setPort_dies : (setPort s p v).dies = s.dies := rfl
@[simp] theorem setPort_pquads : (setPort s p v).pquads = s.pquads := rfl
@[simp] theorem setPort_cohorts : (setPort s p v).cohorts = s.cohorts := rfl
@[simp] theorem setPort_launches : (setPort s p v).launches = s.launches := rfl
@[simp] theorem setPort_nextLaunch : (setPort s p v).nextLaunch = s.nextLaunch := rfl
@[simp] theorem setPort_pages : (setPort s p v).pages = s.pages := rfl
@[simp] theorem setPort_streams : (setPort s p v).streams = s.streams := rfl
@[simp] theorem setPort_regions : (setPort s p v).regions = s.regions := rfl
@[simp] theorem setPort_tenants : (setPort s p v).tenants = s.tenants := rfl
@[simp] theorem setPort_edge : (setPort s p v).edge = s.edge := rfl
@[simp] theorem setPort_homeQ : (setPort s p v).homeQ = s.homeQ := rfl
@[simp] theorem setPort_damage : (setPort s p v).damage = s.damage := rfl
@[simp] theorem setPort_soft : (setPort s p v).soft = s.soft := rfl
@[simp] theorem setPort_ports : (setPort s p v).ports = smSet p v s.ports := rfl
@[simp] theorem setPort_accs : (setPort s p v).accs = s.accs := rfl
@[simp] theorem setPort_net : (setPort s p v).net = s.net := rfl
@[simp] theorem setPort_frames : (setPort s p v).frames = s.frames := rfl
@[simp] theorem setPort_areas : (setPort s p v).areas = s.areas := rfl
@[simp] theorem setPort_requests : (setPort s p v).requests = s.requests := rfl
@[simp] theorem setPort_collTable : (setPort s p v).collTable = s.collTable := rfl
@[simp] theorem setPort_rounds : (setPort s p v).rounds = s.rounds := rfl
@[simp] theorem setPort_streamTable : (setPort s p v).streamTable = s.streamTable := rfl
@[simp] theorem setPort_streamQ : (setPort s p v).streamQ = s.streamQ := rfl
@[simp] theorem setPort_cores : (setPort s p v).cores = s.cores := rfl
@[simp] theorem setPort_sessions : (setPort s p v).sessions = s.sessions := rfl
@[simp] theorem setPort_sums : (setPort s p v).sums = s.sums := rfl
@[simp] theorem setPort_pulse : (setPort s p v).pulse = s.pulse := rfl
@[simp] theorem setPort_spans : (setPort s p v).spans = s.spans := rfl
@[simp] theorem setPort_lostModules : (setPort s p v).lostModules = s.lostModules := rfl
@[simp] theorem setPort_links : (setPort s p v).links = s.links := rfl
@[simp] theorem setPort_mgmt : (setPort s p v).mgmt = s.mgmt := rfl
@[simp] theorem setPort_life : (setPort s p v).life = s.life := rfl
@[simp] theorem setPort_lifeSaved : (setPort s p v).lifeSaved = s.lifeSaved := rfl
@[simp] theorem setPort_irqs : (setPort s p v).irqs = s.irqs := rfl
@[simp] theorem setPort_reply : (setPort s p v).reply = s.reply := rfl

end

/-! ### `setSession` -/

section
variable (s : State) (g : Nat) (v : Session)

@[simp] theorem setSession_agenda : (setSession s g v).agenda = s.agenda := rfl
@[simp] theorem setSession_cur : (setSession s g v).cur = s.cur := rfl
@[simp] theorem setSession_clk : (setSession s g v).clk = s.clk := rfl
@[simp] theorem setSession_freeIdx : (setSession s g v).freeIdx = s.freeIdx := rfl
@[simp] theorem setSession_nextId : (setSession s g v).nextId = s.nextId := rfl
@[simp] theorem setSession_nextAct : (setSession s g v).nextAct = s.nextAct := rfl
@[simp] theorem setSession_tiles : (setSession s g v).tiles = s.tiles := rfl
@[simp] theorem setSession_quads : (setSession s g v).quads = s.quads := rfl
@[simp] theorem setSession_clusters : (setSession s g v).clusters = s.clusters := rfl
@[simp] theorem setSession_dies : (setSession s g v).dies = s.dies := rfl
@[simp] theorem setSession_pquads : (setSession s g v).pquads = s.pquads := rfl
@[simp] theorem setSession_cohorts : (setSession s g v).cohorts = s.cohorts := rfl
@[simp] theorem setSession_launches : (setSession s g v).launches = s.launches := rfl
@[simp] theorem setSession_nextLaunch : (setSession s g v).nextLaunch = s.nextLaunch := rfl
@[simp] theorem setSession_pages : (setSession s g v).pages = s.pages := rfl
@[simp] theorem setSession_streams : (setSession s g v).streams = s.streams := rfl
@[simp] theorem setSession_regions : (setSession s g v).regions = s.regions := rfl
@[simp] theorem setSession_tenants : (setSession s g v).tenants = s.tenants := rfl
@[simp] theorem setSession_edge : (setSession s g v).edge = s.edge := rfl
@[simp] theorem setSession_homeQ : (setSession s g v).homeQ = s.homeQ := rfl
@[simp] theorem setSession_damage : (setSession s g v).damage = s.damage := rfl
@[simp] theorem setSession_soft : (setSession s g v).soft = s.soft := rfl
@[simp] theorem setSession_ports : (setSession s g v).ports = s.ports := rfl
@[simp] theorem setSession_accs : (setSession s g v).accs = s.accs := rfl
@[simp] theorem setSession_net : (setSession s g v).net = s.net := rfl
@[simp] theorem setSession_frames : (setSession s g v).frames = s.frames := rfl
@[simp] theorem setSession_areas : (setSession s g v).areas = s.areas := rfl
@[simp] theorem setSession_requests : (setSession s g v).requests = s.requests := rfl
@[simp] theorem setSession_collTable : (setSession s g v).collTable = s.collTable := rfl
@[simp] theorem setSession_rounds : (setSession s g v).rounds = s.rounds := rfl
@[simp] theorem setSession_streamTable : (setSession s g v).streamTable = s.streamTable := rfl
@[simp] theorem setSession_streamQ : (setSession s g v).streamQ = s.streamQ := rfl
@[simp] theorem setSession_cores : (setSession s g v).cores = s.cores := rfl
@[simp] theorem setSession_sessions : (setSession s g v).sessions = smSet g v s.sessions := rfl
@[simp] theorem setSession_sums : (setSession s g v).sums = s.sums := rfl
@[simp] theorem setSession_pulse : (setSession s g v).pulse = s.pulse := rfl
@[simp] theorem setSession_spans : (setSession s g v).spans = s.spans := rfl
@[simp] theorem setSession_lostModules : (setSession s g v).lostModules = s.lostModules := rfl
@[simp] theorem setSession_links : (setSession s g v).links = s.links := rfl
@[simp] theorem setSession_mgmt : (setSession s g v).mgmt = s.mgmt := rfl
@[simp] theorem setSession_life : (setSession s g v).life = s.life := rfl
@[simp] theorem setSession_lifeSaved : (setSession s g v).lifeSaved = s.lifeSaved := rfl
@[simp] theorem setSession_irqs : (setSession s g v).irqs = s.irqs := rfl
@[simp] theorem setSession_reply : (setSession s g v).reply = s.reply := rfl

end

/-! ### `setPQuad` -/

section
variable (s : State) (p : Nat) (v : PQuad)

@[simp] theorem setPQuad_agenda : (setPQuad s p v).agenda = s.agenda := rfl
@[simp] theorem setPQuad_cur : (setPQuad s p v).cur = s.cur := rfl
@[simp] theorem setPQuad_clk : (setPQuad s p v).clk = s.clk := rfl
@[simp] theorem setPQuad_freeIdx : (setPQuad s p v).freeIdx = s.freeIdx := rfl
@[simp] theorem setPQuad_nextId : (setPQuad s p v).nextId = s.nextId := rfl
@[simp] theorem setPQuad_nextAct : (setPQuad s p v).nextAct = s.nextAct := rfl
@[simp] theorem setPQuad_tiles : (setPQuad s p v).tiles = s.tiles := rfl
@[simp] theorem setPQuad_quads : (setPQuad s p v).quads = s.quads := rfl
@[simp] theorem setPQuad_clusters : (setPQuad s p v).clusters = s.clusters := rfl
@[simp] theorem setPQuad_dies : (setPQuad s p v).dies = s.dies := rfl
@[simp] theorem setPQuad_pquads : (setPQuad s p v).pquads = smSet p v s.pquads := rfl
@[simp] theorem setPQuad_cohorts : (setPQuad s p v).cohorts = s.cohorts := rfl
@[simp] theorem setPQuad_launches : (setPQuad s p v).launches = s.launches := rfl
@[simp] theorem setPQuad_nextLaunch : (setPQuad s p v).nextLaunch = s.nextLaunch := rfl
@[simp] theorem setPQuad_pages : (setPQuad s p v).pages = s.pages := rfl
@[simp] theorem setPQuad_streams : (setPQuad s p v).streams = s.streams := rfl
@[simp] theorem setPQuad_regions : (setPQuad s p v).regions = s.regions := rfl
@[simp] theorem setPQuad_tenants : (setPQuad s p v).tenants = s.tenants := rfl
@[simp] theorem setPQuad_edge : (setPQuad s p v).edge = s.edge := rfl
@[simp] theorem setPQuad_homeQ : (setPQuad s p v).homeQ = s.homeQ := rfl
@[simp] theorem setPQuad_damage : (setPQuad s p v).damage = s.damage := rfl
@[simp] theorem setPQuad_soft : (setPQuad s p v).soft = s.soft := rfl
@[simp] theorem setPQuad_ports : (setPQuad s p v).ports = s.ports := rfl
@[simp] theorem setPQuad_accs : (setPQuad s p v).accs = s.accs := rfl
@[simp] theorem setPQuad_net : (setPQuad s p v).net = s.net := rfl
@[simp] theorem setPQuad_frames : (setPQuad s p v).frames = s.frames := rfl
@[simp] theorem setPQuad_areas : (setPQuad s p v).areas = s.areas := rfl
@[simp] theorem setPQuad_requests : (setPQuad s p v).requests = s.requests := rfl
@[simp] theorem setPQuad_collTable : (setPQuad s p v).collTable = s.collTable := rfl
@[simp] theorem setPQuad_rounds : (setPQuad s p v).rounds = s.rounds := rfl
@[simp] theorem setPQuad_streamTable : (setPQuad s p v).streamTable = s.streamTable := rfl
@[simp] theorem setPQuad_streamQ : (setPQuad s p v).streamQ = s.streamQ := rfl
@[simp] theorem setPQuad_cores : (setPQuad s p v).cores = s.cores := rfl
@[simp] theorem setPQuad_sessions : (setPQuad s p v).sessions = s.sessions := rfl
@[simp] theorem setPQuad_sums : (setPQuad s p v).sums = s.sums := rfl
@[simp] theorem setPQuad_pulse : (setPQuad s p v).pulse = s.pulse := rfl
@[simp] theorem setPQuad_spans : (setPQuad s p v).spans = s.spans := rfl
@[simp] theorem setPQuad_lostModules : (setPQuad s p v).lostModules = s.lostModules := rfl
@[simp] theorem setPQuad_links : (setPQuad s p v).links = s.links := rfl
@[simp] theorem setPQuad_mgmt : (setPQuad s p v).mgmt = s.mgmt := rfl
@[simp] theorem setPQuad_life : (setPQuad s p v).life = s.life := rfl
@[simp] theorem setPQuad_lifeSaved : (setPQuad s p v).lifeSaved = s.lifeSaved := rfl
@[simp] theorem setPQuad_irqs : (setPQuad s p v).irqs = s.irqs := rfl
@[simp] theorem setPQuad_reply : (setPQuad s p v).reply = s.reply := rfl

end

/-! ### `setCohort` -/

section
variable (s : State) (k : Nat) (v : Cohort)

@[simp] theorem setCohort_agenda : (setCohort s k v).agenda = s.agenda := rfl
@[simp] theorem setCohort_cur : (setCohort s k v).cur = s.cur := rfl
@[simp] theorem setCohort_clk : (setCohort s k v).clk = s.clk := rfl
@[simp] theorem setCohort_freeIdx : (setCohort s k v).freeIdx = s.freeIdx := rfl
@[simp] theorem setCohort_nextId : (setCohort s k v).nextId = s.nextId := rfl
@[simp] theorem setCohort_nextAct : (setCohort s k v).nextAct = s.nextAct := rfl
@[simp] theorem setCohort_tiles : (setCohort s k v).tiles = s.tiles := rfl
@[simp] theorem setCohort_quads : (setCohort s k v).quads = s.quads := rfl
@[simp] theorem setCohort_clusters : (setCohort s k v).clusters = s.clusters := rfl
@[simp] theorem setCohort_dies : (setCohort s k v).dies = s.dies := rfl
@[simp] theorem setCohort_pquads : (setCohort s k v).pquads = s.pquads := rfl
@[simp] theorem setCohort_cohorts : (setCohort s k v).cohorts = smSet k v s.cohorts := rfl
@[simp] theorem setCohort_launches : (setCohort s k v).launches = s.launches := rfl
@[simp] theorem setCohort_nextLaunch : (setCohort s k v).nextLaunch = s.nextLaunch := rfl
@[simp] theorem setCohort_pages : (setCohort s k v).pages = s.pages := rfl
@[simp] theorem setCohort_streams : (setCohort s k v).streams = s.streams := rfl
@[simp] theorem setCohort_regions : (setCohort s k v).regions = s.regions := rfl
@[simp] theorem setCohort_tenants : (setCohort s k v).tenants = s.tenants := rfl
@[simp] theorem setCohort_edge : (setCohort s k v).edge = s.edge := rfl
@[simp] theorem setCohort_homeQ : (setCohort s k v).homeQ = s.homeQ := rfl
@[simp] theorem setCohort_damage : (setCohort s k v).damage = s.damage := rfl
@[simp] theorem setCohort_soft : (setCohort s k v).soft = s.soft := rfl
@[simp] theorem setCohort_ports : (setCohort s k v).ports = s.ports := rfl
@[simp] theorem setCohort_accs : (setCohort s k v).accs = s.accs := rfl
@[simp] theorem setCohort_net : (setCohort s k v).net = s.net := rfl
@[simp] theorem setCohort_frames : (setCohort s k v).frames = s.frames := rfl
@[simp] theorem setCohort_areas : (setCohort s k v).areas = s.areas := rfl
@[simp] theorem setCohort_requests : (setCohort s k v).requests = s.requests := rfl
@[simp] theorem setCohort_collTable : (setCohort s k v).collTable = s.collTable := rfl
@[simp] theorem setCohort_rounds : (setCohort s k v).rounds = s.rounds := rfl
@[simp] theorem setCohort_streamTable : (setCohort s k v).streamTable = s.streamTable := rfl
@[simp] theorem setCohort_streamQ : (setCohort s k v).streamQ = s.streamQ := rfl
@[simp] theorem setCohort_cores : (setCohort s k v).cores = s.cores := rfl
@[simp] theorem setCohort_sessions : (setCohort s k v).sessions = s.sessions := rfl
@[simp] theorem setCohort_sums : (setCohort s k v).sums = s.sums := rfl
@[simp] theorem setCohort_pulse : (setCohort s k v).pulse = s.pulse := rfl
@[simp] theorem setCohort_spans : (setCohort s k v).spans = s.spans := rfl
@[simp] theorem setCohort_lostModules : (setCohort s k v).lostModules = s.lostModules := rfl
@[simp] theorem setCohort_links : (setCohort s k v).links = s.links := rfl
@[simp] theorem setCohort_mgmt : (setCohort s k v).mgmt = s.mgmt := rfl
@[simp] theorem setCohort_life : (setCohort s k v).life = s.life := rfl
@[simp] theorem setCohort_lifeSaved : (setCohort s k v).lifeSaved = s.lifeSaved := rfl
@[simp] theorem setCohort_irqs : (setCohort s k v).irqs = s.irqs := rfl
@[simp] theorem setCohort_reply : (setCohort s k v).reply = s.reply := rfl

end

/-! ### `setLaunch` -/

section
variable (s : State) (k : Nat) (v : Launch)

@[simp] theorem setLaunch_agenda : (setLaunch s k v).agenda = s.agenda := rfl
@[simp] theorem setLaunch_cur : (setLaunch s k v).cur = s.cur := rfl
@[simp] theorem setLaunch_clk : (setLaunch s k v).clk = s.clk := rfl
@[simp] theorem setLaunch_freeIdx : (setLaunch s k v).freeIdx = s.freeIdx := rfl
@[simp] theorem setLaunch_nextId : (setLaunch s k v).nextId = s.nextId := rfl
@[simp] theorem setLaunch_nextAct : (setLaunch s k v).nextAct = s.nextAct := rfl
@[simp] theorem setLaunch_tiles : (setLaunch s k v).tiles = s.tiles := rfl
@[simp] theorem setLaunch_quads : (setLaunch s k v).quads = s.quads := rfl
@[simp] theorem setLaunch_clusters : (setLaunch s k v).clusters = s.clusters := rfl
@[simp] theorem setLaunch_dies : (setLaunch s k v).dies = s.dies := rfl
@[simp] theorem setLaunch_pquads : (setLaunch s k v).pquads = s.pquads := rfl
@[simp] theorem setLaunch_cohorts : (setLaunch s k v).cohorts = s.cohorts := rfl
@[simp] theorem setLaunch_launches : (setLaunch s k v).launches = smSet k v s.launches := rfl
@[simp] theorem setLaunch_nextLaunch : (setLaunch s k v).nextLaunch = s.nextLaunch := rfl
@[simp] theorem setLaunch_pages : (setLaunch s k v).pages = s.pages := rfl
@[simp] theorem setLaunch_streams : (setLaunch s k v).streams = s.streams := rfl
@[simp] theorem setLaunch_regions : (setLaunch s k v).regions = s.regions := rfl
@[simp] theorem setLaunch_tenants : (setLaunch s k v).tenants = s.tenants := rfl
@[simp] theorem setLaunch_edge : (setLaunch s k v).edge = s.edge := rfl
@[simp] theorem setLaunch_homeQ : (setLaunch s k v).homeQ = s.homeQ := rfl
@[simp] theorem setLaunch_damage : (setLaunch s k v).damage = s.damage := rfl
@[simp] theorem setLaunch_soft : (setLaunch s k v).soft = s.soft := rfl
@[simp] theorem setLaunch_ports : (setLaunch s k v).ports = s.ports := rfl
@[simp] theorem setLaunch_accs : (setLaunch s k v).accs = s.accs := rfl
@[simp] theorem setLaunch_net : (setLaunch s k v).net = s.net := rfl
@[simp] theorem setLaunch_frames : (setLaunch s k v).frames = s.frames := rfl
@[simp] theorem setLaunch_areas : (setLaunch s k v).areas = s.areas := rfl
@[simp] theorem setLaunch_requests : (setLaunch s k v).requests = s.requests := rfl
@[simp] theorem setLaunch_collTable : (setLaunch s k v).collTable = s.collTable := rfl
@[simp] theorem setLaunch_rounds : (setLaunch s k v).rounds = s.rounds := rfl
@[simp] theorem setLaunch_streamTable : (setLaunch s k v).streamTable = s.streamTable := rfl
@[simp] theorem setLaunch_streamQ : (setLaunch s k v).streamQ = s.streamQ := rfl
@[simp] theorem setLaunch_cores : (setLaunch s k v).cores = s.cores := rfl
@[simp] theorem setLaunch_sessions : (setLaunch s k v).sessions = s.sessions := rfl
@[simp] theorem setLaunch_sums : (setLaunch s k v).sums = s.sums := rfl
@[simp] theorem setLaunch_pulse : (setLaunch s k v).pulse = s.pulse := rfl
@[simp] theorem setLaunch_spans : (setLaunch s k v).spans = s.spans := rfl
@[simp] theorem setLaunch_lostModules : (setLaunch s k v).lostModules = s.lostModules := rfl
@[simp] theorem setLaunch_links : (setLaunch s k v).links = s.links := rfl
@[simp] theorem setLaunch_mgmt : (setLaunch s k v).mgmt = s.mgmt := rfl
@[simp] theorem setLaunch_life : (setLaunch s k v).life = s.life := rfl
@[simp] theorem setLaunch_lifeSaved : (setLaunch s k v).lifeSaved = s.lifeSaved := rfl
@[simp] theorem setLaunch_irqs : (setLaunch s k v).irqs = s.irqs := rfl
@[simp] theorem setLaunch_reply : (setLaunch s k v).reply = s.reply := rfl

end

/-! ### `setCurTile` -/

section
variable (s : State) (v : Tile)

@[simp] theorem setCurTile_agenda : (setCurTile s v).agenda = s.agenda := rfl
@[simp] theorem setCurTile_cur : (setCurTile s v).cur = s.cur := rfl
@[simp] theorem setCurTile_clk : (setCurTile s v).clk = s.clk := rfl
@[simp] theorem setCurTile_freeIdx : (setCurTile s v).freeIdx = s.freeIdx := rfl
@[simp] theorem setCurTile_nextId : (setCurTile s v).nextId = s.nextId := rfl
@[simp] theorem setCurTile_nextAct : (setCurTile s v).nextAct = s.nextAct := rfl
@[simp] theorem setCurTile_tiles : (setCurTile s v).tiles = smSet s.cur.tile v s.tiles := rfl
@[simp] theorem setCurTile_quads : (setCurTile s v).quads = s.quads := rfl
@[simp] theorem setCurTile_clusters : (setCurTile s v).clusters = s.clusters := rfl
@[simp] theorem setCurTile_dies : (setCurTile s v).dies = s.dies := rfl
@[simp] theorem setCurTile_pquads : (setCurTile s v).pquads = s.pquads := rfl
@[simp] theorem setCurTile_cohorts : (setCurTile s v).cohorts = s.cohorts := rfl
@[simp] theorem setCurTile_launches : (setCurTile s v).launches = s.launches := rfl
@[simp] theorem setCurTile_nextLaunch : (setCurTile s v).nextLaunch = s.nextLaunch := rfl
@[simp] theorem setCurTile_pages : (setCurTile s v).pages = s.pages := rfl
@[simp] theorem setCurTile_streams : (setCurTile s v).streams = s.streams := rfl
@[simp] theorem setCurTile_regions : (setCurTile s v).regions = s.regions := rfl
@[simp] theorem setCurTile_tenants : (setCurTile s v).tenants = s.tenants := rfl
@[simp] theorem setCurTile_edge : (setCurTile s v).edge = s.edge := rfl
@[simp] theorem setCurTile_homeQ : (setCurTile s v).homeQ = s.homeQ := rfl
@[simp] theorem setCurTile_damage : (setCurTile s v).damage = s.damage := rfl
@[simp] theorem setCurTile_soft : (setCurTile s v).soft = s.soft := rfl
@[simp] theorem setCurTile_ports : (setCurTile s v).ports = s.ports := rfl
@[simp] theorem setCurTile_accs : (setCurTile s v).accs = s.accs := rfl
@[simp] theorem setCurTile_net : (setCurTile s v).net = s.net := rfl
@[simp] theorem setCurTile_frames : (setCurTile s v).frames = s.frames := rfl
@[simp] theorem setCurTile_areas : (setCurTile s v).areas = s.areas := rfl
@[simp] theorem setCurTile_requests : (setCurTile s v).requests = s.requests := rfl
@[simp] theorem setCurTile_collTable : (setCurTile s v).collTable = s.collTable := rfl
@[simp] theorem setCurTile_rounds : (setCurTile s v).rounds = s.rounds := rfl
@[simp] theorem setCurTile_streamTable : (setCurTile s v).streamTable = s.streamTable := rfl
@[simp] theorem setCurTile_streamQ : (setCurTile s v).streamQ = s.streamQ := rfl
@[simp] theorem setCurTile_cores : (setCurTile s v).cores = s.cores := rfl
@[simp] theorem setCurTile_sessions : (setCurTile s v).sessions = s.sessions := rfl
@[simp] theorem setCurTile_sums : (setCurTile s v).sums = s.sums := rfl
@[simp] theorem setCurTile_pulse : (setCurTile s v).pulse = s.pulse := rfl
@[simp] theorem setCurTile_spans : (setCurTile s v).spans = s.spans := rfl
@[simp] theorem setCurTile_lostModules : (setCurTile s v).lostModules = s.lostModules := rfl
@[simp] theorem setCurTile_links : (setCurTile s v).links = s.links := rfl
@[simp] theorem setCurTile_mgmt : (setCurTile s v).mgmt = s.mgmt := rfl
@[simp] theorem setCurTile_life : (setCurTile s v).life = s.life := rfl
@[simp] theorem setCurTile_lifeSaved : (setCurTile s v).lifeSaved = s.lifeSaved := rfl
@[simp] theorem setCurTile_irqs : (setCurTile s v).irqs = s.irqs := rfl
@[simp] theorem setCurTile_reply : (setCurTile s v).reply = s.reply := rfl

end

/-! ### `setCurTask` -/

section
variable (s : State) (v : Task)

@[simp] theorem setCurTask_agenda : (setCurTask s v).agenda = s.agenda := rfl
@[simp] theorem setCurTask_cur : (setCurTask s v).cur = s.cur := rfl
@[simp] theorem setCurTask_clk : (setCurTask s v).clk = s.clk := rfl
@[simp] theorem setCurTask_freeIdx : (setCurTask s v).freeIdx = s.freeIdx := rfl
@[simp] theorem setCurTask_nextId : (setCurTask s v).nextId = s.nextId := rfl
@[simp] theorem setCurTask_nextAct : (setCurTask s v).nextAct = s.nextAct := rfl
@[simp] theorem setCurTask_tiles : (setCurTask s v).tiles = smSet s.cur.tile { curTile s with task := v } s.tiles := rfl
@[simp] theorem setCurTask_quads : (setCurTask s v).quads = s.quads := rfl
@[simp] theorem setCurTask_clusters : (setCurTask s v).clusters = s.clusters := rfl
@[simp] theorem setCurTask_dies : (setCurTask s v).dies = s.dies := rfl
@[simp] theorem setCurTask_pquads : (setCurTask s v).pquads = s.pquads := rfl
@[simp] theorem setCurTask_cohorts : (setCurTask s v).cohorts = s.cohorts := rfl
@[simp] theorem setCurTask_launches : (setCurTask s v).launches = s.launches := rfl
@[simp] theorem setCurTask_nextLaunch : (setCurTask s v).nextLaunch = s.nextLaunch := rfl
@[simp] theorem setCurTask_pages : (setCurTask s v).pages = s.pages := rfl
@[simp] theorem setCurTask_streams : (setCurTask s v).streams = s.streams := rfl
@[simp] theorem setCurTask_regions : (setCurTask s v).regions = s.regions := rfl
@[simp] theorem setCurTask_tenants : (setCurTask s v).tenants = s.tenants := rfl
@[simp] theorem setCurTask_edge : (setCurTask s v).edge = s.edge := rfl
@[simp] theorem setCurTask_homeQ : (setCurTask s v).homeQ = s.homeQ := rfl
@[simp] theorem setCurTask_damage : (setCurTask s v).damage = s.damage := rfl
@[simp] theorem setCurTask_soft : (setCurTask s v).soft = s.soft := rfl
@[simp] theorem setCurTask_ports : (setCurTask s v).ports = s.ports := rfl
@[simp] theorem setCurTask_accs : (setCurTask s v).accs = s.accs := rfl
@[simp] theorem setCurTask_net : (setCurTask s v).net = s.net := rfl
@[simp] theorem setCurTask_frames : (setCurTask s v).frames = s.frames := rfl
@[simp] theorem setCurTask_areas : (setCurTask s v).areas = s.areas := rfl
@[simp] theorem setCurTask_requests : (setCurTask s v).requests = s.requests := rfl
@[simp] theorem setCurTask_collTable : (setCurTask s v).collTable = s.collTable := rfl
@[simp] theorem setCurTask_rounds : (setCurTask s v).rounds = s.rounds := rfl
@[simp] theorem setCurTask_streamTable : (setCurTask s v).streamTable = s.streamTable := rfl
@[simp] theorem setCurTask_streamQ : (setCurTask s v).streamQ = s.streamQ := rfl
@[simp] theorem setCurTask_cores : (setCurTask s v).cores = s.cores := rfl
@[simp] theorem setCurTask_sessions : (setCurTask s v).sessions = s.sessions := rfl
@[simp] theorem setCurTask_sums : (setCurTask s v).sums = s.sums := rfl
@[simp] theorem setCurTask_pulse : (setCurTask s v).pulse = s.pulse := rfl
@[simp] theorem setCurTask_spans : (setCurTask s v).spans = s.spans := rfl
@[simp] theorem setCurTask_lostModules : (setCurTask s v).lostModules = s.lostModules := rfl
@[simp] theorem setCurTask_links : (setCurTask s v).links = s.links := rfl
@[simp] theorem setCurTask_mgmt : (setCurTask s v).mgmt = s.mgmt := rfl
@[simp] theorem setCurTask_life : (setCurTask s v).life = s.life := rfl
@[simp] theorem setCurTask_lifeSaved : (setCurTask s v).lifeSaved = s.lifeSaved := rfl
@[simp] theorem setCurTask_irqs : (setCurTask s v).irqs = s.irqs := rfl
@[simp] theorem setCurTask_reply : (setCurTask s v).reply = s.reply := rfl

end

/-! ### Reading back -/

section
variable (s : State)


@[simp] theorem tileOf_setTile_self (k : Nat) (v : Tile) : tileOf (setTile s k v) k = v := smGet_smSet_self _ _ _ _

theorem tileOf_setTile_ne {k j : Nat} (v : Tile) (h : j ≠ k) : tileOf (setTile s k v) j = tileOf s j := smGet_smSet_ne _ _ _ h

@[simp] theorem quadAt_setTile (k j : Nat) (v : Tile) : quadAt (setTile s k v) j = quadAt s j := rfl

@[simp] theorem dieAt_setTile (k j : Nat) (v : Tile) : dieAt (setTile s k v) j = dieAt s j := rfl

@[simp] theorem portAt_setTile (k j : Nat) (v : Tile) : portAt (setTile s k v) j = portAt s j := rfl

@[simp] theorem sessionAt_setTile (k j : Nat) (v : Tile) : sessionAt (setTile s k v) j = sessionAt s j := rfl

@[simp] theorem quadAt_setQuad_self (k : Nat) (v : Quad) : quadAt (setQuad s k v) k = v := smGet_smSet_self _ _ _ _

theorem quadAt_setQuad_ne {k j : Nat} (v : Quad) (h : j ≠ k) : quadAt (setQuad s k v) j = quadAt s j := smGet_smSet_ne _ _ _ h

@[simp] theorem tileOf_setQuad (k j : Nat) (v : Quad) : tileOf (setQuad s k v) j = tileOf s j := rfl

@[simp] theorem dieAt_setQuad (k j : Nat) (v : Quad) : dieAt (setQuad s k v) j = dieAt s j := rfl

@[simp] theorem portAt_setQuad (k j : Nat) (v : Quad) : portAt (setQuad s k v) j = portAt s j := rfl

@[simp] theorem sessionAt_setQuad (k j : Nat) (v : Quad) : sessionAt (setQuad s k v) j = sessionAt s j := rfl

@[simp] theorem clusterAt_setCluster_self (k : Nat) (v : Cluster) : clusterAt (setCluster s k v) k = v := smGet_smSet_self _ _ _ _

theorem clusterAt_setCluster_ne {k j : Nat} (v : Cluster) (h : j ≠ k) : clusterAt (setCluster s k v) j = clusterAt s j := smGet_smSet_ne _ _ _ h

@[simp] theorem tileOf_setCluster (k j : Nat) (v : Cluster) : tileOf (setCluster s k v) j = tileOf s j := rfl

@[simp] theorem quadAt_setCluster (k j : Nat) (v : Cluster) : quadAt (setCluster s k v) j = quadAt s j := rfl

@[simp] theorem dieAt_setCluster (k j : Nat) (v : Cluster) : dieAt (setCluster s k v) j = dieAt s j := rfl

@[simp] theorem portAt_setCluster (k j : Nat) (v : Cluster) : portAt (setCluster s k v) j = portAt s j := rfl

@[simp] theorem sessionAt_setCluster (k j : Nat) (v : Cluster) : sessionAt (setCluster s k v) j = sessionAt s j := rfl

@[simp] theorem dieAt_setDie_self (k : Nat) (v : Die) : dieAt (setDie s k v) k = v := smGet_smSet_self _ _ _ _

theorem dieAt_setDie_ne {k j : Nat} (v : Die) (h : j ≠ k) : dieAt (setDie s k v) j = dieAt s j := smGet_smSet_ne _ _ _ h

@[simp] theorem tileOf_setDie (k j : Nat) (v : Die) : tileOf (setDie s k v) j = tileOf s j := rfl

@[simp] theorem quadAt_setDie (k j : Nat) (v : Die) : quadAt (setDie s k v) j = quadAt s j := rfl

@[simp] theorem portAt_setDie (k j : Nat) (v : Die) : portAt (setDie s k v) j = portAt s j := rfl

@[simp] theorem sessionAt_setDie (k j : Nat) (v : Die) : sessionAt (setDie s k v) j = sessionAt s j := rfl

@[simp] theorem coreAt_setCore_self (k : Nat) (v : Core_) : coreAt (setCore s k v) k = v := smGet_smSet_self _ _ _ _

theorem coreAt_setCore_ne {k j : Nat} (v : Core_) (h : j ≠ k) : coreAt (setCore s k v) j = coreAt s j := smGet_smSet_ne _ _ _ h

@[simp] theorem tileOf_setCore (k j : Nat) (v : Core_) : tileOf (setCore s k v) j = tileOf s j := rfl

@[simp] theorem quadAt_setCore (k j : Nat) (v : Core_) : quadAt (setCore s k v) j = quadAt s j := rfl

@[simp] theorem dieAt_setCore (k j : Nat) (v : Core_) : dieAt (setCore s k v) j = dieAt s j := rfl

@[simp] theorem portAt_setCore (k j : Nat) (v : Core_) : portAt (setCore s k v) j = portAt s j := rfl

@[simp] theorem sessionAt_setCore (k j : Nat) (v : Core_) : sessionAt (setCore s k v) j = sessionAt s j := rfl

@[simp] theorem portAt_setPort_self (k : Nat) (v : Port) : portAt (setPort s k v) k = v := smGet_smSet_self _ _ _ _

theorem portAt_setPort_ne {k j : Nat} (v : Port) (h : j ≠ k) : portAt (setPort s k v) j = portAt s j := smGet_smSet_ne _ _ _ h

@[simp] theorem tileOf_setPort (k j : Nat) (v : Port) : tileOf (setPort s k v) j = tileOf s j := rfl

@[simp] theorem quadAt_setPort (k j : Nat) (v : Port) : quadAt (setPort s k v) j = quadAt s j := rfl

@[simp] theorem dieAt_setPort (k j : Nat) (v : Port) : dieAt (setPort s k v) j = dieAt s j := rfl

@[simp] theorem sessionAt_setPort (k j : Nat) (v : Port) : sessionAt (setPort s k v) j = sessionAt s j := rfl

@[simp] theorem sessionAt_setSession_self (k : Nat) (v : Session) : sessionAt (setSession s k v) k = v := smGet_smSet_self _ _ _ _

theorem sessionAt_setSession_ne {k j : Nat} (v : Session) (h : j ≠ k) : sessionAt (setSession s k v) j = sessionAt s j := smGet_smSet_ne _ _ _ h

@[simp] theorem tileOf_setSession (k j : Nat) (v : Session) : tileOf (setSession s k v) j = tileOf s j := rfl

@[simp] theorem quadAt_setSession (k j : Nat) (v : Session) : quadAt (setSession s k v) j = quadAt s j := rfl

@[simp] theorem dieAt_setSession (k j : Nat) (v : Session) : dieAt (setSession s k v) j = dieAt s j := rfl

@[simp] theorem portAt_setSession (k j : Nat) (v : Session) : portAt (setSession s k v) j = portAt s j := rfl

@[simp] theorem pquadAt_setPQuad_self (k : Nat) (v : PQuad) : pquadAt (setPQuad s k v) k = v := smGet_smSet_self _ _ _ _

theorem pquadAt_setPQuad_ne {k j : Nat} (v : PQuad) (h : j ≠ k) : pquadAt (setPQuad s k v) j = pquadAt s j := smGet_smSet_ne _ _ _ h

@[simp] theorem tileOf_setPQuad (k j : Nat) (v : PQuad) : tileOf (setPQuad s k v) j = tileOf s j := rfl

@[simp] theorem quadAt_setPQuad (k j : Nat) (v : PQuad) : quadAt (setPQuad s k v) j = quadAt s j := rfl

@[simp] theorem dieAt_setPQuad (k j : Nat) (v : PQuad) : dieAt (setPQuad s k v) j = dieAt s j := rfl

@[simp] theorem portAt_setPQuad (k j : Nat) (v : PQuad) : portAt (setPQuad s k v) j = portAt s j := rfl

@[simp] theorem sessionAt_setPQuad (k j : Nat) (v : PQuad) : sessionAt (setPQuad s k v) j = sessionAt s j := rfl

@[simp] theorem curTile_setCurTile (v : Tile) : curTile (setCurTile s v) = v := smGet_smSet_self _ _ _ _

@[simp] theorem curTask_setCurTile (v : Tile) : curTask (setCurTile s v) = v.task := by simp [curTask]

@[simp] theorem curTile_setCurTask (v : Task) : curTile (setCurTask s v) = { curTile s with task := v } :=
  smGet_smSet_self _ _ _ _

@[simp] theorem curTask_setCurTask (v : Task) : curTask (setCurTask s v) = v := by simp [curTask]

theorem tileOf_setCurTile_ne {j : Nat} (v : Tile) (h : j ≠ s.cur.tile) : tileOf (setCurTile s v) j = tileOf s j :=
  smGet_smSet_ne _ _ _ h

theorem tileOf_setCurTask_ne {j : Nat} (v : Task) (h : j ≠ s.cur.tile) : tileOf (setCurTask s v) j = tileOf s j :=
  smGet_smSet_ne _ _ _ h

end

/-! ### Registers of a task -/

section
variable (k : Task)

@[simp] theorem Task.putA_act (n : BitVec 4) (r : AReg) : (k.putA n r).act = k.act := by unfold putA; split <;> rfl
@[simp] theorem Task.putA_gtid (n : BitVec 4) (r : AReg) : (k.putA n r).gtid = k.gtid := by unfold putA; split <;> rfl
@[simp] theorem Task.putA_pc (n : BitVec 4) (r : AReg) : (k.putA n r).pc = k.pc := by unfold putA; split <;> rfl
@[simp] theorem Task.putA_xpushed (n : BitVec 4) (r : AReg) : (k.putA n r).xpushed = k.xpushed := by unfold putA; split <;> rfl
@[simp] theorem Task.putA_depth (n : BitVec 4) (r : AReg) : (k.putA n r).depth = k.depth := by unfold putA; split <;> rfl
@[simp] theorem Task.putA_lc (n : BitVec 4) (r : AReg) : (k.putA n r).lc = k.lc := by unfold putA; split <;> rfl
@[simp] theorem Task.putA_k (n : BitVec 4) (r : AReg) : (k.putA n r).k = k.k := by unfold putA; split <;> rfl
@[simp] theorem Task.putA_g (n : BitVec 4) (r : AReg) : (k.putA n r).g = k.g := by unfold putA; split <;> rfl
@[simp] theorem Task.putA_p (n : BitVec 4) (r : AReg) : (k.putA n r).p = k.p := by unfold putA; split <;> rfl
@[simp] theorem Task.putA_v (n : BitVec 4) (r : AReg) : (k.putA n r).v = k.v := by unfold putA; split <;> rfl
@[simp] theorem Task.putA_acc (n : BitVec 4) (r : AReg) : (k.putA n r).acc = k.acc := by unfold putA; split <;> rfl
@[simp] theorem Task.putA_latchA (n : BitVec 4) (r : AReg) : (k.putA n r).latchA = k.latchA := by unfold putA; split <;> rfl
@[simp] theorem Task.putA_latchB (n : BitVec 4) (r : AReg) : (k.putA n r).latchB = k.latchB := by unfold putA; split <;> rfl
@[simp] theorem Task.putA_taken (n : BitVec 4) (r : AReg) : (k.putA n r).taken = k.taken := by unfold putA; split <;> rfl
@[simp] theorem Task.putA_xinstr (n : BitVec 4) (r : AReg) : (k.putA n r).xinstr = k.xinstr := by unfold putA; split <;> rfl
@[simp] theorem Task.putA_xbusy (n : BitVec 4) (r : AReg) : (k.putA n r).xbusy = k.xbusy := by unfold putA; split <;> rfl
@[simp] theorem Task.putA_lq0 (n : BitVec 4) (r : AReg) : (k.putA n r).lq0 = k.lq0 := by unfold putA; split <;> rfl
@[simp] theorem Task.putA_lq1 (n : BitVec 4) (r : AReg) : (k.putA n r).lq1 = k.lq1 := by unfold putA; split <;> rfl
@[simp] theorem Task.putA_lqTail0 (n : BitVec 4) (r : AReg) : (k.putA n r).lqTail0 = k.lqTail0 := by unfold putA; split <;> rfl
@[simp] theorem Task.putA_lqTail1 (n : BitVec 4) (r : AReg) : (k.putA n r).lqTail1 = k.lqTail1 := by unfold putA; split <;> rfl
@[simp] theorem Task.putA_sq (n : BitVec 4) (r : AReg) : (k.putA n r).sq = k.sq := by unfold putA; split <;> rfl
@[simp] theorem Task.putA_xq (n : BitVec 4) (r : AReg) : (k.putA n r).xq = k.xq := by unfold putA; split <;> rfl
@[simp] theorem Task.putA_gd (n : BitVec 4) (r : AReg) : (k.putA n r).gd = k.gd := by unfold putA; split <;> rfl
@[simp] theorem Task.putA_rm (n : BitVec 4) (r : AReg) : (k.putA n r).rm = k.rm := by unfold putA; split <;> rfl
@[simp] theorem Task.putA_long (n : BitVec 4) (r : AReg) : (k.putA n r).long = k.long := by unfold putA; split <;> rfl
@[simp] theorem Task.putA_redq (n : BitVec 4) (r : AReg) : (k.putA n r).redq = k.redq := by unfold putA; split <;> rfl
@[simp] theorem Task.putA_lfsr (n : BitVec 4) (r : AReg) : (k.putA n r).lfsr = k.lfsr := by unfold putA; split <;> rfl
@[simp] theorem Task.putA_hold (n : BitVec 4) (r : AReg) : (k.putA n r).hold = k.hold := by unfold putA; split <;> rfl
@[simp] theorem Task.putA_inboxSlot (n : BitVec 4) (r : AReg) : (k.putA n r).inboxSlot = k.inboxSlot := by unfold putA; split <;> rfl
@[simp] theorem Task.putA_m (n : BitVec 4) (r : AReg) : (k.putA n r).m = k.m := by unfold putA; split <;> rfl
@[simp] theorem Task.putA_bl (n : BitVec 4) (r : AReg) : (k.putA n r).bl = k.bl := by unfold putA; split <;> rfl
@[simp] theorem Task.putA_ring (n : BitVec 4) (r : AReg) : (k.putA n r).ring = k.ring := by unfold putA; split <;> rfl
@[simp] theorem Task.putA_w (n : BitVec 4) (r : AReg) : (k.putA n r).w = k.w := by unfold putA; split <;> rfl
@[simp] theorem Task.putA_skipbp (n : BitVec 4) (r : AReg) : (k.putA n r).skipbp = k.skipbp := by unfold putA; split <;> rfl
@[simp] theorem Task.putA_stepping (n : BitVec 4) (r : AReg) : (k.putA n r).stepping = k.stepping := by unfold putA; split <;> rfl
@[simp] theorem Task.putA_filled63 (n : BitVec 4) (r : AReg) : (k.putA n r).filled63 = k.filled63 := by unfold putA; split <;> rfl

@[simp] theorem Task.putG_act (n : Nat) (w : Word) : (k.putG n w).act = k.act := by unfold putG; split <;> rfl
@[simp] theorem Task.putG_gtid (n : Nat) (w : Word) : (k.putG n w).gtid = k.gtid := by unfold putG; split <;> rfl
@[simp] theorem Task.putG_pc (n : Nat) (w : Word) : (k.putG n w).pc = k.pc := by unfold putG; split <;> rfl
@[simp] theorem Task.putG_xpushed (n : Nat) (w : Word) : (k.putG n w).xpushed = k.xpushed := by unfold putG; split <;> rfl
@[simp] theorem Task.putG_depth (n : Nat) (w : Word) : (k.putG n w).depth = k.depth := by unfold putG; split <;> rfl
@[simp] theorem Task.putG_a (n : Nat) (w : Word) : (k.putG n w).a = k.a := by unfold putG; split <;> rfl
@[simp] theorem Task.putG_lc (n : Nat) (w : Word) : (k.putG n w).lc = k.lc := by unfold putG; split <;> rfl
@[simp] theorem Task.putG_k (n : Nat) (w : Word) : (k.putG n w).k = k.k := by unfold putG; split <;> rfl
@[simp] theorem Task.putG_p (n : Nat) (w : Word) : (k.putG n w).p = k.p := by unfold putG; split <;> rfl
@[simp] theorem Task.putG_v (n : Nat) (w : Word) : (k.putG n w).v = k.v := by unfold putG; split <;> rfl
@[simp] theorem Task.putG_acc (n : Nat) (w : Word) : (k.putG n w).acc = k.acc := by unfold putG; split <;> rfl
@[simp] theorem Task.putG_latchA (n : Nat) (w : Word) : (k.putG n w).latchA = k.latchA := by unfold putG; split <;> rfl
@[simp] theorem Task.putG_latchB (n : Nat) (w : Word) : (k.putG n w).latchB = k.latchB := by unfold putG; split <;> rfl
@[simp] theorem Task.putG_taken (n : Nat) (w : Word) : (k.putG n w).taken = k.taken := by unfold putG; split <;> rfl
@[simp] theorem Task.putG_xinstr (n : Nat) (w : Word) : (k.putG n w).xinstr = k.xinstr := by unfold putG; split <;> rfl
@[simp] theorem Task.putG_xbusy (n : Nat) (w : Word) : (k.putG n w).xbusy = k.xbusy := by unfold putG; split <;> rfl
@[simp] theorem Task.putG_lq0 (n : Nat) (w : Word) : (k.putG n w).lq0 = k.lq0 := by unfold putG; split <;> rfl
@[simp] theorem Task.putG_lq1 (n : Nat) (w : Word) : (k.putG n w).lq1 = k.lq1 := by unfold putG; split <;> rfl
@[simp] theorem Task.putG_lqTail0 (n : Nat) (w : Word) : (k.putG n w).lqTail0 = k.lqTail0 := by unfold putG; split <;> rfl
@[simp] theorem Task.putG_lqTail1 (n : Nat) (w : Word) : (k.putG n w).lqTail1 = k.lqTail1 := by unfold putG; split <;> rfl
@[simp] theorem Task.putG_sq (n : Nat) (w : Word) : (k.putG n w).sq = k.sq := by unfold putG; split <;> rfl
@[simp] theorem Task.putG_xq (n : Nat) (w : Word) : (k.putG n w).xq = k.xq := by unfold putG; split <;> rfl
@[simp] theorem Task.putG_gd (n : Nat) (w : Word) : (k.putG n w).gd = k.gd := by unfold putG; split <;> rfl
@[simp] theorem Task.putG_rm (n : Nat) (w : Word) : (k.putG n w).rm = k.rm := by unfold putG; split <;> rfl
@[simp] theorem Task.putG_long (n : Nat) (w : Word) : (k.putG n w).long = k.long := by unfold putG; split <;> rfl
@[simp] theorem Task.putG_redq (n : Nat) (w : Word) : (k.putG n w).redq = k.redq := by unfold putG; split <;> rfl
@[simp] theorem Task.putG_lfsr (n : Nat) (w : Word) : (k.putG n w).lfsr = k.lfsr := by unfold putG; split <;> rfl
@[simp] theorem Task.putG_hold (n : Nat) (w : Word) : (k.putG n w).hold = k.hold := by unfold putG; split <;> rfl
@[simp] theorem Task.putG_inboxSlot (n : Nat) (w : Word) : (k.putG n w).inboxSlot = k.inboxSlot := by unfold putG; split <;> rfl
@[simp] theorem Task.putG_m (n : Nat) (w : Word) : (k.putG n w).m = k.m := by unfold putG; split <;> rfl
@[simp] theorem Task.putG_bl (n : Nat) (w : Word) : (k.putG n w).bl = k.bl := by unfold putG; split <;> rfl
@[simp] theorem Task.putG_ring (n : Nat) (w : Word) : (k.putG n w).ring = k.ring := by unfold putG; split <;> rfl
@[simp] theorem Task.putG_w (n : Nat) (w : Word) : (k.putG n w).w = k.w := by unfold putG; split <;> rfl
@[simp] theorem Task.putG_skipbp (n : Nat) (w : Word) : (k.putG n w).skipbp = k.skipbp := by unfold putG; split <;> rfl
@[simp] theorem Task.putG_stepping (n : Nat) (w : Word) : (k.putG n w).stepping = k.stepping := by unfold putG; split <;> rfl
@[simp] theorem Task.putG_filled63 (n : Nat) (w : Word) : (k.putG n w).filled63 = k.filled63 := by unfold putG; split <;> rfl

@[simp] theorem Task.putP_act (n : BitVec 3) (b : Bool) : (k.putP n b).act = k.act := by unfold putP; split <;> rfl
@[simp] theorem Task.putP_gtid (n : BitVec 3) (b : Bool) : (k.putP n b).gtid = k.gtid := by unfold putP; split <;> rfl
@[simp] theorem Task.putP_pc (n : BitVec 3) (b : Bool) : (k.putP n b).pc = k.pc := by unfold putP; split <;> rfl
@[simp] theorem Task.putP_xpushed (n : BitVec 3) (b : Bool) : (k.putP n b).xpushed = k.xpushed := by unfold putP; split <;> rfl
@[simp] theorem Task.putP_depth (n : BitVec 3) (b : Bool) : (k.putP n b).depth = k.depth := by unfold putP; split <;> rfl
@[simp] theorem Task.putP_a (n : BitVec 3) (b : Bool) : (k.putP n b).a = k.a := by unfold putP; split <;> rfl
@[simp] theorem Task.putP_lc (n : BitVec 3) (b : Bool) : (k.putP n b).lc = k.lc := by unfold putP; split <;> rfl
@[simp] theorem Task.putP_k (n : BitVec 3) (b : Bool) : (k.putP n b).k = k.k := by unfold putP; split <;> rfl
@[simp] theorem Task.putP_g (n : BitVec 3) (b : Bool) : (k.putP n b).g = k.g := by unfold putP; split <;> rfl
@[simp] theorem Task.putP_v (n : BitVec 3) (b : Bool) : (k.putP n b).v = k.v := by unfold putP; split <;> rfl
@[simp] theorem Task.putP_acc (n : BitVec 3) (b : Bool) : (k.putP n b).acc = k.acc := by unfold putP; split <;> rfl
@[simp] theorem Task.putP_latchA (n : BitVec 3) (b : Bool) : (k.putP n b).latchA = k.latchA := by unfold putP; split <;> rfl
@[simp] theorem Task.putP_latchB (n : BitVec 3) (b : Bool) : (k.putP n b).latchB = k.latchB := by unfold putP; split <;> rfl
@[simp] theorem Task.putP_taken (n : BitVec 3) (b : Bool) : (k.putP n b).taken = k.taken := by unfold putP; split <;> rfl
@[simp] theorem Task.putP_xinstr (n : BitVec 3) (b : Bool) : (k.putP n b).xinstr = k.xinstr := by unfold putP; split <;> rfl
@[simp] theorem Task.putP_xbusy (n : BitVec 3) (b : Bool) : (k.putP n b).xbusy = k.xbusy := by unfold putP; split <;> rfl
@[simp] theorem Task.putP_lq0 (n : BitVec 3) (b : Bool) : (k.putP n b).lq0 = k.lq0 := by unfold putP; split <;> rfl
@[simp] theorem Task.putP_lq1 (n : BitVec 3) (b : Bool) : (k.putP n b).lq1 = k.lq1 := by unfold putP; split <;> rfl
@[simp] theorem Task.putP_lqTail0 (n : BitVec 3) (b : Bool) : (k.putP n b).lqTail0 = k.lqTail0 := by unfold putP; split <;> rfl
@[simp] theorem Task.putP_lqTail1 (n : BitVec 3) (b : Bool) : (k.putP n b).lqTail1 = k.lqTail1 := by unfold putP; split <;> rfl
@[simp] theorem Task.putP_sq (n : BitVec 3) (b : Bool) : (k.putP n b).sq = k.sq := by unfold putP; split <;> rfl
@[simp] theorem Task.putP_xq (n : BitVec 3) (b : Bool) : (k.putP n b).xq = k.xq := by unfold putP; split <;> rfl
@[simp] theorem Task.putP_gd (n : BitVec 3) (b : Bool) : (k.putP n b).gd = k.gd := by unfold putP; split <;> rfl
@[simp] theorem Task.putP_rm (n : BitVec 3) (b : Bool) : (k.putP n b).rm = k.rm := by unfold putP; split <;> rfl
@[simp] theorem Task.putP_long (n : BitVec 3) (b : Bool) : (k.putP n b).long = k.long := by unfold putP; split <;> rfl
@[simp] theorem Task.putP_redq (n : BitVec 3) (b : Bool) : (k.putP n b).redq = k.redq := by unfold putP; split <;> rfl
@[simp] theorem Task.putP_lfsr (n : BitVec 3) (b : Bool) : (k.putP n b).lfsr = k.lfsr := by unfold putP; split <;> rfl
@[simp] theorem Task.putP_hold (n : BitVec 3) (b : Bool) : (k.putP n b).hold = k.hold := by unfold putP; split <;> rfl
@[simp] theorem Task.putP_inboxSlot (n : BitVec 3) (b : Bool) : (k.putP n b).inboxSlot = k.inboxSlot := by unfold putP; split <;> rfl
@[simp] theorem Task.putP_m (n : BitVec 3) (b : Bool) : (k.putP n b).m = k.m := by unfold putP; split <;> rfl
@[simp] theorem Task.putP_bl (n : BitVec 3) (b : Bool) : (k.putP n b).bl = k.bl := by unfold putP; split <;> rfl
@[simp] theorem Task.putP_ring (n : BitVec 3) (b : Bool) : (k.putP n b).ring = k.ring := by unfold putP; split <;> rfl
@[simp] theorem Task.putP_w (n : BitVec 3) (b : Bool) : (k.putP n b).w = k.w := by unfold putP; split <;> rfl
@[simp] theorem Task.putP_skipbp (n : BitVec 3) (b : Bool) : (k.putP n b).skipbp = k.skipbp := by unfold putP; split <;> rfl
@[simp] theorem Task.putP_stepping (n : BitVec 3) (b : Bool) : (k.putP n b).stepping = k.stepping := by unfold putP; split <;> rfl
@[simp] theorem Task.putP_filled63 (n : BitVec 3) (b : Bool) : (k.putP n b).filled63 = k.filled63 := by unfold putP; split <;> rfl

@[simp] theorem Task.putW_act (n : BitVec 6) (w : BitVec 4096) : (k.putW n w).act = k.act := by rfl
@[simp] theorem Task.putW_gtid (n : BitVec 6) (w : BitVec 4096) : (k.putW n w).gtid = k.gtid := by rfl
@[simp] theorem Task.putW_pc (n : BitVec 6) (w : BitVec 4096) : (k.putW n w).pc = k.pc := by rfl
@[simp] theorem Task.putW_xpushed (n : BitVec 6) (w : BitVec 4096) : (k.putW n w).xpushed = k.xpushed := by rfl
@[simp] theorem Task.putW_depth (n : BitVec 6) (w : BitVec 4096) : (k.putW n w).depth = k.depth := by rfl
@[simp] theorem Task.putW_a (n : BitVec 6) (w : BitVec 4096) : (k.putW n w).a = k.a := by rfl
@[simp] theorem Task.putW_lc (n : BitVec 6) (w : BitVec 4096) : (k.putW n w).lc = k.lc := by rfl
@[simp] theorem Task.putW_k (n : BitVec 6) (w : BitVec 4096) : (k.putW n w).k = k.k := by rfl
@[simp] theorem Task.putW_g (n : BitVec 6) (w : BitVec 4096) : (k.putW n w).g = k.g := by rfl
@[simp] theorem Task.putW_p (n : BitVec 6) (w : BitVec 4096) : (k.putW n w).p = k.p := by rfl
@[simp] theorem Task.putW_v (n : BitVec 6) (w : BitVec 4096) : (k.putW n w).v = k.v := by rfl
@[simp] theorem Task.putW_acc (n : BitVec 6) (w : BitVec 4096) : (k.putW n w).acc = k.acc := by rfl
@[simp] theorem Task.putW_latchA (n : BitVec 6) (w : BitVec 4096) : (k.putW n w).latchA = k.latchA := by rfl
@[simp] theorem Task.putW_latchB (n : BitVec 6) (w : BitVec 4096) : (k.putW n w).latchB = k.latchB := by rfl
@[simp] theorem Task.putW_taken (n : BitVec 6) (w : BitVec 4096) : (k.putW n w).taken = k.taken := by rfl
@[simp] theorem Task.putW_xinstr (n : BitVec 6) (w : BitVec 4096) : (k.putW n w).xinstr = k.xinstr := by rfl
@[simp] theorem Task.putW_xbusy (n : BitVec 6) (w : BitVec 4096) : (k.putW n w).xbusy = k.xbusy := by rfl
@[simp] theorem Task.putW_lq0 (n : BitVec 6) (w : BitVec 4096) : (k.putW n w).lq0 = k.lq0 := by rfl
@[simp] theorem Task.putW_lq1 (n : BitVec 6) (w : BitVec 4096) : (k.putW n w).lq1 = k.lq1 := by rfl
@[simp] theorem Task.putW_lqTail0 (n : BitVec 6) (w : BitVec 4096) : (k.putW n w).lqTail0 = k.lqTail0 := by rfl
@[simp] theorem Task.putW_lqTail1 (n : BitVec 6) (w : BitVec 4096) : (k.putW n w).lqTail1 = k.lqTail1 := by rfl
@[simp] theorem Task.putW_sq (n : BitVec 6) (w : BitVec 4096) : (k.putW n w).sq = k.sq := by rfl
@[simp] theorem Task.putW_xq (n : BitVec 6) (w : BitVec 4096) : (k.putW n w).xq = k.xq := by rfl
@[simp] theorem Task.putW_gd (n : BitVec 6) (w : BitVec 4096) : (k.putW n w).gd = k.gd := by rfl
@[simp] theorem Task.putW_rm (n : BitVec 6) (w : BitVec 4096) : (k.putW n w).rm = k.rm := by rfl
@[simp] theorem Task.putW_long (n : BitVec 6) (w : BitVec 4096) : (k.putW n w).long = k.long := by rfl
@[simp] theorem Task.putW_redq (n : BitVec 6) (w : BitVec 4096) : (k.putW n w).redq = k.redq := by rfl
@[simp] theorem Task.putW_lfsr (n : BitVec 6) (w : BitVec 4096) : (k.putW n w).lfsr = k.lfsr := by rfl
@[simp] theorem Task.putW_hold (n : BitVec 6) (w : BitVec 4096) : (k.putW n w).hold = k.hold := by rfl
@[simp] theorem Task.putW_inboxSlot (n : BitVec 6) (w : BitVec 4096) : (k.putW n w).inboxSlot = k.inboxSlot := by rfl
@[simp] theorem Task.putW_m (n : BitVec 6) (w : BitVec 4096) : (k.putW n w).m = k.m := by rfl
@[simp] theorem Task.putW_bl (n : BitVec 6) (w : BitVec 4096) : (k.putW n w).bl = k.bl := by rfl
@[simp] theorem Task.putW_ring (n : BitVec 6) (w : BitVec 4096) : (k.putW n w).ring = k.ring := by rfl
@[simp] theorem Task.putW_skipbp (n : BitVec 6) (w : BitVec 4096) : (k.putW n w).skipbp = k.skipbp := by rfl
@[simp] theorem Task.putW_stepping (n : BitVec 6) (w : BitVec 4096) : (k.putW n w).stepping = k.stepping := by rfl
@[simp] theorem Task.putW_filled63 (n : BitVec 6) (w : BitVec 4096) : (k.putW n w).filled63 = k.filled63 := by rfl

@[simp] theorem Task.popLq_act (q : BitVec 1) : (k.popLq q).act = k.act := by unfold popLq; split <;> rfl
@[simp] theorem Task.popLq_gtid (q : BitVec 1) : (k.popLq q).gtid = k.gtid := by unfold popLq; split <;> rfl
@[simp] theorem Task.popLq_pc (q : BitVec 1) : (k.popLq q).pc = k.pc := by unfold popLq; split <;> rfl
@[simp] theorem Task.popLq_xpushed (q : BitVec 1) : (k.popLq q).xpushed = k.xpushed := by unfold popLq; split <;> rfl
@[simp] theorem Task.popLq_depth (q : BitVec 1) : (k.popLq q).depth = k.depth := by unfold popLq; split <;> rfl
@[simp] theorem Task.popLq_a (q : BitVec 1) : (k.popLq q).a = k.a := by unfold popLq; split <;> rfl
@[simp] theorem Task.popLq_lc (q : BitVec 1) : (k.popLq q).lc = k.lc := by unfold popLq; split <;> rfl
@[simp] theorem Task.popLq_k (q : BitVec 1) : (k.popLq q).k = k.k := by unfold popLq; split <;> rfl
@[simp] theorem Task.popLq_g (q : BitVec 1) : (k.popLq q).g = k.g := by unfold popLq; split <;> rfl
@[simp] theorem Task.popLq_p (q : BitVec 1) : (k.popLq q).p = k.p := by unfold popLq; split <;> rfl
@[simp] theorem Task.popLq_v (q : BitVec 1) : (k.popLq q).v = k.v := by unfold popLq; split <;> rfl
@[simp] theorem Task.popLq_acc (q : BitVec 1) : (k.popLq q).acc = k.acc := by unfold popLq; split <;> rfl
@[simp] theorem Task.popLq_latchA (q : BitVec 1) : (k.popLq q).latchA = k.latchA := by unfold popLq; split <;> rfl
@[simp] theorem Task.popLq_latchB (q : BitVec 1) : (k.popLq q).latchB = k.latchB := by unfold popLq; split <;> rfl
@[simp] theorem Task.popLq_taken (q : BitVec 1) : (k.popLq q).taken = k.taken := by unfold popLq; split <;> rfl
@[simp] theorem Task.popLq_xinstr (q : BitVec 1) : (k.popLq q).xinstr = k.xinstr := by unfold popLq; split <;> rfl
@[simp] theorem Task.popLq_xbusy (q : BitVec 1) : (k.popLq q).xbusy = k.xbusy := by unfold popLq; split <;> rfl
@[simp] theorem Task.popLq_lqTail0 (q : BitVec 1) : (k.popLq q).lqTail0 = k.lqTail0 := by unfold popLq; split <;> rfl
@[simp] theorem Task.popLq_lqTail1 (q : BitVec 1) : (k.popLq q).lqTail1 = k.lqTail1 := by unfold popLq; split <;> rfl
@[simp] theorem Task.popLq_sq (q : BitVec 1) : (k.popLq q).sq = k.sq := by unfold popLq; split <;> rfl
@[simp] theorem Task.popLq_xq (q : BitVec 1) : (k.popLq q).xq = k.xq := by unfold popLq; split <;> rfl
@[simp] theorem Task.popLq_gd (q : BitVec 1) : (k.popLq q).gd = k.gd := by unfold popLq; split <;> rfl
@[simp] theorem Task.popLq_rm (q : BitVec 1) : (k.popLq q).rm = k.rm := by unfold popLq; split <;> rfl
@[simp] theorem Task.popLq_long (q : BitVec 1) : (k.popLq q).long = k.long := by unfold popLq; split <;> rfl
@[simp] theorem Task.popLq_redq (q : BitVec 1) : (k.popLq q).redq = k.redq := by unfold popLq; split <;> rfl
@[simp] theorem Task.popLq_lfsr (q : BitVec 1) : (k.popLq q).lfsr = k.lfsr := by unfold popLq; split <;> rfl
@[simp] theorem Task.popLq_hold (q : BitVec 1) : (k.popLq q).hold = k.hold := by unfold popLq; split <;> rfl
@[simp] theorem Task.popLq_inboxSlot (q : BitVec 1) : (k.popLq q).inboxSlot = k.inboxSlot := by unfold popLq; split <;> rfl
@[simp] theorem Task.popLq_m (q : BitVec 1) : (k.popLq q).m = k.m := by unfold popLq; split <;> rfl
@[simp] theorem Task.popLq_bl (q : BitVec 1) : (k.popLq q).bl = k.bl := by unfold popLq; split <;> rfl
@[simp] theorem Task.popLq_ring (q : BitVec 1) : (k.popLq q).ring = k.ring := by unfold popLq; split <;> rfl
@[simp] theorem Task.popLq_w (q : BitVec 1) : (k.popLq q).w = k.w := by unfold popLq; split <;> rfl
@[simp] theorem Task.popLq_skipbp (q : BitVec 1) : (k.popLq q).skipbp = k.skipbp := by unfold popLq; split <;> rfl
@[simp] theorem Task.popLq_stepping (q : BitVec 1) : (k.popLq q).stepping = k.stepping := by unfold popLq; split <;> rfl
@[simp] theorem Task.popLq_filled63 (q : BitVec 1) : (k.popLq q).filled63 = k.filled63 := by unfold popLq; split <;> rfl

@[simp] theorem Task.pushLq_act (q : BitVec 1) (f : LqFill) : (k.pushLq q f).act = k.act := by unfold pushLq; split <;> rfl
@[simp] theorem Task.pushLq_gtid (q : BitVec 1) (f : LqFill) : (k.pushLq q f).gtid = k.gtid := by unfold pushLq; split <;> rfl
@[simp] theorem Task.pushLq_pc (q : BitVec 1) (f : LqFill) : (k.pushLq q f).pc = k.pc := by unfold pushLq; split <;> rfl
@[simp] theorem Task.pushLq_xpushed (q : BitVec 1) (f : LqFill) : (k.pushLq q f).xpushed = k.xpushed := by unfold pushLq; split <;> rfl
@[simp] theorem Task.pushLq_depth (q : BitVec 1) (f : LqFill) : (k.pushLq q f).depth = k.depth := by unfold pushLq; split <;> rfl
@[simp] theorem Task.pushLq_a (q : BitVec 1) (f : LqFill) : (k.pushLq q f).a = k.a := by unfold pushLq; split <;> rfl
@[simp] theorem Task.pushLq_lc (q : BitVec 1) (f : LqFill) : (k.pushLq q f).lc = k.lc := by unfold pushLq; split <;> rfl
@[simp] theorem Task.pushLq_k (q : BitVec 1) (f : LqFill) : (k.pushLq q f).k = k.k := by unfold pushLq; split <;> rfl
@[simp] theorem Task.pushLq_g (q : BitVec 1) (f : LqFill) : (k.pushLq q f).g = k.g := by unfold pushLq; split <;> rfl
@[simp] theorem Task.pushLq_p (q : BitVec 1) (f : LqFill) : (k.pushLq q f).p = k.p := by unfold pushLq; split <;> rfl
@[simp] theorem Task.pushLq_v (q : BitVec 1) (f : LqFill) : (k.pushLq q f).v = k.v := by unfold pushLq; split <;> rfl
@[simp] theorem Task.pushLq_acc (q : BitVec 1) (f : LqFill) : (k.pushLq q f).acc = k.acc := by unfold pushLq; split <;> rfl
@[simp] theorem Task.pushLq_latchA (q : BitVec 1) (f : LqFill) : (k.pushLq q f).latchA = k.latchA := by unfold pushLq; split <;> rfl
@[simp] theorem Task.pushLq_latchB (q : BitVec 1) (f : LqFill) : (k.pushLq q f).latchB = k.latchB := by unfold pushLq; split <;> rfl
@[simp] theorem Task.pushLq_taken (q : BitVec 1) (f : LqFill) : (k.pushLq q f).taken = k.taken := by unfold pushLq; split <;> rfl
@[simp] theorem Task.pushLq_xinstr (q : BitVec 1) (f : LqFill) : (k.pushLq q f).xinstr = k.xinstr := by unfold pushLq; split <;> rfl
@[simp] theorem Task.pushLq_xbusy (q : BitVec 1) (f : LqFill) : (k.pushLq q f).xbusy = k.xbusy := by unfold pushLq; split <;> rfl
@[simp] theorem Task.pushLq_sq (q : BitVec 1) (f : LqFill) : (k.pushLq q f).sq = k.sq := by unfold pushLq; split <;> rfl
@[simp] theorem Task.pushLq_xq (q : BitVec 1) (f : LqFill) : (k.pushLq q f).xq = k.xq := by unfold pushLq; split <;> rfl
@[simp] theorem Task.pushLq_gd (q : BitVec 1) (f : LqFill) : (k.pushLq q f).gd = k.gd := by unfold pushLq; split <;> rfl
@[simp] theorem Task.pushLq_rm (q : BitVec 1) (f : LqFill) : (k.pushLq q f).rm = k.rm := by unfold pushLq; split <;> rfl
@[simp] theorem Task.pushLq_long (q : BitVec 1) (f : LqFill) : (k.pushLq q f).long = k.long := by unfold pushLq; split <;> rfl
@[simp] theorem Task.pushLq_redq (q : BitVec 1) (f : LqFill) : (k.pushLq q f).redq = k.redq := by unfold pushLq; split <;> rfl
@[simp] theorem Task.pushLq_lfsr (q : BitVec 1) (f : LqFill) : (k.pushLq q f).lfsr = k.lfsr := by unfold pushLq; split <;> rfl
@[simp] theorem Task.pushLq_hold (q : BitVec 1) (f : LqFill) : (k.pushLq q f).hold = k.hold := by unfold pushLq; split <;> rfl
@[simp] theorem Task.pushLq_inboxSlot (q : BitVec 1) (f : LqFill) : (k.pushLq q f).inboxSlot = k.inboxSlot := by unfold pushLq; split <;> rfl
@[simp] theorem Task.pushLq_m (q : BitVec 1) (f : LqFill) : (k.pushLq q f).m = k.m := by unfold pushLq; split <;> rfl
@[simp] theorem Task.pushLq_bl (q : BitVec 1) (f : LqFill) : (k.pushLq q f).bl = k.bl := by unfold pushLq; split <;> rfl
@[simp] theorem Task.pushLq_ring (q : BitVec 1) (f : LqFill) : (k.pushLq q f).ring = k.ring := by unfold pushLq; split <;> rfl
@[simp] theorem Task.pushLq_w (q : BitVec 1) (f : LqFill) : (k.pushLq q f).w = k.w := by unfold pushLq; split <;> rfl
@[simp] theorem Task.pushLq_skipbp (q : BitVec 1) (f : LqFill) : (k.pushLq q f).skipbp = k.skipbp := by unfold pushLq; split <;> rfl
@[simp] theorem Task.pushLq_stepping (q : BitVec 1) (f : LqFill) : (k.pushLq q f).stepping = k.stepping := by unfold pushLq; split <;> rfl
@[simp] theorem Task.pushLq_filled63 (q : BitVec 1) (f : LqFill) : (k.pushLq q f).filled63 = k.filled63 := by unfold pushLq; split <;> rfl

/-- a0 keeps reading zero (R57). -/
theorem Task.putA_zero (r : AReg) : k.putA 0#4 r = k := rfl

/-- g0 keeps reading zero (R57). -/
theorem Task.putG_zero (w : Word) : k.putG 0 w = k := rfl

/-- p0 keeps reading true (R57). -/
theorem Task.putP_zero (b : Bool) : k.putP 0#3 b = k := rfl

/-- A g register other than g0 reads what was written to it. -/
theorem Task.getG_putG_self {n : Nat} (h : n ≠ 0) (w : Word) : (k.putG n w).getG n = w := by
  simp [Task.putG, Task.getG, h]

/-- A write of a g register leaves the others alone. -/
theorem Task.getG_putG_ne {n m : Nat} (hn : n < 48) (hm : m < 48) (h : m ≠ n) (w : Word) :
    (k.putG n w).getG m = k.getG m := by
  unfold Task.putG Task.getG
  split
  · rfl
  · split
    · rfl
    · rw [Vector.getElem_set]
      split
      · omega
      · rfl

/-- A predicate other than p0 reads what was written to it. -/
theorem Task.getP_putP_self {n : BitVec 3} (h : n ≠ 0#3) (b : Bool) : (k.putP n b).getP n = b := by
  simp [Task.putP, Task.getP, h]

/-- A write of a predicate leaves the others alone. -/
theorem Task.getP_putP_ne {n m : BitVec 3} (h : m ≠ n) (b : Bool) : (k.putP n b).getP m = k.getP m := by
  unfold Task.putP Task.getP
  split
  · rfl
  · congr 1
    simp only [Fin.getElem_fin]
    rw [Vector.getElem_set]
    split
    · next h1 => exact absurd (BitVec.eq_of_toNat_eq h1).symm h
    · rfl

end

end Sys2Proof.Machine
end

