-- ==== Sys2Proof/Laws/Ops.lean ====
section
/-! SUPPORT. What each shared operation of the two sides of a tile can do, said once. -/

namespace Sys2Proof.Machine

/-! ## Counting -/

/-- Counting an event moves counters of one tile and nothing else. -/
theorem countEvent_eq (s : State) (t ev n : Nat) :
    countEvent s t ev n = s ∨ ∃ c, countEvent s t ev n = setTile s t { tileOf s t with counters := c } := by
  by_cases h : (sessionAt s (tagOf s t)).open_ = true
  · exact .inr ⟨_, if_pos h⟩
  · exact .inl (if_neg h)

@[simp] theorem countEvent_cur (s : State) (t ev n : Nat) : (countEvent s t ev n).cur = s.cur := by
  rcases countEvent_eq s t ev n with h | ⟨c, h⟩
  · rw [h]
  · rw [h]; rfl

/-- Everything outside the tiles is as before. -/
theorem countEvent_rest (s : State) (t ev n : Nat) : { countEvent s t ev n with tiles := s.tiles } = s := by
  rcases countEvent_eq s t ev n with h | ⟨c, h⟩
  · rw [h]
  · rw [h]; rfl

theorem countEvent_other (s : State) {t u : Nat} (ev n : Nat) (h : u ≠ t) :
    tileOf (countEvent s t ev n) u = tileOf s u := by
  rcases countEvent_eq s t ev n with e | ⟨c, e⟩ <;> rw [e]
  exact tileOf_setTile_ne s _ h

theorem countEvent_tile (s : State) (t ev n u : Nat) :
    { tileOf (countEvent s t ev n) u with counters := (tileOf s u).counters } = tileOf s u := by
  by_cases h : u = t
  · subst h
    rcases countEvent_eq s u ev n with e | ⟨c, e⟩ <;> rw [e]
    rw [tileOf_setTile_self]
  · rw [countEvent_other s ev n h]

theorem countEvent_task (s : State) (t ev n u : Nat) : (tileOf (countEvent s t ev n) u).task = (tileOf s u).task := by
  have h := congrArg Tile.task (countEvent_tile s t ev n u)
  exact h

/-! ## The end of a bundle -/

/-- What an issued bundle leaves. -/
theorem issued_spec (s : State) (lc : Vector Loop 2) (pc : DWord) : BundleIssued s (issued s lc pc) lc pc := by
  let s1 : State := { s with cur := { s.cur with went := true } }
  let tl := curTile s
  let v : Tile := { tl with
    task := { tl.task with
      lc := lc, pc := pc, xpushed := false, skipbp := false,
      stepping := if tl.task.stepping == .armed then .issued else tl.task.stepping }
    lines := touchLine tl.lines s.cur.pc
    lastIssue := some (s.clk, s.cur.pc)
    gap := tl.gap - 1
    mark := tl.mark.map (Mark.issue s1 s.cur.tile) }
  have e : issued s lc pc = countEvent (setTile s1 s.cur.tile v) s.cur.tile 1 1 := rfl
  have cur : (issued s lc pc).cur = s1.cur := by rw [e, countEvent_cur]; rfl
  have here : curTile (issued s lc pc) = tileOf (issued s lc pc) s.cur.tile := by rw [curTile, cur]
  have tile : { curTile (issued s lc pc) with counters := tl.counters } = v := by
    have := countEvent_tile (setTile s1 s.cur.tile v) s.cur.tile 1 1 s.cur.tile
    rw [tileOf_setTile_self] at this
    rw [here, e]
    exact this
  refine ⟨⟨?_, ?_⟩, cur, ?_, ?_, ?_, ?_⟩
  · have := countEvent_rest (setTile s1 s.cur.tile v) s.cur.tile 1 1
    rw [e]
    exact congrArg (fun x : State => { x with tiles := s.tiles, cur := s.cur }) this
  · intro u h
    rw [e, countEvent_other _ _ _ h, tileOf_setTile_ne _ _ h]
    rfl
  · exact congrArg (fun x : Tile => { x with
      task := tl.task, lines := tl.lines, lastIssue := tl.lastIssue, gap := tl.gap, mark := tl.mark }) tile
  · exact congrArg Tile.lines tile
  · exact congrArg Tile.lastIssue tile
  · exact congrArg Tile.task tile

theorem finish_spec (s : State) : FellThrough s (finish s) := issued_spec s _ _

theorem branchTo_spec (s : State) (pc : DWord) : MovedTo s (branchTo s pc) pc := issued_spec s _ _

/-- An instruction whose meaning is a finished bundle completes. -/
theorem Completes.of_finish {i : Instr} {s s' : State} (h : exec i s = .next (finish s')) : Completes i s s' :=
  ⟨_, h, finish_spec s'⟩

/-- An instruction whose meaning is a branch moves control. -/
theorem Jumps.of_branch {i : Instr} {s s' : State} {pc : DWord} (h : exec i s = .next (branchTo s' pc)) :
    Jumps i s s' pc := ⟨_, h, branchTo_spec s' pc⟩

/-! ## Registers and gates of the access side -/

theorem firstPoison_ready {s : State} {rs : List (BitVec 4)} (h : ReadyA s rs) : firstPoison s rs = none := by
  induction rs with
  | nil => rfl
  | cons n r ih =>
    simp only [firstPoison, h n (by simp)]
    exact ih fun m hm => h m (by simp [hm])

/-- Ready sources and free destinations pass the gate. -/
theorem regGate_ready {s : State} {rs ws : List (BitVec 4)} (hr : ReadyA s rs) (hw : FreeA s ws) :
    regGate s rs ws = none := by
  have h : ((rs ++ ws).any fun n => (statusA s n).isPending) = false := by
    refine Bool.eq_false_iff.mpr fun hc => ?_
    obtain ⟨n, hn, hp⟩ := List.any_eq_true.mp hc
    rcases List.mem_append.mp hn with h | h
    · rw [hr n h] at hp
      cases hp
    · rw [hw n h] at hp
      cases hp
  simp only [regGate, h, firstPoison_ready hr]
  rfl

/-- Everything that keeps an access or command from issuing is absent. -/
theorem issueGate_ready {s : State} {slot : BitVec 3} {rs ws : List (BitVec 4)} (hr : ReadyA s rs) (hw : FreeA s ws)
    (hg : MayGo s slot) : issueGate s slot rs ws = none := by
  have h1 : orderGate s = none := by simp [orderGate, hg.order]
  have h2 : heldGate s slot = none := by
    unfold heldGate
    rw [if_neg]
    intro hc
    simp only [Bool.and_eq_true, decide_eq_true_eq] at hc
    rcases hg.held with h | h
    · rw [h] at hc
      cases hc.1
    · omega
  have h3 : roomGate s = none := by
    have := hg.room
    unfold roomGate roomFor
    rw [if_neg (by omega)]
  simp [issueGate, regGate_ready hr hw, h1, h2, h3]

/-- A finished bundle whose own effect was to send an access. -/
theorem Sent.of_finish {s s' : State} {a : Access} {k : Task}
    (rest : { s' with tiles := s.tiles, accs := s.accs, nextId := s.nextId } = s)
    (accs : s'.accs = s.accs ++ [a]) (next : s'.nextId = s.nextId + 1)
    (others : ∀ u, u ≠ s.cur.tile → tileOf s' u = tileOf s u)
    (tile : { curTile s' with task := (curTile s).task, counters := (curTile s).counters } = curTile s)
    (task : curTask s' = k) : Sent s (finish s') a (afterIssue k s.cur.pc) := by
  have cur : s'.cur = s.cur := by
    have e := congrArg State.cur rest
    exact e
  have h := finish_spec s'
  unfold FellThrough at h
  rw [task, cur] at h
  have h1 := h.only.rest
  refine ⟨?_, ?_, ?_, ?_, ?_, ?_, ?_⟩
  · have e := congrArg (fun x : State => { x with tiles := s.tiles, cur := s.cur, accs := s.accs, nextId := s.nextId }) h1
    have e2 := congrArg (fun x : State => { x with cur := s.cur }) rest
    exact e.trans e2
  · intro u hu
    rw [h.only.others u (by rw [cur]; exact hu), others u hu]
  · rw [h.acting, cur]
  · have e := congrArg State.accs h1
    exact e.trans accs
  · have e := congrArg State.nextId h1
    exact e.trans next
  · have e := congrArg (fun x : Tile => { x with
      task := (curTile s).task, counters := (curTile s).counters, lines := (curTile s).lines,
      lastIssue := (curTile s).lastIssue,
      gap := (curTile s).gap, mark := (curTile s).mark }) h.tile
    have e2 := congrArg (fun x : Tile => { x with
      lines := (curTile s).lines, lastIssue := (curTile s).lastIssue, gap := (curTile s).gap,
      mark := (curTile s).mark }) tile
    exact e.trans e2
  · have e := h.task
    rw [task] at e
    exact e

/-! ## The execute side -/

/-- What a completed X instruction leaves. -/
theorem xDone_spec (s : State) (stall : Nat) : XLeft s (xDone s stall) := by
  let tl := curTile s
  let v : Tile := { tl with
    task := { tl.task with xinstr := tl.task.xinstr.drop 1, xbusy := false, taken := [] }
    mark := tl.mark.map fun m =>
      if m.out && m.pc == s.cur.pc && m.gtid == tl.task.gtid then { m with bank := stall } else m }
  let s1 := setTile s s.cur.tile v
  let s2 := countEvent s1 s.cur.tile 2 1
  have h2 : XLeft s s2 := by
    have cur : s2.cur = s.cur := countEvent_cur _ _ _ _
    have tile : { curTile s2 with counters := tl.counters } = v := by
      have := countEvent_tile s1 s.cur.tile 2 1 s.cur.tile
      rw [tileOf_setTile_self] at this
      rw [curTile, cur]
      exact this
    refine ⟨⟨?_, ?_⟩, cur, ?_, congrArg Tile.task tile⟩
    · exact congrArg (fun x : State => { x with tiles := s.tiles, cur := s.cur }) (countEvent_rest s1 s.cur.tile 2 1)
    · intro u h
      exact (countEvent_other _ _ _ h).trans (tileOf_setTile_ne _ _ h)
    · exact congrArg (fun x : Tile => { x with task := tl.task, mark := tl.mark }) tile
  have e : xDone s stall = if stall == 0 then s2 else countEvent s2 s.cur.tile 6 stall := rfl
  rw [e]
  split
  · exact h2
  · have cur : (countEvent s2 s.cur.tile 6 stall).cur = s.cur := by rw [countEvent_cur]; exact h2.acting
    have ht := countEvent_tile s2 s.cur.tile 6 stall s.cur.tile
    have e2 : curTile s2 = tileOf s2 s.cur.tile := by rw [curTile, h2.acting]
    refine ⟨⟨?_, ?_⟩, cur, ?_, ?_⟩
    · have := countEvent_rest s2 s.cur.tile 6 stall
      have h3 := h2.only.rest
      exact (congrArg (fun x : State => { x with tiles := s.tiles, cur := s.cur }) this).trans h3
    · intro u h
      rw [countEvent_other _ _ _ h]
      exact h2.only.others u h
    · have h3 := h2.tile
      rw [curTile, cur]
      rw [e2] at h3
      exact (congrArg (fun x : Tile => { x with task := tl.task, counters := tl.counters, mark := tl.mark }) ht).trans h3
    · have h3 := h2.task
      rw [curTask, curTile, cur, countEvent_task, ← e2]
      exact h3

/-- An X instruction whose sources are there. -/
theorem runX_got {s s1 : State} {pg : BitVec 3} {a b : Operand} {c : Option (BitVec 6)} {room : State → Bool}
    {act : State → Vec → Vec → State} {va vb : Vec} (hs : takeSources s a b = .got s1 va vb) :
    runX s pg a b c room act =
      if !(curTask s1).getP pg then xDone s1 (bankStall s a b c)
      else if room s1 then xDone (act s1 va vb) (bankStall s a b c) else keepTaken s1 [va, vb] := by
  unfold runX
  rw [hs]

/-- An X instruction whose sources are there, whose guard is true and whose destination has room completes. -/
theorem runX_completes {s s1 : State} {pg : BitVec 3} {a b : Operand} {c : Option (BitVec 6)} {room : State → Bool}
    {act : State → Vec → Vec → State} {va vb : Vec} (hs : takeSources s a b = .got s1 va vb)
    (hp : (curTask s1).getP pg = true) (hr : room s1 = true) :
    XLeft (act s1 va vb) (runX s pg a b c room act) := by
  rw [runX_got hs, if_neg (by rw [hp]; decide), if_pos hr]
  exact xDone_spec _ _

/-- An X instruction whose guard is false completes and leaves what taking its sources left. -/
theorem runX_discarded {s s1 : State} {pg : BitVec 3} {a b : Operand} {c : Option (BitVec 6)} {room : State → Bool}
    {act : State → Vec → Vec → State} {va vb : Vec} (hs : takeSources s a b = .got s1 va vb)
    (hp : (curTask s1).getP pg = false) : XLeft s1 (runX s pg a b c room act) := by
  rw [runX_got hs, if_pos (by rw [hp]; decide)]
  exact xDone_spec _ _

end Sys2Proof.Machine
end

