-- ==== Sys2Proof/Laws/Parts.lean ====
section
/-! SUPPORT. Reading a part of the machine after another has been written, the memories of the parts of a state whose memories
are in canonical form, and updates that leave every byte as it was. -/

namespace Sys2Proof.Machine

/-- What a table answers is its default or stands in it. -/
theorem smGet_mem {d : α} {k : Nat} {m : SMap α} : smGet d k m = d ∨ (k, smGet d k m) ∈ m := by
  induction m with
  | nil => exact Or.inl rfl
  | cons e r ih =>
    obtain ⟨a, b⟩ := e
    by_cases h : a = k
    · subst h
      refine Or.inr ?_
      have : smGet d a ((a, b) :: r) = b := by simp [smGet]
      rw [this]
      exact List.mem_cons_self
    · have : smGet d k ((a, b) :: r) = smGet d k r := by simp [smGet, h]
      rw [this]
      exact ih.imp id (List.mem_cons_of_mem _)

/-- Of two values set at one key the later stays. -/
theorem smSet_smSet (k : Nat) (v w : α) (m : SMap α) : smSet k v (smSet k w m) = smSet k v m := by
  induction m with
  | nil => simp [smSet]
  | cons e r ih =>
    obtain ⟨a, b⟩ := e
    by_cases h : k < a
    · simp [smSet, h]
    · by_cases h' : k = a
      · subst h'; simp [smSet]
      · simp [smSet, h, h', ih]

/-- Of two values set for one tile the later stays. -/
theorem setTile_setTile (s : State) (t : Nat) (v w : Tile) : setTile (setTile s t w) t v = setTile s t v := by
  simp [setTile, smSet_smSet]

theorem tileOf_set (s : State) (t u : Nat) (v : Tile) : tileOf (setTile s t v) u = if u = t then v else tileOf s u := by
  unfold tileOf setTile
  by_cases h : u = t
  · subst h; simp
  · simp [h, smGet_smSet_ne _ _ _ h]

theorem quadAt_set (s : State) (t u : Nat) (v : Quad) : quadAt (setQuad s t v) u = if u = t then v else quadAt s u := by
  unfold quadAt setQuad
  by_cases h : u = t
  · subst h; simp
  · simp [h, smGet_smSet_ne _ _ _ h]

theorem dieAt_set (s : State) (t u : Nat) (v : Die) : dieAt (setDie s t v) u = if u = t then v else dieAt s u := by
  unfold dieAt setDie
  by_cases h : u = t
  · subst h; simp
  · simp [h, smGet_smSet_ne _ _ _ h]

theorem clusterAt_set (s : State) (t u : Nat) (v : Cluster) :
    clusterAt (setCluster s t v) u = if u = t then v else clusterAt s u := by
  unfold clusterAt setCluster
  by_cases h : u = t
  · subst h; simp
  · simp [h, smGet_smSet_ne _ _ _ h]

theorem pquadAt_set (s : State) (t u : Nat) (v : PQuad) : pquadAt (setPQuad s t v) u = if u = t then v else pquadAt s u := by
  unfold pquadAt setPQuad
  by_cases h : u = t
  · subst h; simp
  · simp [h, smGet_smSet_ne _ _ _ h]

theorem coreAt_set (s : State) (t u : Nat) (v : Core_) : coreAt (setCore s t v) u = if u = t then v else coreAt s u := by
  unfold coreAt setCore
  by_cases h : u = t
  · subst h; simp
  · simp [h, smGet_smSet_ne _ _ _ h]

theorem sessionAt_set (s : State) (t u : Nat) (v : Session) :
    sessionAt (setSession s t v) u = if u = t then v else sessionAt s u := by
  unfold sessionAt setSession
  by_cases h : u = t
  · subst h; simp
  · simp [h, smGet_smSet_ne _ _ _ h]

theorem portAt_set (s : State) (t u : Nat) (v : Port) : portAt (setPort s t v) u = if u = t then v else portAt s u := by
  unfold portAt setPort
  by_cases h : u = t
  · subst h; simp
  · simp [h, smGet_smSet_ne _ _ _ h]

/-! ## Canonical memories of the parts -/

theorem State.memsOk_tile {s : State} (h : s.memsOk = true) (t : Nat) : (tileOf s t).memsOk = true := by
  simp only [State.memsOk, Bool.and_eq_true, List.all_eq_true] at h
  rcases smGet_mem (d := Tile.idle) (k := t) (m := s.tiles) with e | e
  · unfold tileOf; rw [e]; rfl
  · exact h.1.1.2 _ e

theorem State.memsOk_sp {s : State} (h : s.memsOk = true) (t : Nat) : memWf (tileOf s t).sp = true := by
  have := s.memsOk_tile h t
  simp only [Tile.memsOk, Bool.and_eq_true] at this
  exact this.1

theorem State.memsOk_version {s : State} (h : s.memsOk = true) (t : Nat) : memWf (tileOf s t).ver = true := by
  have := s.memsOk_tile h t
  simp only [Tile.memsOk, Bool.and_eq_true] at this
  exact this.2

theorem State.memsOk_edge {s : State} (h : s.memsOk = true) : memWf s.edge = true := by
  simp only [State.memsOk, Bool.and_eq_true] at h
  exact h.1.1.1.1

theorem State.memsOk_port {s : State} (h : s.memsOk = true) (p : Nat) : memWf (portAt s p).mem = true := by
  simp only [State.memsOk, Bool.and_eq_true, List.all_eq_true] at h
  rcases smGet_mem (d := Port.blank) (k := p) (m := s.ports) with e | e
  · unfold portAt; rw [e]; rfl
  · exact h.1.1.1.2 _ e

theorem State.memsOk_ql {s : State} (h : s.memsOk = true) (q : Nat) : memWf (quadAt s q).ql = true := by
  simp only [State.memsOk, Bool.and_eq_true, List.all_eq_true] at h
  rcases smGet_mem (d := Quad.blank) (k := q) (m := s.quads) with e | e
  · unfold quadAt; rw [e]; rfl
  · exact h.1.2 _ e

/-! ## Bytes as they were -/

theorem SameBytes.refl (s : State) : SameBytes s s := fun _ => rfl

theorem SameBytes.trans {s t u : State} (h : SameBytes s t) (h' : SameBytes t u) : SameBytes s u :=
  fun b => (h' b).trans (h b)

theorem SameBytes.of {s t : State} (he : t.edge = s.edge) (hp : ∀ p, (portAt t p).mem = (portAt s p).mem)
    (ht : ∀ u, (tileOf t u).sp = (tileOf s u).sp ∧ (tileOf t u).ver = (tileOf s u).ver)
    (hq : ∀ q, (quadAt t q).ql = (quadAt s q).ql) : SameBytes s t := by
  intro b
  cases b <;> simp [byteAt, he, hp, ht, hq]

theorem SameBytes.setTile (s : State) (t : Nat) (v : Tile) (h : v.sp = (tileOf s t).sp) (h' : v.ver = (tileOf s t).ver) :
    SameBytes s (setTile s t v) := by
  refine SameBytes.of rfl (fun _ => rfl) (fun u => ?_) (fun _ => rfl)
  rw [tileOf_set]
  split
  · next e => subst e; exact ⟨h, h'⟩
  · exact ⟨rfl, rfl⟩

theorem SameBytes.setQuad (s : State) (t : Nat) (v : Quad) (h : v.ql = (quadAt s t).ql) : SameBytes s (setQuad s t v) := by
  refine SameBytes.of rfl (fun _ => rfl) (fun _ => ⟨rfl, rfl⟩) (fun u => ?_)
  rw [quadAt_set]
  split
  · next e => subst e; exact h
  · rfl

theorem SameBytes.setPort (s : State) (t : Nat) (v : Port) (h : v.mem = (portAt s t).mem) : SameBytes s (setPort s t v) := by
  refine SameBytes.of rfl (fun u => ?_) (fun _ => ⟨rfl, rfl⟩) (fun _ => rfl)
  rw [portAt_set]
  split
  · next e => subst e; exact h
  · rfl

/-- A byte inside a written range. -/
theorem memGet_memWrite_at {m : Mem} (hm : memWf m = true) (a : Nat) (l : List Byte) (o : Nat) (ho : o < l.length) :
    memGet (memWrite m a l) (a + o) = l[o] := by
  rw [memGet_memWrite_in hm a (a + o) l ⟨by omega, by omega⟩]
  simp [Nat.add_sub_cancel_left, List.getElem?_eq_getElem ho]

end Sys2Proof.Machine
end

