-- ==== Sys2Proof/Laws/PerInstr.lean ====
section
/-! SUPPORT. What the decoder reads at each opcode, what the encoder writes for each instruction, and that the first gives
back the second: one lemma for each constructor of `Instr`. -/

namespace Sys2Proof.Laws.Encoding

open Sys2Proof.Machine

/-- An instruction whose body passes the checks of Table 5-10 is what the decoder of its class reads from its body, and
the encoder leaves the two framing bits zero. -/
def Statement (i : Instr) : Prop :=
  (isA i = true → staticOk i = true → decodeABody (encode i) = some i ∧ (encode i).extractLsb' 30 2 = 0#2) ∧
    (isX i = true → staticOk i = true → decodeXBody (encode i) = some i ∧ (encode i).extractLsb' 30 2 = 0#2)

set_option linter.unusedSimpArgs false

theorem split3 (w : Word) : field w 22 8 = field w 25 5 ++ field w 22 3 :=
  (BitVec.extractLsb'_append_extractLsb'_eq_extractLsb' (x := w) (start₂ := 25) (start₁ := 22) (len₁ := 3) (len₂ := 5) (by decide)).symm

theorem split4 (w : Word) : field w 22 8 = field w 26 4 ++ field w 22 4 :=
  (BitVec.extractLsb'_append_extractLsb'_eq_extractLsb' (x := w) (start₂ := 26) (start₁ := 22) (len₁ := 4) (len₂ := 4) (by decide)).symm

/-- A field with a bit set is not zero. -/
theorem field_ne_zero (w : Word) (lo len i : Nat) (hi : i < len) (h : w.getLsbD (lo + i) = true) :
    (field w lo len == 0#len) = false := by
  refine Bool.eq_false_iff.mpr fun hc => ?_
  have := congrArg (BitVec.getLsbD · i) (beq_iff_eq.mp hc)
  simp [BitVec.getLsbD_extractLsb', hi, h] at this

theorem three (y : BitVec 3) : y = 0#3 ∨ y = 1#3 ∨ y = 2#3 ∨ y = 3#3 ∨ y = 4#3 ∨ y = 5#3 ∨ y = 6#3 ∨ y = 7#3 := by
  revert y; decide

theorem four (y : BitVec 4) : y = 0#4 ∨ y = 1#4 ∨ y = 2#4 ∨ y = 3#4 ∨ y = 4#4 ∨ y = 5#4 ∨ y = 6#4 ∨ y = 7#4 ∨
    y = 8#4 ∨ y = 9#4 ∨ y = 10#4 ∨ y = 11#4 ∨ y = 12#4 ∨ y = 13#4 ∨ y = 14#4 ∨ y = 15#4 := by
  revert y; decide

theorem decodeA_00 (w : Word) (h : field w 22 8 = 0#8) : decodeABody w =
    if field w 0 22 == 0#22 then some (.nopA) else none := by
  unfold decodeABody; rw [h]; rfl

theorem decodeA_01 (w : Word) (h : field w 22 8 = 1#8) : decodeABody w =
    some (.jmp ⟨field w 0 22⟩) := by
  unfold decodeABody; rw [h]; rfl

theorem decodeA_02 (w : Word) (h : field w 22 8 = 2#8) : decodeABody w =
    some (.call ⟨field w 0 22⟩) := by
  unfold decodeABody; rw [h]; rfl

theorem decodeA_03 (w : Word) (h : field w 22 8 = 3#8) : decodeABody w =
    if field w 0 14 == 0#14 && field w 18 4 == 0#4 then some (.jr ⟨field w 14 4⟩) else none := by
  unfold decodeABody; rw [h]; rfl

theorem decodeA_04 (w : Word) (h : field w 22 8 = 4#8) : decodeABody w =
    if field w 0 14 == 0#14 then some (.callr ⟨field w 18 4, field w 14 4⟩) else none := by
  unfold decodeABody; rw [h]; rfl

theorem decodeA_08 (w : Word) (h : field w 22 8 = 8#8) : decodeABody w =
    if field w 11 3 == 0#3 then some (.beq ⟨field w 18 4, field w 14 4, field w 0 11⟩) else if field w 11 3 == 1#3 then some (.bne ⟨field w 18 4, field w 14 4, field w 0 11⟩) else if field w 11 3 == 2#3 then some (.blt ⟨field w 18 4, field w 14 4, field w 0 11⟩) else if field w 11 3 == 3#3 then some (.bge ⟨field w 18 4, field w 14 4, field w 0 11⟩) else if field w 11 3 == 4#3 then some (.bltu ⟨field w 18 4, field w 14 4, field w 0 11⟩) else if field w 11 3 == 5#3 then some (.bgeu ⟨field w 18 4, field w 14 4, field w 0 11⟩) else none := by
  unfold decodeABody; rw [h]; rfl

theorem decodeA_09 (w : Word) (h : field w 22 8 = 9#8) : decodeABody w =
    if field w 19 3 == 0#3 then some (.bxz ⟨field w 0 19⟩) else if field w 19 3 == 1#3 then some (.bxnz ⟨field w 0 19⟩) else if field w 19 3 == 2#3 then some (.bxlt ⟨field w 0 19⟩) else if field w 19 3 == 3#3 then some (.bxge ⟨field w 0 19⟩) else none := by
  unfold decodeABody; rw [h]; rfl

theorem decodeA_0a (w : Word) (h : field w 22 8 = 10#8) : decodeABody w =
    if field w 18 1 == 1#1 then some (.bgd ⟨field w 19 3, field w 0 18⟩) else if field w 18 1 == 0#1 then some (.bngd ⟨field w 19 3, field w 0 18⟩) else none := by
  unfold decodeABody; rw [h]; rfl

theorem decodeA_0b (w : Word) (h : field w 22 8 = 11#8) : decodeABody w =
    some (.loop ⟨field w 21 1, field w 17 4, field w 9 8, field w 0 9⟩) := by
  unfold decodeABody; rw [h]; rfl

theorem decodeA_10 (w : Word) (h : field w 22 8 = 16#8) : decodeABody w =
    if field w 0 10 == 0#10 then some (.aadd ⟨field w 18 4, field w 14 4, field w 10 4⟩) else none := by
  unfold decodeABody; rw [h]; rfl

theorem decodeA_11 (w : Word) (h : field w 22 8 = 17#8) : decodeABody w =
    if field w 0 10 == 0#10 then some (.asub ⟨field w 18 4, field w 14 4, field w 10 4⟩) else none := by
  unfold decodeABody; rw [h]; rfl

theorem decodeA_12 (w : Word) (h : field w 22 8 = 18#8) : decodeABody w =
    if field w 0 10 == 0#10 then some (.aand ⟨field w 18 4, field w 14 4, field w 10 4⟩) else none := by
  unfold decodeABody; rw [h]; rfl

theorem decodeA_13 (w : Word) (h : field w 22 8 = 19#8) : decodeABody w =
    if field w 0 10 == 0#10 then some (.aor ⟨field w 18 4, field w 14 4, field w 10 4⟩) else none := by
  unfold decodeABody; rw [h]; rfl

theorem decodeA_14 (w : Word) (h : field w 22 8 = 20#8) : decodeABody w =
    if field w 0 10 == 0#10 then some (.axor ⟨field w 18 4, field w 14 4, field w 10 4⟩) else none := by
  unfold decodeABody; rw [h]; rfl

theorem decodeA_15 (w : Word) (h : field w 22 8 = 21#8) : decodeABody w =
    if field w 0 10 == 0#10 then some (.ashl ⟨field w 18 4, field w 14 4, field w 10 4⟩) else none := by
  unfold decodeABody; rw [h]; rfl

theorem decodeA_16 (w : Word) (h : field w 22 8 = 22#8) : decodeABody w =
    if field w 0 10 == 0#10 then some (.ashr ⟨field w 18 4, field w 14 4, field w 10 4⟩) else none := by
  unfold decodeABody; rw [h]; rfl

theorem decodeA_17 (w : Word) (h : field w 22 8 = 23#8) : decodeABody w =
    if field w 0 10 == 0#10 then some (.asra ⟨field w 18 4, field w 14 4, field w 10 4⟩) else none := by
  unfold decodeABody; rw [h]; rfl

theorem decodeA_18 (w : Word) (h : field w 22 8 = 24#8) : decodeABody w =
    if field w 0 10 == 0#10 then some (.amul ⟨field w 18 4, field w 14 4, field w 10 4⟩) else none := by
  unfold decodeABody; rw [h]; rfl

theorem decodeA_19 (w : Word) (h : field w 22 8 = 25#8) : decodeABody w =
    if field w 0 10 == 0#10 then some (.apeer ⟨field w 18 4, field w 14 4, field w 10 4⟩) else none := by
  unfold decodeABody; rw [h]; rfl

theorem decodeA_20 (w : Word) (h : field w 22 8 = 32#8) : decodeABody w =
    some (.aaddi ⟨field w 18 4, field w 14 4, field w 0 14⟩) := by
  unfold decodeABody; rw [h]; rfl

theorem decodeA_21 (w : Word) (h : field w 22 8 = 33#8) : decodeABody w =
    some (.aandi ⟨field w 18 4, field w 14 4, field w 0 14⟩) := by
  unfold decodeABody; rw [h]; rfl

theorem decodeA_22 (w : Word) (h : field w 22 8 = 34#8) : decodeABody w =
    some (.aori ⟨field w 18 4, field w 14 4, field w 0 14⟩) := by
  unfold decodeABody; rw [h]; rfl

theorem decodeA_23 (w : Word) (h : field w 22 8 = 35#8) : decodeABody w =
    some (.axori ⟨field w 18 4, field w 14 4, field w 0 14⟩) := by
  unfold decodeABody; rw [h]; rfl

theorem decodeA_24 (w : Word) (h : field w 22 8 = 36#8) : decodeABody w =
    some (.ashli ⟨field w 18 4, field w 14 4, field w 0 14⟩) := by
  unfold decodeABody; rw [h]; rfl

theorem decodeA_25 (w : Word) (h : field w 22 8 = 37#8) : decodeABody w =
    some (.ashri ⟨field w 18 4, field w 14 4, field w 0 14⟩) := by
  unfold decodeABody; rw [h]; rfl

theorem decodeA_26 (w : Word) (h : field w 22 8 = 38#8) : decodeABody w =
    some (.asrai ⟨field w 18 4, field w 14 4, field w 0 14⟩) := by
  unfold decodeABody; rw [h]; rfl

theorem decodeA_27 (w : Word) (h : field w 22 8 = 39#8) : decodeABody w =
    if field w 14 4 == 0#4 then some (.ali ⟨field w 18 4, field w 0 14⟩) else none := by
  unfold decodeABody; rw [h]; rfl

theorem decodeA_28 (w : Word) (h : field w 22 8 = 40#8) : decodeABody w =
    some (.alh ⟨field w 18 4, field w 14 4, field w 0 14⟩) := by
  unfold decodeABody; rw [h]; rfl

theorem decodeA_06w (w : Word) (h : field w 25 5 = 6#5) : decodeABody w =
    if field w 19 3 == 0#3 then some (.ldSp ⟨field w 22 3, field w 15 4, field w 10 5, field w 7 3, field w 0 7⟩) else none := by
  have e := split3 w
  rw [h] at e
  rcases three (field w 22 3) with h | h | h | h | h | h | h | h <;> rw [h] at e
  · unfold decodeABody; rw [e.trans (show 6#5 ++ 0#3 = 48#8 by decide), h]; rfl
  · unfold decodeABody; rw [e.trans (show 6#5 ++ 1#3 = 49#8 by decide), h]; rfl
  · unfold decodeABody; rw [e.trans (show 6#5 ++ 2#3 = 50#8 by decide), h]; rfl
  · unfold decodeABody; rw [e.trans (show 6#5 ++ 3#3 = 51#8 by decide), h]; rfl
  · unfold decodeABody; rw [e.trans (show 6#5 ++ 4#3 = 52#8 by decide), h]; rfl
  · unfold decodeABody; rw [e.trans (show 6#5 ++ 5#3 = 53#8 by decide), h]; rfl
  · unfold decodeABody; rw [e.trans (show 6#5 ++ 6#3 = 54#8 by decide), h]; rfl
  · unfold decodeABody; rw [e.trans (show 6#5 ++ 7#3 = 55#8 by decide), h]; rfl

theorem decodeA_07w (w : Word) (h : field w 25 5 = 7#5) : decodeABody w =
    if field w 19 3 == 0#3 then some (.ldPr ⟨field w 22 3, field w 15 4, field w 10 5, field w 7 3, field w 0 7⟩) else none := by
  have e := split3 w
  rw [h] at e
  rcases three (field w 22 3) with h | h | h | h | h | h | h | h <;> rw [h] at e
  · unfold decodeABody; rw [e.trans (show 7#5 ++ 0#3 = 56#8 by decide), h]; rfl
  · unfold decodeABody; rw [e.trans (show 7#5 ++ 1#3 = 57#8 by decide), h]; rfl
  · unfold decodeABody; rw [e.trans (show 7#5 ++ 2#3 = 58#8 by decide), h]; rfl
  · unfold decodeABody; rw [e.trans (show 7#5 ++ 3#3 = 59#8 by decide), h]; rfl
  · unfold decodeABody; rw [e.trans (show 7#5 ++ 4#3 = 60#8 by decide), h]; rfl
  · unfold decodeABody; rw [e.trans (show 7#5 ++ 5#3 = 61#8 by decide), h]; rfl
  · unfold decodeABody; rw [e.trans (show 7#5 ++ 6#3 = 62#8 by decide), h]; rfl
  · unfold decodeABody; rw [e.trans (show 7#5 ++ 7#3 = 63#8 by decide), h]; rfl

theorem decodeA_08w (w : Word) (h : field w 25 5 = 8#5) : decodeABody w =
    if field w 19 3 == 0#3 then some (.ldQl ⟨field w 22 3, field w 15 4, field w 10 5, field w 7 3, field w 0 7⟩) else none := by
  have e := split3 w
  rw [h] at e
  rcases three (field w 22 3) with h | h | h | h | h | h | h | h <;> rw [h] at e
  · unfold decodeABody; rw [e.trans (show 8#5 ++ 0#3 = 64#8 by decide), h]; rfl
  · unfold decodeABody; rw [e.trans (show 8#5 ++ 1#3 = 65#8 by decide), h]; rfl
  · unfold decodeABody; rw [e.trans (show 8#5 ++ 2#3 = 66#8 by decide), h]; rfl
  · unfold decodeABody; rw [e.trans (show 8#5 ++ 3#3 = 67#8 by decide), h]; rfl
  · unfold decodeABody; rw [e.trans (show 8#5 ++ 4#3 = 68#8 by decide), h]; rfl
  · unfold decodeABody; rw [e.trans (show 8#5 ++ 5#3 = 69#8 by decide), h]; rfl
  · unfold decodeABody; rw [e.trans (show 8#5 ++ 6#3 = 70#8 by decide), h]; rfl
  · unfold decodeABody; rw [e.trans (show 8#5 ++ 7#3 = 71#8 by decide), h]; rfl

theorem decodeA_09w (w : Word) (h : field w 25 5 = 9#5) : decodeABody w =
    if field w 19 3 == 0#3 then some (.ldGl ⟨field w 22 3, field w 15 4, field w 10 5, field w 7 3, field w 0 7⟩) else none := by
  have e := split3 w
  rw [h] at e
  rcases three (field w 22 3) with h | h | h | h | h | h | h | h <;> rw [h] at e
  · unfold decodeABody; rw [e.trans (show 9#5 ++ 0#3 = 72#8 by decide), h]; rfl
  · unfold decodeABody; rw [e.trans (show 9#5 ++ 1#3 = 73#8 by decide), h]; rfl
  · unfold decodeABody; rw [e.trans (show 9#5 ++ 2#3 = 74#8 by decide), h]; rfl
  · unfold decodeABody; rw [e.trans (show 9#5 ++ 3#3 = 75#8 by decide), h]; rfl
  · unfold decodeABody; rw [e.trans (show 9#5 ++ 4#3 = 76#8 by decide), h]; rfl
  · unfold decodeABody; rw [e.trans (show 9#5 ++ 5#3 = 77#8 by decide), h]; rfl
  · unfold decodeABody; rw [e.trans (show 9#5 ++ 6#3 = 78#8 by decide), h]; rfl
  · unfold decodeABody; rw [e.trans (show 9#5 ++ 7#3 = 79#8 by decide), h]; rfl

theorem decodeA_0aw (w : Word) (h : field w 25 5 = 10#5) : decodeABody w =
    some (.stSp ⟨field w 22 3, field w 19 3, field w 15 4, field w 10 5, field w 7 3, field w 0 7⟩) := by
  have e := split3 w
  rw [h] at e
  rcases three (field w 22 3) with h | h | h | h | h | h | h | h <;> rw [h] at e
  · unfold decodeABody; rw [e.trans (show 10#5 ++ 0#3 = 80#8 by decide), h]; rfl
  · unfold decodeABody; rw [e.trans (show 10#5 ++ 1#3 = 81#8 by decide), h]; rfl
  · unfold decodeABody; rw [e.trans (show 10#5 ++ 2#3 = 82#8 by decide), h]; rfl
  · unfold decodeABody; rw [e.trans (show 10#5 ++ 3#3 = 83#8 by decide), h]; rfl
  · unfold decodeABody; rw [e.trans (show 10#5 ++ 4#3 = 84#8 by decide), h]; rfl
  · unfold decodeABody; rw [e.trans (show 10#5 ++ 5#3 = 85#8 by decide), h]; rfl
  · unfold decodeABody; rw [e.trans (show 10#5 ++ 6#3 = 86#8 by decide), h]; rfl
  · unfold decodeABody; rw [e.trans (show 10#5 ++ 7#3 = 87#8 by decide), h]; rfl

theorem decodeA_0bw (w : Word) (h : field w 25 5 = 11#5) : decodeABody w =
    some (.stPr ⟨field w 22 3, field w 19 3, field w 15 4, field w 10 5, field w 7 3, field w 0 7⟩) := by
  have e := split3 w
  rw [h] at e
  rcases three (field w 22 3) with h | h | h | h | h | h | h | h <;> rw [h] at e
  · unfold decodeABody; rw [e.trans (show 11#5 ++ 0#3 = 88#8 by decide), h]; rfl
  · unfold decodeABody; rw [e.trans (show 11#5 ++ 1#3 = 89#8 by decide), h]; rfl
  · unfold decodeABody; rw [e.trans (show 11#5 ++ 2#3 = 90#8 by decide), h]; rfl
  · unfold decodeABody; rw [e.trans (show 11#5 ++ 3#3 = 91#8 by decide), h]; rfl
  · unfold decodeABody; rw [e.trans (show 11#5 ++ 4#3 = 92#8 by decide), h]; rfl
  · unfold decodeABody; rw [e.trans (show 11#5 ++ 5#3 = 93#8 by decide), h]; rfl
  · unfold decodeABody; rw [e.trans (show 11#5 ++ 6#3 = 94#8 by decide), h]; rfl
  · unfold decodeABody; rw [e.trans (show 11#5 ++ 7#3 = 95#8 by decide), h]; rfl

theorem decodeA_0cw (w : Word) (h : field w 25 5 = 12#5) : decodeABody w =
    some (.stQl ⟨field w 22 3, field w 19 3, field w 15 4, field w 10 5, field w 7 3, field w 0 7⟩) := by
  have e := split3 w
  rw [h] at e
  rcases three (field w 22 3) with h | h | h | h | h | h | h | h <;> rw [h] at e
  · unfold decodeABody; rw [e.trans (show 12#5 ++ 0#3 = 96#8 by decide), h]; rfl
  · unfold decodeABody; rw [e.trans (show 12#5 ++ 1#3 = 97#8 by decide), h]; rfl
  · unfold decodeABody; rw [e.trans (show 12#5 ++ 2#3 = 98#8 by decide), h]; rfl
  · unfold decodeABody; rw [e.trans (show 12#5 ++ 3#3 = 99#8 by decide), h]; rfl
  · unfold decodeABody; rw [e.trans (show 12#5 ++ 4#3 = 100#8 by decide), h]; rfl
  · unfold decodeABody; rw [e.trans (show 12#5 ++ 5#3 = 101#8 by decide), h]; rfl
  · unfold decodeABody; rw [e.trans (show 12#5 ++ 6#3 = 102#8 by decide), h]; rfl
  · unfold decodeABody; rw [e.trans (show 12#5 ++ 7#3 = 103#8 by decide), h]; rfl

theorem decodeA_0dw (w : Word) (h : field w 25 5 = 13#5) : decodeABody w =
    some (.stGl ⟨field w 22 3, field w 19 3, field w 15 4, field w 10 5, field w 7 3, field w 0 7⟩) := by
  have e := split3 w
  rw [h] at e
  rcases three (field w 22 3) with h | h | h | h | h | h | h | h <;> rw [h] at e
  · unfold decodeABody; rw [e.trans (show 13#5 ++ 0#3 = 104#8 by decide), h]; rfl
  · unfold decodeABody; rw [e.trans (show 13#5 ++ 1#3 = 105#8 by decide), h]; rfl
  · unfold decodeABody; rw [e.trans (show 13#5 ++ 2#3 = 106#8 by decide), h]; rfl
  · unfold decodeABody; rw [e.trans (show 13#5 ++ 3#3 = 107#8 by decide), h]; rfl
  · unfold decodeABody; rw [e.trans (show 13#5 ++ 4#3 = 108#8 by decide), h]; rfl
  · unfold decodeABody; rw [e.trans (show 13#5 ++ 5#3 = 109#8 by decide), h]; rfl
  · unfold decodeABody; rw [e.trans (show 13#5 ++ 6#3 = 110#8 by decide), h]; rfl
  · unfold decodeABody; rw [e.trans (show 13#5 ++ 7#3 = 111#8 by decide), h]; rfl

theorem decodeA_70 (w : Word) (h : field w 22 8 = 112#8) : decodeABody w =
    if field w 0 1 == 0#1 then some (.atomSp ⟨field w 19 3, field w 15 4, field w 11 4, field w 7 4, field w 4 3, field w 3 1, field w 1 2⟩) else none := by
  unfold decodeABody; rw [h]; rfl

theorem decodeA_71 (w : Word) (h : field w 22 8 = 113#8) : decodeABody w =
    if field w 0 1 == 0#1 then some (.atomPr ⟨field w 19 3, field w 15 4, field w 11 4, field w 7 4, field w 4 3, field w 3 1, field w 1 2⟩) else none := by
  unfold decodeABody; rw [h]; rfl

theorem decodeA_72 (w : Word) (h : field w 22 8 = 114#8) : decodeABody w =
    if field w 0 1 == 0#1 then some (.atomGl ⟨field w 19 3, field w 15 4, field w 11 4, field w 7 4, field w 4 3, field w 3 1, field w 1 2⟩) else none := by
  unfold decodeABody; rw [h]; rfl

theorem decodeA_74 (w : Word) (h : field w 22 8 = 116#8) : decodeABody w =
    if field w 0 1 == 0#1 then some (.casSp ⟨field w 19 3, field w 15 4, field w 11 4, field w 7 4, field w 4 3, field w 3 1, field w 1 2⟩) else none := by
  unfold decodeABody; rw [h]; rfl

theorem decodeA_75 (w : Word) (h : field w 22 8 = 117#8) : decodeABody w =
    if field w 0 1 == 0#1 then some (.casPr ⟨field w 19 3, field w 15 4, field w 11 4, field w 7 4, field w 4 3, field w 3 1, field w 1 2⟩) else none := by
  unfold decodeABody; rw [h]; rfl

theorem decodeA_76 (w : Word) (h : field w 22 8 = 118#8) : decodeABody w =
    if field w 0 1 == 0#1 then some (.casGl ⟨field w 19 3, field w 15 4, field w 11 4, field w 7 4, field w 4 3, field w 3 1, field w 1 2⟩) else none := by
  unfold decodeABody; rw [h]; rfl

theorem decodeA_f0 (w : Word) (h : field w 22 8 = 240#8) : decodeABody w =
    if field w 7 8 == 32#8 && field w 19 3 == 0#3 then some (.prefGl ⟨field w 15 4, field w 0 7⟩) else some (.hintA ⟨field w 22 4, field w 0 22⟩) := by
  unfold decodeABody; rw [h]; rfl

theorem decodeA_f1 (w : Word) (h : field w 22 8 = 241#8) : decodeABody w =
    if field w 7 8 == 32#8 && field w 19 3 == 0#3 then some (.prefQl ⟨field w 15 4, field w 0 7⟩) else some (.hintA ⟨field w 22 4, field w 0 22⟩) := by
  unfold decodeABody; rw [h]; rfl

theorem decodeA_80 (w : Word) (h : field w 22 8 = 128#8) : decodeABody w =
    if field w 0 1 == 0#1 && field w 19 3 == 0#3 then some (.tdef ⟨field w 13 6, field w 7 6, field w 1 6⟩) else none := by
  unfold decodeABody; rw [h]; rfl

theorem decodeA_81 (w : Word) (h : field w 22 8 = 129#8) : decodeABody w =
    if field w 0 13 == 0#13 && field w 19 3 == 0#3 then some (.tinv ⟨field w 13 6⟩) else if field w 0 22 == 1#22 then some (.tinvAll) else none := by
  unfold decodeABody; rw [h]; rfl

theorem decodeA_82 (w : Word) (h : field w 22 8 = 130#8) : decodeABody w =
    if field w 0 7 == 0#7 && field w 13 6 == 0#6 then some (.mmz ⟨field w 19 3, field w 7 6⟩) else none := by
  unfold decodeABody; rw [h]; rfl

theorem decodeA_83 (w : Word) (h : field w 22 8 = 131#8) : decodeABody w =
    if field w 0 1 == 0#1 then some (.mma ⟨field w 19 3, field w 13 6, field w 7 6, field w 5 2, field w 1 4⟩) else if field w 0 5 == 1#5 && field w 7 6 == 0#6 then some (.mmaBl ⟨field w 19 3, field w 13 6, field w 5 2⟩) else none := by
  unfold decodeABody; rw [h]; rfl

theorem decodeA_84 (w : Word) (h : field w 22 8 = 132#8) : decodeABody w =
    if field w 0 5 == 1#5 then some (.mmaR ⟨field w 19 3, field w 13 6, field w 7 6, field w 5 2⟩) else none := by
  unfold decodeABody; rw [h]; rfl

theorem decodeA_85 (w : Word) (h : field w 22 8 = 133#8) : decodeABody w =
    if field w 0 7 == 0#7 then some (.mld ⟨field w 19 3, field w 13 6, field w 7 6⟩) else if field w 0 1 == 1#1 then some (.mldBl ⟨field w 19 3, field w 13 6, field w 7 6, field w 1 6⟩) else none := by
  unfold decodeABody; rw [h]; rfl

theorem decodeA_86 (w : Word) (h : field w 22 8 = 134#8) : decodeABody w =
    if field w 0 1 == 0#1 then some (.mst ⟨field w 19 3, field w 13 6, field w 7 6, field w 6 1, field w 4 2, field w 1 3⟩) else none := by
  unfold decodeABody; rw [h]; rfl

theorem decodeA_88 (w : Word) (h : field w 22 8 = 136#8) : decodeABody w =
    if field w 1 6 == 0#6 then some (.cpy ⟨field w 19 3, field w 13 6, field w 7 6, field w 0 1⟩) else none := by
  unfold decodeABody; rw [h]; rfl

theorem decodeA_89 (w : Word) (h : field w 22 8 = 137#8) : decodeABody w =
    some (.cpyG ⟨field w 19 3, field w 13 6, field w 7 6, field w 1 6, field w 0 1⟩) := by
  unfold decodeABody; rw [h]; rfl

theorem decodeA_8a (w : Word) (h : field w 22 8 = 138#8) : decodeABody w =
    some (.cpyS ⟨field w 19 3, field w 13 6, field w 7 6, field w 1 6, field w 0 1⟩) := by
  unfold decodeABody; rw [h]; rfl

theorem decodeA_8b (w : Word) (h : field w 22 8 = 139#8) : decodeABody w =
    if field w 1 6 == 0#6 then some (.cpyT ⟨field w 19 3, field w 13 6, field w 7 6, field w 0 1⟩) else none := by
  unfold decodeABody; rw [h]; rfl

theorem decodeA_8c (w : Word) (h : field w 22 8 = 140#8) : decodeABody w =
    some (.cpyM ⟨field w 19 3, field w 13 6, field w 7 6, field w 1 6, field w 0 1⟩) := by
  unfold decodeABody; rw [h]; rfl

theorem decodeA_8d (w : Word) (h : field w 22 8 = 141#8) : decodeABody w =
    some (.cpyMma ⟨field w 19 3, field w 13 6, field w 7 6, field w 1 6, field w 0 1⟩) := by
  unfold decodeABody; rw [h]; rfl

theorem decodeA_8e (w : Word) (h : field w 22 8 = 142#8) : decodeABody w =
    if field w 1 6 == 0#6 then some (.strm ⟨field w 19 3, field w 13 6, field w 7 6, field w 0 1⟩) else none := by
  unfold decodeABody; rw [h]; rfl

theorem decodeA_90 (w : Word) (h : field w 22 8 = 144#8) : decodeABody w =
    if field w 2 20 == 0#20 then some (.drain ⟨field w 0 2⟩) else none := by
  unfold decodeABody; rw [h]; rfl

theorem decodeA_91 (w : Word) (h : field w 22 8 = 145#8) : decodeABody w =
    some (.chain ⟨field w 19 3, field w 13 6, field w 7 6, field w 1 6, field w 0 1⟩) := by
  unfold decodeABody; rw [h]; rfl

theorem decodeA_92 (w : Word) (h : field w 22 8 = 146#8) : decodeABody w =
    some (.ksend ⟨field w 19 3, field w 13 6, field w 7 6, field w 1 6, field w 0 1⟩) := by
  unfold decodeABody; rw [h]; rfl

theorem decodeA_93 (w : Word) (h : field w 22 8 = 147#8) : decodeABody w =
    if field w 0 13 == 0#13 && field w 19 3 == 0#3 then some (.kbinAdd ⟨field w 13 6⟩) else if field w 0 1 == 0#1 && field w 7 6 == 1#6 && field w 19 3 == 0#3 then some (.kbinApp ⟨field w 13 6, field w 1 6⟩) else if field w 0 22 == 256#22 then some (.kbinOff) else none := by
  unfold decodeABody; rw [h]; rfl

theorem decodeA_94 (w : Word) (h : field w 22 8 = 148#8) : decodeABody w =
    if field w 0 1 == 0#1 then some (.coll ⟨field w 19 3, field w 13 6, field w 7 6, field w 1 6⟩) else if field w 0 1 == 1#1 then some (.collRed ⟨field w 19 3, field w 13 6, field w 7 6, field w 1 6⟩) else none := by
  unfold decodeABody; rw [h]; rfl

theorem decodeA_95 (w : Word) (h : field w 22 8 = 149#8) : decodeABody w =
    if field w 1 6 == 0#6 && field w 19 3 == 0#3 then some (.engK ⟨field w 13 6, field w 7 6, field w 0 1⟩) else none := by
  unfold decodeABody; rw [h]; rfl

theorem decodeA_96 (w : Word) (h : field w 22 8 = 150#8) : decodeABody w =
    if field w 1 12 == 0#12 then some (.engGo ⟨field w 19 3, field w 13 6, field w 0 1⟩) else none := by
  unfold decodeABody; rw [h]; rfl

theorem decodeA_a0 (w : Word) (h : field w 22 8 = 160#8) : decodeABody w =
    some (.spawn ⟨field w 19 3, field w 15 4, field w 11 4, field w 0 11⟩) := by
  unfold decodeABody; rw [h]; rfl

theorem decodeA_a1 (w : Word) (h : field w 22 8 = 161#8) : decodeABody w =
    if field w 19 3 == 0#3 then some (.forkBr ⟨field w 15 4, field w 11 4, field w 0 11⟩) else none := by
  unfold decodeABody; rw [h]; rfl

theorem decodeA_a2 (w : Word) (h : field w 22 8 = 162#8) : decodeABody w =
    if field w 2 13 == 0#13 && field w 19 3 == 0#3 then some (.join ⟨field w 15 4, field w 0 2⟩) else none := by
  unfold decodeABody; rw [h]; rfl

theorem decodeA_a3 (w : Word) (h : field w 22 8 = 163#8) : decodeABody w =
    if field w 2 13 == 0#13 then some (.jdec ⟨field w 19 3, field w 15 4, field w 0 2⟩) else none := by
  unfold decodeABody; rw [h]; rfl

theorem decodeA_a4 (w : Word) (h : field w 22 8 = 164#8) : decodeABody w =
    if field w 0 22 == 0#22 then some (.suspend) else none := by
  unfold decodeABody; rw [h]; rfl

theorem decodeA_a5 (w : Word) (h : field w 22 8 = 165#8) : decodeABody w =
    if field w 0 22 == 0#22 then some (.yield) else none := by
  unfold decodeABody; rw [h]; rfl

theorem decodeA_a6 (w : Word) (h : field w 22 8 = 166#8) : decodeABody w =
    if field w 0 22 == 0#22 then some (.exit) else none := by
  unfold decodeABody; rw [h]; rfl

theorem decodeA_a8 (w : Word) (h : field w 22 8 = 168#8) : decodeABody w =
    if field w 9 2 == 0#2 then some (.send ⟨field w 19 3, field w 15 4, field w 11 4, field w 0 9⟩) else if field w 0 11 == 512#11 then some (.sendEos ⟨field w 19 3, field w 15 4, field w 11 4⟩) else none := by
  unfold decodeABody; rw [h]; rfl

theorem decodeA_a9 (w : Word) (h : field w 22 8 = 169#8) : decodeABody w =
    if field w 3 8 == 0#8 then some (.put ⟨field w 19 3, field w 15 4, field w 11 4, field w 0 3⟩) else if field w 3 12 == 1#12 then some (.putX ⟨field w 19 3, field w 15 4, field w 0 3⟩) else none := by
  unfold decodeABody; rw [h]; rfl

theorem decodeA_aa (w : Word) (h : field w 22 8 = 170#8) : decodeABody w =
    if field w 0 22 == 0#22 then some (.wfm) else none := by
  unfold decodeABody; rw [h]; rfl

theorem decodeA_ac (w : Word) (h : field w 22 8 = 172#8) : decodeABody w =
    if field w 5 10 == 0#10 && field w 19 3 == 0#3 then some (.nbarInit ⟨field w 15 4, field w 0 5⟩) else none := by
  unfold decodeABody; rw [h]; rfl

theorem decodeA_ad (w : Word) (h : field w 22 8 = 173#8) : decodeABody w =
    if field w 5 6 == 0#6 then some (.nbarArr ⟨field w 19 3, field w 15 4, field w 11 4, field w 0 5⟩) else none := by
  unfold decodeABody; rw [h]; rfl

theorem decodeA_ae (w : Word) (h : field w 22 8 = 174#8) : decodeABody w =
    if field w 5 6 == 0#6 && field w 19 3 == 0#3 then some (.nbarWt ⟨field w 15 4, field w 11 4, field w 0 5⟩) else none := by
  unfold decodeABody; rw [h]; rfl

theorem decodeA_af (w : Word) (h : field w 22 8 = 175#8) : decodeABody w =
    if field w 5 6 == 0#6 then some (.nbarTx ⟨field w 19 3, field w 15 4, field w 11 4, field w 0 5⟩) else none := by
  unfold decodeABody; rw [h]; rfl

theorem decodeA_b0 (w : Word) (h : field w 22 8 = 176#8) : decodeABody w =
    if field w 3 19 == 0#19 then some (.fence ⟨field w 0 3⟩) else none := by
  unfold decodeABody; rw [h]; rfl

theorem decodeA_b1 (w : Word) (h : field w 22 8 = 177#8) : decodeABody w =
    if field w 0 11 == 0#11 then some (.stv ⟨field w 19 3, field w 15 4, field w 11 4⟩) else none := by
  unfold decodeABody; rw [h]; rfl

theorem decodeA_b2 (w : Word) (h : field w 22 8 = 178#8) : decodeABody w =
    if field w 0 11 == 0#11 && field w 19 3 == 0#3 then some (.ldv ⟨field w 15 4, field w 11 4⟩) else if field w 0 11 == 1#11 && field w 19 3 == 0#3 then some (.ldvS ⟨field w 15 4, field w 11 4⟩) else none := by
  unfold decodeABody; rw [h]; rfl

theorem decodeA_b3 (w : Word) (h : field w 22 8 = 179#8) : decodeABody w =
    if field w 0 15 == 0#15 then some (.vrcl ⟨field w 19 3, field w 15 4⟩) else none := by
  unfold decodeABody; rw [h]; rfl

theorem decodeA_b8 (w : Word) (h : field w 22 8 = 184#8) : decodeABody w =
    if field w 10 1 == 0#1 && field w 19 3 == 0#3 then some (.sys ⟨field w 15 4, field w 11 4, field w 0 10⟩) else none := by
  unfold decodeABody; rw [h]; rfl

theorem decodeA_b9 (w : Word) (h : field w 22 8 = 185#8) : decodeABody w =
    if field w 10 5 == 0#5 && field w 19 3 == 0#3 then some (.trap ⟨field w 15 4, field w 0 10⟩) else none := by
  unfold decodeABody; rw [h]; rfl

theorem decodeA_ba (w : Word) (h : field w 22 8 = 186#8) : decodeABody w =
    if field w 10 12 == 0#12 then some (.brk ⟨field w 0 10⟩) else none := by
  unfold decodeABody; rw [h]; rfl

theorem decodeA_bb (w : Word) (h : field w 22 8 = 187#8) : decodeABody w =
    if field w 3 12 == 0#12 && field w 19 3 == 0#3 then some (.rdcr ⟨field w 15 4, field w 0 3⟩) else none := by
  unfold decodeABody; rw [h]; rfl

theorem decodeA_bc (w : Word) (h : field w 22 8 = 188#8) : decodeABody w =
    if field w 3 8 == 0#8 && field w 15 7 == 0#7 then some (.wrcr ⟨field w 11 4, field w 0 3⟩) else none := by
  unfold decodeABody; rw [h]; rfl

theorem decodeA_bd (w : Word) (h : field w 22 8 = 189#8) : decodeABody w =
    if field w 0 22 == 0#22 then some (.halt) else none := by
  unfold decodeABody; rw [h]; rfl

theorem decodeX_00 (w : Word) (h : field w 22 8 = 0#8) : decodeXBody w =
    if field w 0 22 == 0#22 then some (.nopX) else none := by
  unfold decodeXBody; rw [h]; rfl

theorem decodeX_01 (w : Word) (h : field w 22 8 = 1#8) : decodeXBody w =
    if field w 1 18 == 0#18 then some (.vmode ⟨field w 19 3, field w 0 1⟩) else none := by
  unfold decodeXBody; rw [h]; rfl

theorem decodeX_02 (w : Word) (h : field w 22 8 = 2#8) : decodeXBody w =
    if field w 0 12 == 0#12 then some (.gset ⟨field w 19 3, field w 16 3, field w 13 3, field w 12 1⟩) else none := by
  unfold decodeXBody; rw [h]; rfl

theorem decodeX_03 (w : Word) (h : field w 22 8 = 3#8) : decodeXBody w =
    if field w 0 6 == 0#6 then some (.plog ⟨field w 19 3, field w 16 3, field w 13 3, field w 10 3, field w 6 4⟩) else none := by
  unfold decodeXBody; rw [h]; rfl

theorem decodeX_04 (w : Word) (h : field w 22 8 = 4#8) : decodeXBody w =
    if field w 0 1 == 0#1 then some (.sel ⟨field w 19 3, field w 13 6, field w 7 6, field w 1 6⟩) else none := by
  unfold decodeXBody; rw [h]; rfl

theorem decodeX_08 (w : Word) (h : field w 22 8 = 8#8) : decodeXBody w =
    if field w 0 1 == 0#1 then some (.add ⟨field w 19 3, field w 13 6, field w 7 6, field w 1 6⟩) else none := by
  unfold decodeXBody; rw [h]; rfl

theorem decodeX_09 (w : Word) (h : field w 22 8 = 9#8) : decodeXBody w =
    if field w 0 1 == 0#1 then some (.sub ⟨field w 19 3, field w 13 6, field w 7 6, field w 1 6⟩) else none := by
  unfold decodeXBody; rw [h]; rfl

theorem decodeX_0a (w : Word) (h : field w 22 8 = 10#8) : decodeXBody w =
    if field w 0 1 == 0#1 then some (.addsI32 ⟨field w 19 3, field w 13 6, field w 7 6, field w 1 6⟩) else none := by
  unfold decodeXBody; rw [h]; rfl

theorem decodeX_0b (w : Word) (h : field w 22 8 = 11#8) : decodeXBody w =
    if field w 0 1 == 0#1 then some (.addsN32 ⟨field w 19 3, field w 13 6, field w 7 6, field w 1 6⟩) else none := by
  unfold decodeXBody; rw [h]; rfl

theorem decodeX_0c (w : Word) (h : field w 22 8 = 12#8) : decodeXBody w =
    if field w 0 1 == 0#1 then some (.subsI32 ⟨field w 19 3, field w 13 6, field w 7 6, field w 1 6⟩) else none := by
  unfold decodeXBody; rw [h]; rfl

theorem decodeX_0d (w : Word) (h : field w 22 8 = 13#8) : decodeXBody w =
    if field w 0 1 == 0#1 then some (.subsN32 ⟨field w 19 3, field w 13 6, field w 7 6, field w 1 6⟩) else none := by
  unfold decodeXBody; rw [h]; rfl

theorem decodeX_0e (w : Word) (h : field w 22 8 = 14#8) : decodeXBody w =
    if field w 0 1 == 0#1 then some (.mul ⟨field w 19 3, field w 13 6, field w 7 6, field w 1 6⟩) else none := by
  unfold decodeXBody; rw [h]; rfl

theorem decodeX_0f (w : Word) (h : field w 22 8 = 15#8) : decodeXBody w =
    if field w 0 1 == 0#1 then some (.mulhI32 ⟨field w 19 3, field w 13 6, field w 7 6, field w 1 6⟩) else none := by
  unfold decodeXBody; rw [h]; rfl

theorem decodeX_10 (w : Word) (h : field w 22 8 = 16#8) : decodeXBody w =
    if field w 0 1 == 0#1 then some (.mulhN32 ⟨field w 19 3, field w 13 6, field w 7 6, field w 1 6⟩) else none := by
  unfold decodeXBody; rw [h]; rfl

theorem decodeX_11 (w : Word) (h : field w 22 8 = 17#8) : decodeXBody w =
    if field w 0 1 == 0#1 then some (.divI32 ⟨field w 19 3, field w 13 6, field w 7 6, field w 1 6⟩) else none := by
  unfold decodeXBody; rw [h]; rfl

theorem decodeX_12 (w : Word) (h : field w 22 8 = 18#8) : decodeXBody w =
    if field w 0 1 == 0#1 then some (.divN32 ⟨field w 19 3, field w 13 6, field w 7 6, field w 1 6⟩) else none := by
  unfold decodeXBody; rw [h]; rfl

theorem decodeX_13 (w : Word) (h : field w 22 8 = 19#8) : decodeXBody w =
    if field w 0 1 == 0#1 then some (.remI32 ⟨field w 19 3, field w 13 6, field w 7 6, field w 1 6⟩) else none := by
  unfold decodeXBody; rw [h]; rfl

theorem decodeX_14 (w : Word) (h : field w 22 8 = 20#8) : decodeXBody w =
    if field w 0 1 == 0#1 then some (.remN32 ⟨field w 19 3, field w 13 6, field w 7 6, field w 1 6⟩) else none := by
  unfold decodeXBody; rw [h]; rfl

theorem decodeX_15 (w : Word) (h : field w 22 8 = 21#8) : decodeXBody w =
    if field w 0 1 == 0#1 then some (.minI32 ⟨field w 19 3, field w 13 6, field w 7 6, field w 1 6⟩) else none := by
  unfold decodeXBody; rw [h]; rfl

theorem decodeX_16 (w : Word) (h : field w 22 8 = 22#8) : decodeXBody w =
    if field w 0 1 == 0#1 then some (.minN32 ⟨field w 19 3, field w 13 6, field w 7 6, field w 1 6⟩) else none := by
  unfold decodeXBody; rw [h]; rfl

theorem decodeX_17 (w : Word) (h : field w 22 8 = 23#8) : decodeXBody w =
    if field w 0 1 == 0#1 then some (.maxI32 ⟨field w 19 3, field w 13 6, field w 7 6, field w 1 6⟩) else none := by
  unfold decodeXBody; rw [h]; rfl

theorem decodeX_18 (w : Word) (h : field w 22 8 = 24#8) : decodeXBody w =
    if field w 0 1 == 0#1 then some (.maxN32 ⟨field w 19 3, field w 13 6, field w 7 6, field w 1 6⟩) else none := by
  unfold decodeXBody; rw [h]; rfl

theorem decodeX_19 (w : Word) (h : field w 22 8 = 25#8) : decodeXBody w =
    if field w 0 1 == 0#1 then some (.and ⟨field w 19 3, field w 13 6, field w 7 6, field w 1 6⟩) else none := by
  unfold decodeXBody; rw [h]; rfl

theorem decodeX_1a (w : Word) (h : field w 22 8 = 26#8) : decodeXBody w =
    if field w 0 1 == 0#1 then some (.or ⟨field w 19 3, field w 13 6, field w 7 6, field w 1 6⟩) else none := by
  unfold decodeXBody; rw [h]; rfl

theorem decodeX_1b (w : Word) (h : field w 22 8 = 27#8) : decodeXBody w =
    if field w 0 1 == 0#1 then some (.xor ⟨field w 19 3, field w 13 6, field w 7 6, field w 1 6⟩) else none := by
  unfold decodeXBody; rw [h]; rfl

theorem decodeX_1c (w : Word) (h : field w 22 8 = 28#8) : decodeXBody w =
    if field w 0 1 == 0#1 then some (.andn ⟨field w 19 3, field w 13 6, field w 7 6, field w 1 6⟩) else none := by
  unfold decodeXBody; rw [h]; rfl

theorem decodeX_1d (w : Word) (h : field w 22 8 = 29#8) : decodeXBody w =
    if field w 0 1 == 0#1 then some (.shl ⟨field w 19 3, field w 13 6, field w 7 6, field w 1 6⟩) else none := by
  unfold decodeXBody; rw [h]; rfl

theorem decodeX_1e (w : Word) (h : field w 22 8 = 30#8) : decodeXBody w =
    if field w 0 1 == 0#1 then some (.shr ⟨field w 19 3, field w 13 6, field w 7 6, field w 1 6⟩) else none := by
  unfold decodeXBody; rw [h]; rfl

theorem decodeX_1f (w : Word) (h : field w 22 8 = 31#8) : decodeXBody w =
    if field w 0 1 == 0#1 then some (.sra ⟨field w 19 3, field w 13 6, field w 7 6, field w 1 6⟩) else none := by
  unfold decodeXBody; rw [h]; rfl

theorem decodeX_20 (w : Word) (h : field w 22 8 = 32#8) : decodeXBody w =
    if field w 0 1 == 0#1 then some (.rol ⟨field w 19 3, field w 13 6, field w 7 6, field w 1 6⟩) else none := by
  unfold decodeXBody; rw [h]; rfl

theorem decodeX_21 (w : Word) (h : field w 22 8 = 33#8) : decodeXBody w =
    if field w 0 7 == 0#7 then some (.clz ⟨field w 19 3, field w 13 6, field w 7 6⟩) else none := by
  unfold decodeXBody; rw [h]; rfl

theorem decodeX_22 (w : Word) (h : field w 22 8 = 34#8) : decodeXBody w =
    if field w 0 7 == 0#7 then some (.ctz ⟨field w 19 3, field w 13 6, field w 7 6⟩) else none := by
  unfold decodeXBody; rw [h]; rfl

theorem decodeX_23 (w : Word) (h : field w 22 8 = 35#8) : decodeXBody w =
    if field w 0 7 == 0#7 then some (.popc ⟨field w 19 3, field w 13 6, field w 7 6⟩) else none := by
  unfold decodeXBody; rw [h]; rfl

theorem decodeX_24 (w : Word) (h : field w 22 8 = 36#8) : decodeXBody w =
    if field w 0 1 == 0#1 then some (.bfx ⟨field w 19 3, field w 13 6, field w 7 6, field w 1 6⟩) else none := by
  unfold decodeXBody; rw [h]; rfl

theorem decodeX_25 (w : Word) (h : field w 22 8 = 37#8) : decodeXBody w =
    if field w 0 1 == 0#1 then some (.bfi ⟨field w 19 3, field w 13 6, field w 7 6, field w 1 6⟩) else none := by
  unfold decodeXBody; rw [h]; rfl

theorem decodeX_26 (w : Word) (h : field w 22 8 = 38#8) : decodeXBody w =
    some (.addc ⟨field w 19 3, field w 13 6, field w 7 6, field w 1 6, field w 0 1⟩) := by
  unfold decodeXBody; rw [h]; rfl

theorem decodeX_27 (w : Word) (h : field w 22 8 = 39#8) : decodeXBody w =
    some (.subc ⟨field w 19 3, field w 13 6, field w 7 6, field w 1 6, field w 0 1⟩) := by
  unfold decodeXBody; rw [h]; rfl

theorem decodeX_28 (w : Word) (h : field w 22 8 = 40#8) : decodeXBody w =
    some (.addi ⟨field w 19 3, field w 13 6, field w 7 6, field w 0 7⟩) := by
  unfold decodeXBody; rw [h]; rfl

theorem decodeX_29 (w : Word) (h : field w 22 8 = 41#8) : decodeXBody w =
    some (.andi ⟨field w 19 3, field w 13 6, field w 7 6, field w 0 7⟩) := by
  unfold decodeXBody; rw [h]; rfl

theorem decodeX_2a (w : Word) (h : field w 22 8 = 42#8) : decodeXBody w =
    some (.ori ⟨field w 19 3, field w 13 6, field w 7 6, field w 0 7⟩) := by
  unfold decodeXBody; rw [h]; rfl

theorem decodeX_2b (w : Word) (h : field w 22 8 = 43#8) : decodeXBody w =
    some (.xori ⟨field w 19 3, field w 13 6, field w 7 6, field w 0 7⟩) := by
  unfold decodeXBody; rw [h]; rfl

theorem decodeX_2c (w : Word) (h : field w 22 8 = 44#8) : decodeXBody w =
    some (.shli ⟨field w 19 3, field w 13 6, field w 7 6, field w 0 7⟩) := by
  unfold decodeXBody; rw [h]; rfl

theorem decodeX_2d (w : Word) (h : field w 22 8 = 45#8) : decodeXBody w =
    some (.shri ⟨field w 19 3, field w 13 6, field w 7 6, field w 0 7⟩) := by
  unfold decodeXBody; rw [h]; rfl

theorem decodeX_2e (w : Word) (h : field w 22 8 = 46#8) : decodeXBody w =
    some (.srai ⟨field w 19 3, field w 13 6, field w 7 6, field w 0 7⟩) := by
  unfold decodeXBody; rw [h]; rfl

theorem decodeX_2f (w : Word) (h : field w 22 8 = 47#8) : decodeXBody w =
    if field w 7 6 == 0#6 then some (.li ⟨field w 19 3, field w 13 6, field w 0 7⟩) else none := by
  unfold decodeXBody; rw [h]; rfl

theorem decodeX_30 (w : Word) (h : field w 22 8 = 48#8) : decodeXBody w =
    if field w 0 1 == 0#1 then some (.cmpI32 ⟨field w 19 3, field w 16 3, field w 13 3, field w 7 6, field w 1 6⟩) else none := by
  unfold decodeXBody; rw [h]; rfl

theorem decodeX_31 (w : Word) (h : field w 22 8 = 49#8) : decodeXBody w =
    if field w 0 1 == 0#1 then some (.cmpN32 ⟨field w 19 3, field w 16 3, field w 13 3, field w 7 6, field w 1 6⟩) else none := by
  unfold decodeXBody; rw [h]; rfl

theorem decodeX_32 (w : Word) (h : field w 22 8 = 50#8) : decodeXBody w =
    if field w 0 1 == 0#1 then some (.cmpF32 ⟨field w 19 3, field w 16 3, field w 13 3, field w 7 6, field w 1 6⟩) else none := by
  unfold decodeXBody; rw [h]; rfl

theorem decodeX_38 (w : Word) (h : field w 22 8 = 56#8) : decodeXBody w =
    if field w 0 1 == 0#1 then some (.addF32 ⟨field w 19 3, field w 13 6, field w 7 6, field w 1 6⟩) else none := by
  unfold decodeXBody; rw [h]; rfl

theorem decodeX_39 (w : Word) (h : field w 22 8 = 57#8) : decodeXBody w =
    if field w 0 1 == 0#1 then some (.subF32 ⟨field w 19 3, field w 13 6, field w 7 6, field w 1 6⟩) else none := by
  unfold decodeXBody; rw [h]; rfl

theorem decodeX_3a (w : Word) (h : field w 22 8 = 58#8) : decodeXBody w =
    if field w 0 1 == 0#1 then some (.mulF32 ⟨field w 19 3, field w 13 6, field w 7 6, field w 1 6⟩) else none := by
  unfold decodeXBody; rw [h]; rfl

theorem decodeX_3b (w : Word) (h : field w 22 8 = 59#8) : decodeXBody w =
    if field w 0 1 == 0#1 then some (.fmaF32 ⟨field w 19 3, field w 13 6, field w 7 6, field w 1 6⟩) else none := by
  unfold decodeXBody; rw [h]; rfl

theorem decodeX_3c (w : Word) (h : field w 22 8 = 60#8) : decodeXBody w =
    if field w 0 1 == 0#1 then some (.fmsF32 ⟨field w 19 3, field w 13 6, field w 7 6, field w 1 6⟩) else none := by
  unfold decodeXBody; rw [h]; rfl

theorem decodeX_3d (w : Word) (h : field w 22 8 = 61#8) : decodeXBody w =
    if field w 0 1 == 0#1 then some (.fnmaF32 ⟨field w 19 3, field w 13 6, field w 7 6, field w 1 6⟩) else none := by
  unfold decodeXBody; rw [h]; rfl

theorem decodeX_3e (w : Word) (h : field w 22 8 = 62#8) : decodeXBody w =
    if field w 0 1 == 0#1 then some (.fnmsF32 ⟨field w 19 3, field w 13 6, field w 7 6, field w 1 6⟩) else none := by
  unfold decodeXBody; rw [h]; rfl

theorem decodeX_3f (w : Word) (h : field w 22 8 = 63#8) : decodeXBody w =
    if field w 0 1 == 0#1 then some (.minF32 ⟨field w 19 3, field w 13 6, field w 7 6, field w 1 6⟩) else none := by
  unfold decodeXBody; rw [h]; rfl

theorem decodeX_40 (w : Word) (h : field w 22 8 = 64#8) : decodeXBody w =
    if field w 0 1 == 0#1 then some (.maxF32 ⟨field w 19 3, field w 13 6, field w 7 6, field w 1 6⟩) else none := by
  unfold decodeXBody; rw [h]; rfl

theorem decodeX_41 (w : Word) (h : field w 22 8 = 65#8) : decodeXBody w =
    if field w 0 7 == 0#7 then some (.absF32 ⟨field w 19 3, field w 13 6, field w 7 6⟩) else none := by
  unfold decodeXBody; rw [h]; rfl

theorem decodeX_42 (w : Word) (h : field w 22 8 = 66#8) : decodeXBody w =
    if field w 0 7 == 0#7 then some (.negF32 ⟨field w 19 3, field w 13 6, field w 7 6⟩) else none := by
  unfold decodeXBody; rw [h]; rfl

theorem decodeX_43 (w : Word) (h : field w 22 8 = 67#8) : decodeXBody w =
    if field w 0 7 == 0#7 then some (.rcpF32 ⟨field w 19 3, field w 13 6, field w 7 6⟩) else none := by
  unfold decodeXBody; rw [h]; rfl

theorem decodeX_44 (w : Word) (h : field w 22 8 = 68#8) : decodeXBody w =
    if field w 0 7 == 0#7 then some (.sqrtF32 ⟨field w 19 3, field w 13 6, field w 7 6⟩) else none := by
  unfold decodeXBody; rw [h]; rfl

theorem decodeX_45 (w : Word) (h : field w 22 8 = 69#8) : decodeXBody w =
    if field w 0 7 == 0#7 then some (.rsqF32 ⟨field w 19 3, field w 13 6, field w 7 6⟩) else none := by
  unfold decodeXBody; rw [h]; rfl

theorem decodeX_46 (w : Word) (h : field w 22 8 = 70#8) : decodeXBody w =
    if field w 0 7 == 0#7 then some (.ex2F32 ⟨field w 19 3, field w 13 6, field w 7 6⟩) else none := by
  unfold decodeXBody; rw [h]; rfl

theorem decodeX_47 (w : Word) (h : field w 22 8 = 71#8) : decodeXBody w =
    if field w 0 7 == 0#7 then some (.lg2F32 ⟨field w 19 3, field w 13 6, field w 7 6⟩) else none := by
  unfold decodeXBody; rw [h]; rfl

theorem decodeX_48 (w : Word) (h : field w 22 8 = 72#8) : decodeXBody w =
    if field w 0 7 == 0#7 then some (.tanhF32 ⟨field w 19 3, field w 13 6, field w 7 6⟩) else none := by
  unfold decodeXBody; rw [h]; rfl

theorem decodeX_60 (w : Word) (h : field w 22 8 = 96#8) : decodeXBody w =
    if field w 0 1 == 0#1 then some (.vaddF32 ⟨field w 19 3, field w 13 6, field w 7 6, field w 1 6⟩) else none := by
  unfold decodeXBody; rw [h]; rfl

theorem decodeX_61 (w : Word) (h : field w 22 8 = 97#8) : decodeXBody w =
    if field w 0 1 == 0#1 then some (.vsubF32 ⟨field w 19 3, field w 13 6, field w 7 6, field w 1 6⟩) else none := by
  unfold decodeXBody; rw [h]; rfl

theorem decodeX_62 (w : Word) (h : field w 22 8 = 98#8) : decodeXBody w =
    if field w 0 1 == 0#1 then some (.vmulF32 ⟨field w 19 3, field w 13 6, field w 7 6, field w 1 6⟩) else none := by
  unfold decodeXBody; rw [h]; rfl

theorem decodeX_63 (w : Word) (h : field w 22 8 = 99#8) : decodeXBody w =
    if field w 0 1 == 0#1 then some (.vfmaF32 ⟨field w 19 3, field w 13 6, field w 7 6, field w 1 6⟩) else none := by
  unfold decodeXBody; rw [h]; rfl

theorem decodeX_64 (w : Word) (h : field w 22 8 = 100#8) : decodeXBody w =
    if field w 0 1 == 0#1 then some (.vminF32 ⟨field w 19 3, field w 13 6, field w 7 6, field w 1 6⟩) else none := by
  unfold decodeXBody; rw [h]; rfl

theorem decodeX_65 (w : Word) (h : field w 22 8 = 101#8) : decodeXBody w =
    if field w 0 1 == 0#1 then some (.vmaxF32 ⟨field w 19 3, field w 13 6, field w 7 6, field w 1 6⟩) else none := by
  unfold decodeXBody; rw [h]; rfl

theorem decodeX_66 (w : Word) (h : field w 22 8 = 102#8) : decodeXBody w =
    if field w 0 1 == 0#1 then some (.vaddI32 ⟨field w 19 3, field w 13 6, field w 7 6, field w 1 6⟩) else none := by
  unfold decodeXBody; rw [h]; rfl

theorem decodeX_67 (w : Word) (h : field w 22 8 = 103#8) : decodeXBody w =
    if field w 0 1 == 0#1 then some (.vsubI32 ⟨field w 19 3, field w 13 6, field w 7 6, field w 1 6⟩) else none := by
  unfold decodeXBody; rw [h]; rfl

theorem decodeX_68 (w : Word) (h : field w 22 8 = 104#8) : decodeXBody w =
    if field w 0 1 == 0#1 then some (.vmulI32 ⟨field w 19 3, field w 13 6, field w 7 6, field w 1 6⟩) else none := by
  unfold decodeXBody; rw [h]; rfl

theorem decodeX_69 (w : Word) (h : field w 22 8 = 105#8) : decodeXBody w =
    if field w 0 1 == 0#1 then some (.vand ⟨field w 19 3, field w 13 6, field w 7 6, field w 1 6⟩) else none := by
  unfold decodeXBody; rw [h]; rfl

theorem decodeX_6a (w : Word) (h : field w 22 8 = 106#8) : decodeXBody w =
    if field w 0 1 == 0#1 then some (.vor ⟨field w 19 3, field w 13 6, field w 7 6, field w 1 6⟩) else none := by
  unfold decodeXBody; rw [h]; rfl

theorem decodeX_6b (w : Word) (h : field w 22 8 = 107#8) : decodeXBody w =
    if field w 0 1 == 0#1 then some (.vxor ⟨field w 19 3, field w 13 6, field w 7 6, field w 1 6⟩) else none := by
  unfold decodeXBody; rw [h]; rfl

theorem decodeX_6c (w : Word) (h : field w 22 8 = 108#8) : decodeXBody w =
    if field w 0 1 == 0#1 then some (.vshl ⟨field w 19 3, field w 13 6, field w 7 6, field w 1 6⟩) else none := by
  unfold decodeXBody; rw [h]; rfl

theorem decodeX_6d (w : Word) (h : field w 22 8 = 109#8) : decodeXBody w =
    if field w 0 1 == 0#1 then some (.vshr ⟨field w 19 3, field w 13 6, field w 7 6, field w 1 6⟩) else none := by
  unfold decodeXBody; rw [h]; rfl

theorem decodeX_6e (w : Word) (h : field w 22 8 = 110#8) : decodeXBody w =
    if field w 0 1 == 0#1 then some (.vsra ⟨field w 19 3, field w 13 6, field w 7 6, field w 1 6⟩) else none := by
  unfold decodeXBody; rw [h]; rfl

theorem decodeX_6f (w : Word) (h : field w 22 8 = 111#8) : decodeXBody w =
    if field w 0 1 == 0#1 then some (.vperm ⟨field w 19 3, field w 13 6, field w 7 6, field w 1 6⟩) else none := by
  unfold decodeXBody; rw [h]; rfl

theorem decodeX_70 (w : Word) (h : field w 22 8 = 112#8) : decodeXBody w =
    if field w 0 7 == 0#7 then some (.vbcast ⟨field w 19 3, field w 13 6, field w 7 6⟩) else none := by
  unfold decodeXBody; rw [h]; rfl

theorem decodeX_71 (w : Word) (h : field w 22 8 = 113#8) : decodeXBody w =
    if field w 0 1 == 0#1 && field w 13 6 == 63#6 then some (.vext ⟨field w 19 3, field w 7 6, field w 1 6⟩) else none := by
  unfold decodeXBody; rw [h]; rfl

theorem decodeX_72 (w : Word) (h : field w 22 8 = 114#8) : decodeXBody w =
    if field w 0 1 == 0#1 then some (.vins ⟨field w 19 3, field w 13 6, field w 7 6, field w 1 6⟩) else none := by
  unfold decodeXBody; rw [h]; rfl

theorem decodeX_73 (w : Word) (h : field w 22 8 = 115#8) : decodeXBody w =
    if field w 0 7 == 0#7 && field w 13 6 == 63#6 then some (.vredAddF32 ⟨field w 19 3, field w 7 6⟩) else none := by
  unfold decodeXBody; rw [h]; rfl

theorem decodeX_74 (w : Word) (h : field w 22 8 = 116#8) : decodeXBody w =
    if field w 0 7 == 0#7 && field w 13 6 == 63#6 then some (.vredMaxF32 ⟨field w 19 3, field w 7 6⟩) else none := by
  unfold decodeXBody; rw [h]; rfl

theorem decodeX_75 (w : Word) (h : field w 22 8 = 117#8) : decodeXBody w =
    if field w 0 7 == 0#7 && field w 13 6 == 63#6 then some (.vredAddI32 ⟨field w 19 3, field w 7 6⟩) else none := by
  unfold decodeXBody; rw [h]; rfl

theorem decodeX_76 (w : Word) (h : field w 22 8 = 118#8) : decodeXBody w =
    if field w 13 6 == 63#6 then some (.vredqF32 ⟨field w 19 3, field w 7 6, field w 1 6, field w 0 1⟩) else none := by
  unfold decodeXBody; rw [h]; rfl

theorem decodeX_77 (w : Word) (h : field w 22 8 = 119#8) : decodeXBody w =
    some (.vcvt ⟨field w 19 3, field w 13 6, field w 7 6, field w 4 3, field w 0 4⟩) := by
  unfold decodeXBody; rw [h]; rfl

theorem decodeX_90 (w : Word) (h : field w 22 8 = 144#8) : decodeXBody w =
    if field w 0 1 == 0#1 then some (.waddF32 ⟨field w 19 3, field w 13 6, field w 7 6, field w 1 6⟩) else none := by
  unfold decodeXBody; rw [h]; rfl

theorem decodeX_91 (w : Word) (h : field w 22 8 = 145#8) : decodeXBody w =
    if field w 0 1 == 0#1 then some (.wsubF32 ⟨field w 19 3, field w 13 6, field w 7 6, field w 1 6⟩) else none := by
  unfold decodeXBody; rw [h]; rfl

theorem decodeX_92 (w : Word) (h : field w 22 8 = 146#8) : decodeXBody w =
    if field w 0 1 == 0#1 then some (.wmulF32 ⟨field w 19 3, field w 13 6, field w 7 6, field w 1 6⟩) else none := by
  unfold decodeXBody; rw [h]; rfl

theorem decodeX_93 (w : Word) (h : field w 22 8 = 147#8) : decodeXBody w =
    if field w 0 1 == 0#1 then some (.wfmaF32 ⟨field w 19 3, field w 13 6, field w 7 6, field w 1 6⟩) else none := by
  unfold decodeXBody; rw [h]; rfl

theorem decodeX_94 (w : Word) (h : field w 22 8 = 148#8) : decodeXBody w =
    if field w 0 1 == 0#1 then some (.wminF32 ⟨field w 19 3, field w 13 6, field w 7 6, field w 1 6⟩) else none := by
  unfold decodeXBody; rw [h]; rfl

theorem decodeX_95 (w : Word) (h : field w 22 8 = 149#8) : decodeXBody w =
    if field w 0 1 == 0#1 then some (.wmaxF32 ⟨field w 19 3, field w 13 6, field w 7 6, field w 1 6⟩) else none := by
  unfold decodeXBody; rw [h]; rfl

theorem decodeX_96 (w : Word) (h : field w 22 8 = 150#8) : decodeXBody w =
    if field w 0 7 == 0#7 then some (.wbcastF32 ⟨field w 19 3, field w 13 6, field w 7 6⟩) else none := by
  unfold decodeXBody; rw [h]; rfl

theorem decodeX_97 (w : Word) (h : field w 22 8 = 151#8) : decodeXBody w =
    if field w 0 1 == 0#1 then some (.wins ⟨field w 19 3, field w 13 6, field w 7 6, field w 1 6⟩) else none := by
  unfold decodeXBody; rw [h]; rfl

theorem decodeX_98 (w : Word) (h : field w 22 8 = 152#8) : decodeXBody w =
    if field w 0 1 == 0#1 then some (.wext ⟨field w 19 3, field w 13 6, field w 7 6, field w 1 6⟩) else none := by
  unfold decodeXBody; rw [h]; rfl

theorem decodeX_99 (w : Word) (h : field w 22 8 = 153#8) : decodeXBody w =
    if field w 0 7 == 0#7 then some (.wredAddF32 ⟨field w 19 3, field w 13 6, field w 7 6⟩) else none := by
  unfold decodeXBody; rw [h]; rfl

theorem decodeX_9a (w : Word) (h : field w 22 8 = 154#8) : decodeXBody w =
    if field w 0 7 == 0#7 then some (.wredMaxF32 ⟨field w 19 3, field w 13 6, field w 7 6⟩) else none := by
  unfold decodeXBody; rw [h]; rfl

theorem decodeX_hint (w : Word) (h : field w 26 4 = 15#4) : decodeXBody w = some (.hintX ⟨field w 22 4, field w 0 22⟩) := by
  have e := split4 w
  rw [h] at e
  rcases four (field w 22 4) with h | h | h | h | h | h | h | h | h | h | h | h | h | h | h | h <;> rw [h] at e
  · unfold decodeXBody; rw [e.trans (show 15#4 ++ 0#4 = 240#8 by decide), h]; rfl
  · unfold decodeXBody; rw [e.trans (show 15#4 ++ 1#4 = 241#8 by decide), h]; rfl
  · unfold decodeXBody; rw [e.trans (show 15#4 ++ 2#4 = 242#8 by decide), h]; rfl
  · unfold decodeXBody; rw [e.trans (show 15#4 ++ 3#4 = 243#8 by decide), h]; rfl
  · unfold decodeXBody; rw [e.trans (show 15#4 ++ 4#4 = 244#8 by decide), h]; rfl
  · unfold decodeXBody; rw [e.trans (show 15#4 ++ 5#4 = 245#8 by decide), h]; rfl
  · unfold decodeXBody; rw [e.trans (show 15#4 ++ 6#4 = 246#8 by decide), h]; rfl
  · unfold decodeXBody; rw [e.trans (show 15#4 ++ 7#4 = 247#8 by decide), h]; rfl
  · unfold decodeXBody; rw [e.trans (show 15#4 ++ 8#4 = 248#8 by decide), h]; rfl
  · unfold decodeXBody; rw [e.trans (show 15#4 ++ 9#4 = 249#8 by decide), h]; rfl
  · unfold decodeXBody; rw [e.trans (show 15#4 ++ 10#4 = 250#8 by decide), h]; rfl
  · unfold decodeXBody; rw [e.trans (show 15#4 ++ 11#4 = 251#8 by decide), h]; rfl
  · unfold decodeXBody; rw [e.trans (show 15#4 ++ 12#4 = 252#8 by decide), h]; rfl
  · unfold decodeXBody; rw [e.trans (show 15#4 ++ 13#4 = 253#8 by decide), h]; rfl
  · unfold decodeXBody; rw [e.trans (show 15#4 ++ 14#4 = 254#8 by decide), h]; rfl
  · unfold decodeXBody; rw [e.trans (show 15#4 ++ 15#4 = 255#8 by decide), h]; rfl

theorem decodeX_cvt (w : Word) (h : field w 26 4 = 5#4) (h' : field w 22 4 ≠ 15#4) :
    decodeXBody w = some (.cvt ⟨field w 22 4, field w 19 3, field w 13 6, field w 7 6, field w 4 3, field w 0 4⟩) := by
  have e := split4 w
  rw [h] at e
  rcases four (field w 22 4) with h | h | h | h | h | h | h | h | h | h | h | h | h | h | h | h <;> rw [h] at e
  · unfold decodeXBody; rw [e.trans (show 5#4 ++ 0#4 = 80#8 by decide), h]; rfl
  · unfold decodeXBody; rw [e.trans (show 5#4 ++ 1#4 = 81#8 by decide), h]; rfl
  · unfold decodeXBody; rw [e.trans (show 5#4 ++ 2#4 = 82#8 by decide), h]; rfl
  · unfold decodeXBody; rw [e.trans (show 5#4 ++ 3#4 = 83#8 by decide), h]; rfl
  · unfold decodeXBody; rw [e.trans (show 5#4 ++ 4#4 = 84#8 by decide), h]; rfl
  · unfold decodeXBody; rw [e.trans (show 5#4 ++ 5#4 = 85#8 by decide), h]; rfl
  · unfold decodeXBody; rw [e.trans (show 5#4 ++ 6#4 = 86#8 by decide), h]; rfl
  · unfold decodeXBody; rw [e.trans (show 5#4 ++ 7#4 = 87#8 by decide), h]; rfl
  · unfold decodeXBody; rw [e.trans (show 5#4 ++ 8#4 = 88#8 by decide), h]; rfl
  · unfold decodeXBody; rw [e.trans (show 5#4 ++ 9#4 = 89#8 by decide), h]; rfl
  · unfold decodeXBody; rw [e.trans (show 5#4 ++ 10#4 = 90#8 by decide), h]; rfl
  · unfold decodeXBody; rw [e.trans (show 5#4 ++ 11#4 = 91#8 by decide), h]; rfl
  · unfold decodeXBody; rw [e.trans (show 5#4 ++ 12#4 = 92#8 by decide), h]; rfl
  · unfold decodeXBody; rw [e.trans (show 5#4 ++ 13#4 = 93#8 by decide), h]; rfl
  · unfold decodeXBody; rw [e.trans (show 5#4 ++ 14#4 = 94#8 by decide), h]; rfl
  · exact absurd h h'

theorem decodeA_hint (w : Word) (h : field w 26 4 = 15#4)
    (h' : ¬((field w 22 4).toNat < 2 ∧ field w 7 8 = 32#8 ∧ field w 19 3 = 0#3)) :
    decodeABody w = some (.hintA ⟨field w 22 4, field w 0 22⟩) := by
  have e := split4 w
  rw [h] at e
  have np (c : (field w 22 4).toNat < 2) : (field w 7 8 == 32#8 && field w 19 3 == 0#3) = false := by
    refine Bool.eq_false_iff.mpr fun hc => h' ?_
    simp only [Bool.and_eq_true, beq_iff_eq] at hc
    exact ⟨c, hc⟩
  rcases four (field w 22 4) with h | h | h | h | h | h | h | h | h | h | h | h | h | h | h | h <;> rw [h] at e
  · unfold decodeABody; rw [e.trans (show 15#4 ++ 0#4 = 240#8 by decide)]
    show (if _ then _ else _) = _
    rw [np (by rw [h]; decide)]; rfl
  · unfold decodeABody; rw [e.trans (show 15#4 ++ 1#4 = 241#8 by decide)]
    show (if _ then _ else _) = _
    rw [np (by rw [h]; decide)]; rfl
  · unfold decodeABody; rw [e.trans (show 15#4 ++ 2#4 = 242#8 by decide), h]; rfl
  · unfold decodeABody; rw [e.trans (show 15#4 ++ 3#4 = 243#8 by decide), h]; rfl
  · unfold decodeABody; rw [e.trans (show 15#4 ++ 4#4 = 244#8 by decide), h]; rfl
  · unfold decodeABody; rw [e.trans (show 15#4 ++ 5#4 = 245#8 by decide), h]; rfl
  · unfold decodeABody; rw [e.trans (show 15#4 ++ 6#4 = 246#8 by decide), h]; rfl
  · unfold decodeABody; rw [e.trans (show 15#4 ++ 7#4 = 247#8 by decide), h]; rfl
  · unfold decodeABody; rw [e.trans (show 15#4 ++ 8#4 = 248#8 by decide), h]; rfl
  · unfold decodeABody; rw [e.trans (show 15#4 ++ 9#4 = 249#8 by decide), h]; rfl
  · unfold decodeABody; rw [e.trans (show 15#4 ++ 10#4 = 250#8 by decide), h]; rfl
  · unfold decodeABody; rw [e.trans (show 15#4 ++ 11#4 = 251#8 by decide), h]; rfl
  · unfold decodeABody; rw [e.trans (show 15#4 ++ 12#4 = 252#8 by decide), h]; rfl
  · unfold decodeABody; rw [e.trans (show 15#4 ++ 13#4 = 253#8 by decide), h]; rfl
  · unfold decodeABody; rw [e.trans (show 15#4 ++ 14#4 = 254#8 by decide), h]; rfl
  · unfold decodeABody; rw [e.trans (show 15#4 ++ 15#4 = 255#8 by decide), h]; rfl

theorem encode_nopA : encode .nopA = 0#2 ++ 0x00#8 ++ 0#22 := rfl

theorem nopA : Statement .nopA := by
  refine ⟨fun _ ok => ⟨?_, ?_⟩, nofun⟩
  · rw [decodeA_00, encode_nopA]
    all_goals (simp (disch := decide) only [encode_nopA, BitVec.extractLsb'_append_eq_of_le, BitVec.extractLsb'_append_eq_of_add_le, Nat.reduceSub, BitVec.extractLsb'_eq_self, beq_self_eq_true, if_true, Bool.and_self]; try rfl)
  · rw [encode_nopA]; simp (disch := decide) only [BitVec.extractLsb'_append_eq_of_le, BitVec.extractLsb'_append_eq_of_add_le, Nat.reduceSub, BitVec.extractLsb'_eq_self]

theorem encode_hintA f : encode (.hintA f) = 0#2 ++ 15#4 ++ f.o ++ f.x := rfl

theorem hintA f : Statement (.hintA f) := by
  refine ⟨fun _ ok => ⟨?_, ?_⟩, nofun⟩
  · rw [decodeA_hint, encode_hintA]
    all_goals simp (disch := decide) only [encode_hintA, BitVec.extractLsb'_append_eq_of_le, BitVec.extractLsb'_append_eq_of_add_le, Nat.reduceSub, BitVec.extractLsb'_eq_self]
    intro hc
    simp [staticOk, prefPattern, hc] at ok
  · rw [encode_hintA]; simp (disch := decide) only [BitVec.extractLsb'_append_eq_of_le, BitVec.extractLsb'_append_eq_of_add_le, Nat.reduceSub, BitVec.extractLsb'_eq_self]

theorem encode_jmp f : encode (.jmp f) = 0#2 ++ 0x01#8 ++ f.o := rfl

theorem jmp f : Statement (.jmp f) := by
  refine ⟨fun _ ok => ⟨?_, ?_⟩, nofun⟩
  · rw [decodeA_01, encode_jmp]
    all_goals (simp (disch := decide) only [encode_jmp, BitVec.extractLsb'_append_eq_of_le, BitVec.extractLsb'_append_eq_of_add_le, Nat.reduceSub, BitVec.extractLsb'_eq_self, beq_self_eq_true, if_true, Bool.and_self]; try rfl)
  · rw [encode_jmp]; simp (disch := decide) only [BitVec.extractLsb'_append_eq_of_le, BitVec.extractLsb'_append_eq_of_add_le, Nat.reduceSub, BitVec.extractLsb'_eq_self]

theorem encode_call f : encode (.call f) = 0#2 ++ 0x02#8 ++ f.o := rfl

theorem call f : Statement (.call f) := by
  refine ⟨fun _ ok => ⟨?_, ?_⟩, nofun⟩
  · rw [decodeA_02, encode_call]
    all_goals (simp (disch := decide) only [encode_call, BitVec.extractLsb'_append_eq_of_le, BitVec.extractLsb'_append_eq_of_add_le, Nat.reduceSub, BitVec.extractLsb'_eq_self, beq_self_eq_true, if_true, Bool.and_self]; try rfl)
  · rw [encode_call]; simp (disch := decide) only [BitVec.extractLsb'_append_eq_of_le, BitVec.extractLsb'_append_eq_of_add_le, Nat.reduceSub, BitVec.extractLsb'_eq_self]

theorem encode_jr f : encode (.jr f) = 0#2 ++ 0x03#8 ++ 0#4 ++ f.a ++ 0#14 := rfl

theorem jr f : Statement (.jr f) := by
  refine ⟨fun _ ok => ⟨?_, ?_⟩, nofun⟩
  · rw [decodeA_03, encode_jr]
    all_goals (simp (disch := decide) only [encode_jr, BitVec.extractLsb'_append_eq_of_le, BitVec.extractLsb'_append_eq_of_add_le, Nat.reduceSub, BitVec.extractLsb'_eq_self, beq_self_eq_true, if_true, Bool.and_self]; try rfl)
  · rw [encode_jr]; simp (disch := decide) only [BitVec.extractLsb'_append_eq_of_le, BitVec.extractLsb'_append_eq_of_add_le, Nat.reduceSub, BitVec.extractLsb'_eq_self]

theorem encode_callr f : encode (.callr f) = 0#2 ++ 0x04#8 ++ f.d ++ f.a ++ 0#14 := rfl

theorem callr f : Statement (.callr f) := by
  refine ⟨fun _ ok => ⟨?_, ?_⟩, nofun⟩
  · rw [decodeA_04, encode_callr]
    all_goals (simp (disch := decide) only [encode_callr, BitVec.extractLsb'_append_eq_of_le, BitVec.extractLsb'_append_eq_of_add_le, Nat.reduceSub, BitVec.extractLsb'_eq_self, beq_self_eq_true, if_true, Bool.and_self]; try rfl)
  · rw [encode_callr]; simp (disch := decide) only [BitVec.extractLsb'_append_eq_of_le, BitVec.extractLsb'_append_eq_of_add_le, Nat.reduceSub, BitVec.extractLsb'_eq_self]

theorem encode_beq f : encode (.beq f) = 0#2 ++ 0x08#8 ++ f.a ++ f.b ++ 0#3 ++ f.o := rfl

theorem beq f : Statement (.beq f) := by
  refine ⟨fun _ ok => ⟨?_, ?_⟩, nofun⟩
  · rw [decodeA_08, encode_beq]
    all_goals (simp (disch := decide) only [encode_beq, BitVec.extractLsb'_append_eq_of_le, BitVec.extractLsb'_append_eq_of_add_le, Nat.reduceSub, BitVec.extractLsb'_eq_self, beq_self_eq_true, if_true, Bool.and_self]; try rfl)
  · rw [encode_beq]; simp (disch := decide) only [BitVec.extractLsb'_append_eq_of_le, BitVec.extractLsb'_append_eq_of_add_le, Nat.reduceSub, BitVec.extractLsb'_eq_self]

theorem encode_bne f : encode (.bne f) = 0#2 ++ 0x08#8 ++ f.a ++ f.b ++ 1#3 ++ f.o := rfl

theorem bne f : Statement (.bne f) := by
  refine ⟨fun _ ok => ⟨?_, ?_⟩, nofun⟩
  · rw [decodeA_08, encode_bne]
    all_goals (simp (disch := decide) only [encode_bne, BitVec.extractLsb'_append_eq_of_le, BitVec.extractLsb'_append_eq_of_add_le, Nat.reduceSub, BitVec.extractLsb'_eq_self, beq_self_eq_true, if_true, Bool.and_self]; try rfl)
  · rw [encode_bne]; simp (disch := decide) only [BitVec.extractLsb'_append_eq_of_le, BitVec.extractLsb'_append_eq_of_add_le, Nat.reduceSub, BitVec.extractLsb'_eq_self]

theorem encode_blt f : encode (.blt f) = 0#2 ++ 0x08#8 ++ f.a ++ f.b ++ 2#3 ++ f.o := rfl

theorem blt f : Statement (.blt f) := by
  refine ⟨fun _ ok => ⟨?_, ?_⟩, nofun⟩
  · rw [decodeA_08, encode_blt]
    all_goals (simp (disch := decide) only [encode_blt, BitVec.extractLsb'_append_eq_of_le, BitVec.extractLsb'_append_eq_of_add_le, Nat.reduceSub, BitVec.extractLsb'_eq_self, beq_self_eq_true, if_true, Bool.and_self]; try rfl)
  · rw [encode_blt]; simp (disch := decide) only [BitVec.extractLsb'_append_eq_of_le, BitVec.extractLsb'_append_eq_of_add_le, Nat.reduceSub, BitVec.extractLsb'_eq_self]

theorem encode_bge f : encode (.bge f) = 0#2 ++ 0x08#8 ++ f.a ++ f.b ++ 3#3 ++ f.o := rfl

theorem bge f : Statement (.bge f) := by
  refine ⟨fun _ ok => ⟨?_, ?_⟩, nofun⟩
  · rw [decodeA_08, encode_bge]
    all_goals (simp (disch := decide) only [encode_bge, BitVec.extractLsb'_append_eq_of_le, BitVec.extractLsb'_append_eq_of_add_le, Nat.reduceSub, BitVec.extractLsb'_eq_self, beq_self_eq_true, if_true, Bool.and_self]; try rfl)
  · rw [encode_bge]; simp (disch := decide) only [BitVec.extractLsb'_append_eq_of_le, BitVec.extractLsb'_append_eq_of_add_le, Nat.reduceSub, BitVec.extractLsb'_eq_self]

theorem encode_bltu f : encode (.bltu f) = 0#2 ++ 0x08#8 ++ f.a ++ f.b ++ 4#3 ++ f.o := rfl

theorem bltu f : Statement (.bltu f) := by
  refine ⟨fun _ ok => ⟨?_, ?_⟩, nofun⟩
  · rw [decodeA_08, encode_bltu]
    all_goals (simp (disch := decide) only [encode_bltu, BitVec.extractLsb'_append_eq_of_le, BitVec.extractLsb'_append_eq_of_add_le, Nat.reduceSub, BitVec.extractLsb'_eq_self, beq_self_eq_true, if_true, Bool.and_self]; try rfl)
  · rw [encode_bltu]; simp (disch := decide) only [BitVec.extractLsb'_append_eq_of_le, BitVec.extractLsb'_append_eq_of_add_le, Nat.reduceSub, BitVec.extractLsb'_eq_self]

theorem encode_bgeu f : encode (.bgeu f) = 0#2 ++ 0x08#8 ++ f.a ++ f.b ++ 5#3 ++ f.o := rfl

theorem bgeu f : Statement (.bgeu f) := by
  refine ⟨fun _ ok => ⟨?_, ?_⟩, nofun⟩
  · rw [decodeA_08, encode_bgeu]
    all_goals (simp (disch := decide) only [encode_bgeu, BitVec.extractLsb'_append_eq_of_le, BitVec.extractLsb'_append_eq_of_add_le, Nat.reduceSub, BitVec.extractLsb'_eq_self, beq_self_eq_true, if_true, Bool.and_self]; try rfl)
  · rw [encode_bgeu]; simp (disch := decide) only [BitVec.extractLsb'_append_eq_of_le, BitVec.extractLsb'_append_eq_of_add_le, Nat.reduceSub, BitVec.extractLsb'_eq_self]

theorem encode_bxz f : encode (.bxz f) = 0#2 ++ 0x09#8 ++ 0#3 ++ f.o := rfl

theorem bxz f : Statement (.bxz f) := by
  refine ⟨fun _ ok => ⟨?_, ?_⟩, nofun⟩
  · rw [decodeA_09, encode_bxz]
    all_goals (simp (disch := decide) only [encode_bxz, BitVec.extractLsb'_append_eq_of_le, BitVec.extractLsb'_append_eq_of_add_le, Nat.reduceSub, BitVec.extractLsb'_eq_self, beq_self_eq_true, if_true, Bool.and_self]; try rfl)
  · rw [encode_bxz]; simp (disch := decide) only [BitVec.extractLsb'_append_eq_of_le, BitVec.extractLsb'_append_eq_of_add_le, Nat.reduceSub, BitVec.extractLsb'_eq_self]

theorem encode_bxnz f : encode (.bxnz f) = 0#2 ++ 0x09#8 ++ 1#3 ++ f.o := rfl

theorem bxnz f : Statement (.bxnz f) := by
  refine ⟨fun _ ok => ⟨?_, ?_⟩, nofun⟩
  · rw [decodeA_09, encode_bxnz]
    all_goals (simp (disch := decide) only [encode_bxnz, BitVec.extractLsb'_append_eq_of_le, BitVec.extractLsb'_append_eq_of_add_le, Nat.reduceSub, BitVec.extractLsb'_eq_self, beq_self_eq_true, if_true, Bool.and_self]; try rfl)
  · rw [encode_bxnz]; simp (disch := decide) only [BitVec.extractLsb'_append_eq_of_le, BitVec.extractLsb'_append_eq_of_add_le, Nat.reduceSub, BitVec.extractLsb'_eq_self]

theorem encode_bxlt f : encode (.bxlt f) = 0#2 ++ 0x09#8 ++ 2#3 ++ f.o := rfl

theorem bxlt f : Statement (.bxlt f) := by
  refine ⟨fun _ ok => ⟨?_, ?_⟩, nofun⟩
  · rw [decodeA_09, encode_bxlt]
    all_goals (simp (disch := decide) only [encode_bxlt, BitVec.extractLsb'_append_eq_of_le, BitVec.extractLsb'_append_eq_of_add_le, Nat.reduceSub, BitVec.extractLsb'_eq_self, beq_self_eq_true, if_true, Bool.and_self]; try rfl)
  · rw [encode_bxlt]; simp (disch := decide) only [BitVec.extractLsb'_append_eq_of_le, BitVec.extractLsb'_append_eq_of_add_le, Nat.reduceSub, BitVec.extractLsb'_eq_self]

theorem encode_bxge f : encode (.bxge f) = 0#2 ++ 0x09#8 ++ 3#3 ++ f.o := rfl

theorem bxge f : Statement (.bxge f) := by
  refine ⟨fun _ ok => ⟨?_, ?_⟩, nofun⟩
  · rw [decodeA_09, encode_bxge]
    all_goals (simp (disch := decide) only [encode_bxge, BitVec.extractLsb'_append_eq_of_le, BitVec.extractLsb'_append_eq_of_add_le, Nat.reduceSub, BitVec.extractLsb'_eq_self, beq_self_eq_true, if_true, Bool.and_self]; try rfl)
  · rw [encode_bxge]; simp (disch := decide) only [BitVec.extractLsb'_append_eq_of_le, BitVec.extractLsb'_append_eq_of_add_le, Nat.reduceSub, BitVec.extractLsb'_eq_self]

theorem encode_bgd f : encode (.bgd f) = 0#2 ++ 0x0a#8 ++ f.s ++ 1#1 ++ f.o := rfl

theorem bgd f : Statement (.bgd f) := by
  refine ⟨fun _ ok => ⟨?_, ?_⟩, nofun⟩
  · rw [decodeA_0a, encode_bgd]
    all_goals (simp (disch := decide) only [encode_bgd, BitVec.extractLsb'_append_eq_of_le, BitVec.extractLsb'_append_eq_of_add_le, Nat.reduceSub, BitVec.extractLsb'_eq_self, beq_self_eq_true, if_true, Bool.and_self]; try rfl)
  · rw [encode_bgd]; simp (disch := decide) only [BitVec.extractLsb'_append_eq_of_le, BitVec.extractLsb'_append_eq_of_add_le, Nat.reduceSub, BitVec.extractLsb'_eq_self]

theorem encode_bngd f : encode (.bngd f) = 0#2 ++ 0x0a#8 ++ f.s ++ 0#1 ++ f.o := rfl

theorem bngd f : Statement (.bngd f) := by
  refine ⟨fun _ ok => ⟨?_, ?_⟩, nofun⟩
  · rw [decodeA_0a, encode_bngd]
    all_goals (simp (disch := decide) only [encode_bngd, BitVec.extractLsb'_append_eq_of_le, BitVec.extractLsb'_append_eq_of_add_le, Nat.reduceSub, BitVec.extractLsb'_eq_self, beq_self_eq_true, if_true, Bool.and_self]; try rfl)
  · rw [encode_bngd]; simp (disch := decide) only [BitVec.extractLsb'_append_eq_of_le, BitVec.extractLsb'_append_eq_of_add_le, Nat.reduceSub, BitVec.extractLsb'_eq_self]

theorem encode_loop f : encode (.loop f) = 0#2 ++ 0x0b#8 ++ f.c ++ f.r ++ f.n ++ f.e := rfl

theorem loop f : Statement (.loop f) := by
  refine ⟨fun _ ok => ⟨?_, ?_⟩, nofun⟩
  · rw [decodeA_0b, encode_loop]
    all_goals (simp (disch := decide) only [encode_loop, BitVec.extractLsb'_append_eq_of_le, BitVec.extractLsb'_append_eq_of_add_le, Nat.reduceSub, BitVec.extractLsb'_eq_self, beq_self_eq_true, if_true, Bool.and_self]; try rfl)
  · rw [encode_loop]; simp (disch := decide) only [BitVec.extractLsb'_append_eq_of_le, BitVec.extractLsb'_append_eq_of_add_le, Nat.reduceSub, BitVec.extractLsb'_eq_self]

theorem encode_aadd f : encode (.aadd f) = 0#2 ++ 0x10#8 ++ f.d ++ f.a ++ f.b ++ 0#10 := rfl

theorem aadd f : Statement (.aadd f) := by
  refine ⟨fun _ ok => ⟨?_, ?_⟩, nofun⟩
  · rw [decodeA_10, encode_aadd]
    all_goals (simp (disch := decide) only [encode_aadd, BitVec.extractLsb'_append_eq_of_le, BitVec.extractLsb'_append_eq_of_add_le, Nat.reduceSub, BitVec.extractLsb'_eq_self, beq_self_eq_true, if_true, Bool.and_self]; try rfl)
  · rw [encode_aadd]; simp (disch := decide) only [BitVec.extractLsb'_append_eq_of_le, BitVec.extractLsb'_append_eq_of_add_le, Nat.reduceSub, BitVec.extractLsb'_eq_self]

theorem encode_asub f : encode (.asub f) = 0#2 ++ 0x11#8 ++ f.d ++ f.a ++ f.b ++ 0#10 := rfl

theorem asub f : Statement (.asub f) := by
  refine ⟨fun _ ok => ⟨?_, ?_⟩, nofun⟩
  · rw [decodeA_11, encode_asub]
    all_goals (simp (disch := decide) only [encode_asub, BitVec.extractLsb'_append_eq_of_le, BitVec.extractLsb'_append_eq_of_add_le, Nat.reduceSub, BitVec.extractLsb'_eq_self, beq_self_eq_true, if_true, Bool.and_self]; try rfl)
  · rw [encode_asub]; simp (disch := decide) only [BitVec.extractLsb'_append_eq_of_le, BitVec.extractLsb'_append_eq_of_add_le, Nat.reduceSub, BitVec.extractLsb'_eq_self]

theorem encode_aand f : encode (.aand f) = 0#2 ++ 0x12#8 ++ f.d ++ f.a ++ f.b ++ 0#10 := rfl

theorem aand f : Statement (.aand f) := by
  refine ⟨fun _ ok => ⟨?_, ?_⟩, nofun⟩
  · rw [decodeA_12, encode_aand]
    all_goals (simp (disch := decide) only [encode_aand, BitVec.extractLsb'_append_eq_of_le, BitVec.extractLsb'_append_eq_of_add_le, Nat.reduceSub, BitVec.extractLsb'_eq_self, beq_self_eq_true, if_true, Bool.and_self]; try rfl)
  · rw [encode_aand]; simp (disch := decide) only [BitVec.extractLsb'_append_eq_of_le, BitVec.extractLsb'_append_eq_of_add_le, Nat.reduceSub, BitVec.extractLsb'_eq_self]

theorem encode_aor f : encode (.aor f) = 0#2 ++ 0x13#8 ++ f.d ++ f.a ++ f.b ++ 0#10 := rfl

theorem aor f : Statement (.aor f) := by
  refine ⟨fun _ ok => ⟨?_, ?_⟩, nofun⟩
  · rw [decodeA_13, encode_aor]
    all_goals (simp (disch := decide) only [encode_aor, BitVec.extractLsb'_append_eq_of_le, BitVec.extractLsb'_append_eq_of_add_le, Nat.reduceSub, BitVec.extractLsb'_eq_self, beq_self_eq_true, if_true, Bool.and_self]; try rfl)
  · rw [encode_aor]; simp (disch := decide) only [BitVec.extractLsb'_append_eq_of_le, BitVec.extractLsb'_append_eq_of_add_le, Nat.reduceSub, BitVec.extractLsb'_eq_self]

theorem encode_axor f : encode (.axor f) = 0#2 ++ 0x14#8 ++ f.d ++ f.a ++ f.b ++ 0#10 := rfl

theorem axor f : Statement (.axor f) := by
  refine ⟨fun _ ok => ⟨?_, ?_⟩, nofun⟩
  · rw [decodeA_14, encode_axor]
    all_goals (simp (disch := decide) only [encode_axor, BitVec.extractLsb'_append_eq_of_le, BitVec.extractLsb'_append_eq_of_add_le, Nat.reduceSub, BitVec.extractLsb'_eq_self, beq_self_eq_true, if_true, Bool.and_self]; try rfl)
  · rw [encode_axor]; simp (disch := decide) only [BitVec.extractLsb'_append_eq_of_le, BitVec.extractLsb'_append_eq_of_add_le, Nat.reduceSub, BitVec.extractLsb'_eq_self]

theorem encode_ashl f : encode (.ashl f) = 0#2 ++ 0x15#8 ++ f.d ++ f.a ++ f.b ++ 0#10 := rfl

theorem ashl f : Statement (.ashl f) := by
  refine ⟨fun _ ok => ⟨?_, ?_⟩, nofun⟩
  · rw [decodeA_15, encode_ashl]
    all_goals (simp (disch := decide) only [encode_ashl, BitVec.extractLsb'_append_eq_of_le, BitVec.extractLsb'_append_eq_of_add_le, Nat.reduceSub, BitVec.extractLsb'_eq_self, beq_self_eq_true, if_true, Bool.and_self]; try rfl)
  · rw [encode_ashl]; simp (disch := decide) only [BitVec.extractLsb'_append_eq_of_le, BitVec.extractLsb'_append_eq_of_add_le, Nat.reduceSub, BitVec.extractLsb'_eq_self]

theorem encode_ashr f : encode (.ashr f) = 0#2 ++ 0x16#8 ++ f.d ++ f.a ++ f.b ++ 0#10 := rfl

theorem ashr f : Statement (.ashr f) := by
  refine ⟨fun _ ok => ⟨?_, ?_⟩, nofun⟩
  · rw [decodeA_16, encode_ashr]
    all_goals (simp (disch := decide) only [encode_ashr, BitVec.extractLsb'_append_eq_of_le, BitVec.extractLsb'_append_eq_of_add_le, Nat.reduceSub, BitVec.extractLsb'_eq_self, beq_self_eq_true, if_true, Bool.and_self]; try rfl)
  · rw [encode_ashr]; simp (disch := decide) only [BitVec.extractLsb'_append_eq_of_le, BitVec.extractLsb'_append_eq_of_add_le, Nat.reduceSub, BitVec.extractLsb'_eq_self]

theorem encode_asra f : encode (.asra f) = 0#2 ++ 0x17#8 ++ f.d ++ f.a ++ f.b ++ 0#10 := rfl

theorem asra f : Statement (.asra f) := by
  refine ⟨fun _ ok => ⟨?_, ?_⟩, nofun⟩
  · rw [decodeA_17, encode_asra]
    all_goals (simp (disch := decide) only [encode_asra, BitVec.extractLsb'_append_eq_of_le, BitVec.extractLsb'_append_eq_of_add_le, Nat.reduceSub, BitVec.extractLsb'_eq_self, beq_self_eq_true, if_true, Bool.and_self]; try rfl)
  · rw [encode_asra]; simp (disch := decide) only [BitVec.extractLsb'_append_eq_of_le, BitVec.extractLsb'_append_eq_of_add_le, Nat.reduceSub, BitVec.extractLsb'_eq_self]

theorem encode_amul f : encode (.amul f) = 0#2 ++ 0x18#8 ++ f.d ++ f.a ++ f.b ++ 0#10 := rfl

theorem amul f : Statement (.amul f) := by
  refine ⟨fun _ ok => ⟨?_, ?_⟩, nofun⟩
  · rw [decodeA_18, encode_amul]
    all_goals (simp (disch := decide) only [encode_amul, BitVec.extractLsb'_append_eq_of_le, BitVec.extractLsb'_append_eq_of_add_le, Nat.reduceSub, BitVec.extractLsb'_eq_self, beq_self_eq_true, if_true, Bool.and_self]; try rfl)
  · rw [encode_amul]; simp (disch := decide) only [BitVec.extractLsb'_append_eq_of_le, BitVec.extractLsb'_append_eq_of_add_le, Nat.reduceSub, BitVec.extractLsb'_eq_self]

theorem encode_apeer f : encode (.apeer f) = 0#2 ++ 0x19#8 ++ f.d ++ f.a ++ f.b ++ 0#10 := rfl

theorem apeer f : Statement (.apeer f) := by
  refine ⟨fun _ ok => ⟨?_, ?_⟩, nofun⟩
  · rw [decodeA_19, encode_apeer]
    all_goals (simp (disch := decide) only [encode_apeer, BitVec.extractLsb'_append_eq_of_le, BitVec.extractLsb'_append_eq_of_add_le, Nat.reduceSub, BitVec.extractLsb'_eq_self, beq_self_eq_true, if_true, Bool.and_self]; try rfl)
  · rw [encode_apeer]; simp (disch := decide) only [BitVec.extractLsb'_append_eq_of_le, BitVec.extractLsb'_append_eq_of_add_le, Nat.reduceSub, BitVec.extractLsb'_eq_self]

theorem encode_aaddi f : encode (.aaddi f) = 0#2 ++ 0x20#8 ++ f.d ++ f.a ++ f.i := rfl

theorem aaddi f : Statement (.aaddi f) := by
  refine ⟨fun _ ok => ⟨?_, ?_⟩, nofun⟩
  · rw [decodeA_20, encode_aaddi]
    all_goals (simp (disch := decide) only [encode_aaddi, BitVec.extractLsb'_append_eq_of_le, BitVec.extractLsb'_append_eq_of_add_le, Nat.reduceSub, BitVec.extractLsb'_eq_self, beq_self_eq_true, if_true, Bool.and_self]; try rfl)
  · rw [encode_aaddi]; simp (disch := decide) only [BitVec.extractLsb'_append_eq_of_le, BitVec.extractLsb'_append_eq_of_add_le, Nat.reduceSub, BitVec.extractLsb'_eq_self]

theorem encode_aandi f : encode (.aandi f) = 0#2 ++ 0x21#8 ++ f.d ++ f.a ++ f.i := rfl

theorem aandi f : Statement (.aandi f) := by
  refine ⟨fun _ ok => ⟨?_, ?_⟩, nofun⟩
  · rw [decodeA_21, encode_aandi]
    all_goals (simp (disch := decide) only [encode_aandi, BitVec.extractLsb'_append_eq_of_le, BitVec.extractLsb'_append_eq_of_add_le, Nat.reduceSub, BitVec.extractLsb'_eq_self, beq_self_eq_true, if_true, Bool.and_self]; try rfl)
  · rw [encode_aandi]; simp (disch := decide) only [BitVec.extractLsb'_append_eq_of_le, BitVec.extractLsb'_append_eq_of_add_le, Nat.reduceSub, BitVec.extractLsb'_eq_self]

theorem encode_aori f : encode (.aori f) = 0#2 ++ 0x22#8 ++ f.d ++ f.a ++ f.i := rfl

theorem aori f : Statement (.aori f) := by
  refine ⟨fun _ ok => ⟨?_, ?_⟩, nofun⟩
  · rw [decodeA_22, encode_aori]
    all_goals (simp (disch := decide) only [encode_aori, BitVec.extractLsb'_append_eq_of_le, BitVec.extractLsb'_append_eq_of_add_le, Nat.reduceSub, BitVec.extractLsb'_eq_self, beq_self_eq_true, if_true, Bool.and_self]; try rfl)
  · rw [encode_aori]; simp (disch := decide) only [BitVec.extractLsb'_append_eq_of_le, BitVec.extractLsb'_append_eq_of_add_le, Nat.reduceSub, BitVec.extractLsb'_eq_self]

theorem encode_axori f : encode (.axori f) = 0#2 ++ 0x23#8 ++ f.d ++ f.a ++ f.i := rfl

theorem axori f : Statement (.axori f) := by
  refine ⟨fun _ ok => ⟨?_, ?_⟩, nofun⟩
  · rw [decodeA_23, encode_axori]
    all_goals (simp (disch := decide) only [encode_axori, BitVec.extractLsb'_append_eq_of_le, BitVec.extractLsb'_append_eq_of_add_le, Nat.reduceSub, BitVec.extractLsb'_eq_self, beq_self_eq_true, if_true, Bool.and_self]; try rfl)
  · rw [encode_axori]; simp (disch := decide) only [BitVec.extractLsb'_append_eq_of_le, BitVec.extractLsb'_append_eq_of_add_le, Nat.reduceSub, BitVec.extractLsb'_eq_self]

theorem encode_ashli f : encode (.ashli f) = 0#2 ++ 0x24#8 ++ f.d ++ f.a ++ f.i := rfl

theorem ashli f : Statement (.ashli f) := by
  refine ⟨fun _ ok => ⟨?_, ?_⟩, nofun⟩
  · rw [decodeA_24, encode_ashli]
    all_goals (simp (disch := decide) only [encode_ashli, BitVec.extractLsb'_append_eq_of_le, BitVec.extractLsb'_append_eq_of_add_le, Nat.reduceSub, BitVec.extractLsb'_eq_self, beq_self_eq_true, if_true, Bool.and_self]; try rfl)
  · rw [encode_ashli]; simp (disch := decide) only [BitVec.extractLsb'_append_eq_of_le, BitVec.extractLsb'_append_eq_of_add_le, Nat.reduceSub, BitVec.extractLsb'_eq_self]

theorem encode_ashri f : encode (.ashri f) = 0#2 ++ 0x25#8 ++ f.d ++ f.a ++ f.i := rfl

theorem ashri f : Statement (.ashri f) := by
  refine ⟨fun _ ok => ⟨?_, ?_⟩, nofun⟩
  · rw [decodeA_25, encode_ashri]
    all_goals (simp (disch := decide) only [encode_ashri, BitVec.extractLsb'_append_eq_of_le, BitVec.extractLsb'_append_eq_of_add_le, Nat.reduceSub, BitVec.extractLsb'_eq_self, beq_self_eq_true, if_true, Bool.and_self]; try rfl)
  · rw [encode_ashri]; simp (disch := decide) only [BitVec.extractLsb'_append_eq_of_le, BitVec.extractLsb'_append_eq_of_add_le, Nat.reduceSub, BitVec.extractLsb'_eq_self]

theorem encode_asrai f : encode (.asrai f) = 0#2 ++ 0x26#8 ++ f.d ++ f.a ++ f.i := rfl

theorem asrai f : Statement (.asrai f) := by
  refine ⟨fun _ ok => ⟨?_, ?_⟩, nofun⟩
  · rw [decodeA_26, encode_asrai]
    all_goals (simp (disch := decide) only [encode_asrai, BitVec.extractLsb'_append_eq_of_le, BitVec.extractLsb'_append_eq_of_add_le, Nat.reduceSub, BitVec.extractLsb'_eq_self, beq_self_eq_true, if_true, Bool.and_self]; try rfl)
  · rw [encode_asrai]; simp (disch := decide) only [BitVec.extractLsb'_append_eq_of_le, BitVec.extractLsb'_append_eq_of_add_le, Nat.reduceSub, BitVec.extractLsb'_eq_self]

theorem encode_ali f : encode (.ali f) = 0#2 ++ 0x27#8 ++ f.d ++ 0#4 ++ f.i := rfl

theorem ali f : Statement (.ali f) := by
  refine ⟨fun _ ok => ⟨?_, ?_⟩, nofun⟩
  · rw [decodeA_27, encode_ali]
    all_goals (simp (disch := decide) only [encode_ali, BitVec.extractLsb'_append_eq_of_le, BitVec.extractLsb'_append_eq_of_add_le, Nat.reduceSub, BitVec.extractLsb'_eq_self, beq_self_eq_true, if_true, Bool.and_self]; try rfl)
  · rw [encode_ali]; simp (disch := decide) only [BitVec.extractLsb'_append_eq_of_le, BitVec.extractLsb'_append_eq_of_add_le, Nat.reduceSub, BitVec.extractLsb'_eq_self]

theorem encode_alh f : encode (.alh f) = 0#2 ++ 0x28#8 ++ f.d ++ f.a ++ f.i := rfl

theorem alh f : Statement (.alh f) := by
  refine ⟨fun _ ok => ⟨?_, ?_⟩, nofun⟩
  · rw [decodeA_28, encode_alh]
    all_goals (simp (disch := decide) only [encode_alh, BitVec.extractLsb'_append_eq_of_le, BitVec.extractLsb'_append_eq_of_add_le, Nat.reduceSub, BitVec.extractLsb'_eq_self, beq_self_eq_true, if_true, Bool.and_self]; try rfl)
  · rw [encode_alh]; simp (disch := decide) only [BitVec.extractLsb'_append_eq_of_le, BitVec.extractLsb'_append_eq_of_add_le, Nat.reduceSub, BitVec.extractLsb'_eq_self]

theorem encode_ldSp f : encode (.ldSp f) = 0#2 ++ 6#5 ++ f.w ++ 0#3 ++ f.b ++ f.d ++ f.r ++ f.o := rfl

theorem ldSp f : Statement (.ldSp f) := by
  refine ⟨fun _ ok => ⟨?_, ?_⟩, nofun⟩
  · rw [decodeA_06w, encode_ldSp]
    all_goals (simp (disch := decide) only [encode_ldSp, BitVec.extractLsb'_append_eq_of_le, BitVec.extractLsb'_append_eq_of_add_le, Nat.reduceSub, BitVec.extractLsb'_eq_self, beq_self_eq_true, if_true, Bool.and_self]; try rfl)
  · rw [encode_ldSp]; simp (disch := decide) only [BitVec.extractLsb'_append_eq_of_le, BitVec.extractLsb'_append_eq_of_add_le, Nat.reduceSub, BitVec.extractLsb'_eq_self]

theorem encode_ldPr f : encode (.ldPr f) = 0#2 ++ 7#5 ++ f.w ++ 0#3 ++ f.b ++ f.d ++ f.r ++ f.o := rfl

theorem ldPr f : Statement (.ldPr f) := by
  refine ⟨fun _ ok => ⟨?_, ?_⟩, nofun⟩
  · rw [decodeA_07w, encode_ldPr]
    all_goals (simp (disch := decide) only [encode_ldPr, BitVec.extractLsb'_append_eq_of_le, BitVec.extractLsb'_append_eq_of_add_le, Nat.reduceSub, BitVec.extractLsb'_eq_self, beq_self_eq_true, if_true, Bool.and_self]; try rfl)
  · rw [encode_ldPr]; simp (disch := decide) only [BitVec.extractLsb'_append_eq_of_le, BitVec.extractLsb'_append_eq_of_add_le, Nat.reduceSub, BitVec.extractLsb'_eq_self]

theorem encode_ldQl f : encode (.ldQl f) = 0#2 ++ 8#5 ++ f.w ++ 0#3 ++ f.b ++ f.d ++ f.r ++ f.o := rfl

theorem ldQl f : Statement (.ldQl f) := by
  refine ⟨fun _ ok => ⟨?_, ?_⟩, nofun⟩
  · rw [decodeA_08w, encode_ldQl]
    all_goals (simp (disch := decide) only [encode_ldQl, BitVec.extractLsb'_append_eq_of_le, BitVec.extractLsb'_append_eq_of_add_le, Nat.reduceSub, BitVec.extractLsb'_eq_self, beq_self_eq_true, if_true, Bool.and_self]; try rfl)
  · rw [encode_ldQl]; simp (disch := decide) only [BitVec.extractLsb'_append_eq_of_le, BitVec.extractLsb'_append_eq_of_add_le, Nat.reduceSub, BitVec.extractLsb'_eq_self]

theorem encode_ldGl f : encode (.ldGl f) = 0#2 ++ 9#5 ++ f.w ++ 0#3 ++ f.b ++ f.d ++ f.r ++ f.o := rfl

theorem ldGl f : Statement (.ldGl f) := by
  refine ⟨fun _ ok => ⟨?_, ?_⟩, nofun⟩
  · rw [decodeA_09w, encode_ldGl]
    all_goals (simp (disch := decide) only [encode_ldGl, BitVec.extractLsb'_append_eq_of_le, BitVec.extractLsb'_append_eq_of_add_le, Nat.reduceSub, BitVec.extractLsb'_eq_self, beq_self_eq_true, if_true, Bool.and_self]; try rfl)
  · rw [encode_ldGl]; simp (disch := decide) only [BitVec.extractLsb'_append_eq_of_le, BitVec.extractLsb'_append_eq_of_add_le, Nat.reduceSub, BitVec.extractLsb'_eq_self]

theorem encode_stSp f : encode (.stSp f) = 0#2 ++ 10#5 ++ f.w ++ f.g ++ f.b ++ f.d ++ f.r ++ f.o := rfl

theorem stSp f : Statement (.stSp f) := by
  refine ⟨fun _ ok => ⟨?_, ?_⟩, nofun⟩
  · rw [decodeA_0aw, encode_stSp]
    all_goals (simp (disch := decide) only [encode_stSp, BitVec.extractLsb'_append_eq_of_le, BitVec.extractLsb'_append_eq_of_add_le, Nat.reduceSub, BitVec.extractLsb'_eq_self, beq_self_eq_true, if_true, Bool.and_self]; try rfl)
  · rw [encode_stSp]; simp (disch := decide) only [BitVec.extractLsb'_append_eq_of_le, BitVec.extractLsb'_append_eq_of_add_le, Nat.reduceSub, BitVec.extractLsb'_eq_self]

theorem encode_stPr f : encode (.stPr f) = 0#2 ++ 11#5 ++ f.w ++ f.g ++ f.b ++ f.d ++ f.r ++ f.o := rfl

theorem stPr f : Statement (.stPr f) := by
  refine ⟨fun _ ok => ⟨?_, ?_⟩, nofun⟩
  · rw [decodeA_0bw, encode_stPr]
    all_goals (simp (disch := decide) only [encode_stPr, BitVec.extractLsb'_append_eq_of_le, BitVec.extractLsb'_append_eq_of_add_le, Nat.reduceSub, BitVec.extractLsb'_eq_self, beq_self_eq_true, if_true, Bool.and_self]; try rfl)
  · rw [encode_stPr]; simp (disch := decide) only [BitVec.extractLsb'_append_eq_of_le, BitVec.extractLsb'_append_eq_of_add_le, Nat.reduceSub, BitVec.extractLsb'_eq_self]

theorem encode_stQl f : encode (.stQl f) = 0#2 ++ 12#5 ++ f.w ++ f.g ++ f.b ++ f.d ++ f.r ++ f.o := rfl

theorem stQl f : Statement (.stQl f) := by
  refine ⟨fun _ ok => ⟨?_, ?_⟩, nofun⟩
  · rw [decodeA_0cw, encode_stQl]
    all_goals (simp (disch := decide) only [encode_stQl, BitVec.extractLsb'_append_eq_of_le, BitVec.extractLsb'_append_eq_of_add_le, Nat.reduceSub, BitVec.extractLsb'_eq_self, beq_self_eq_true, if_true, Bool.and_self]; try rfl)
  · rw [encode_stQl]; simp (disch := decide) only [BitVec.extractLsb'_append_eq_of_le, BitVec.extractLsb'_append_eq_of_add_le, Nat.reduceSub, BitVec.extractLsb'_eq_self]

theorem encode_stGl f : encode (.stGl f) = 0#2 ++ 13#5 ++ f.w ++ f.g ++ f.b ++ f.d ++ f.r ++ f.o := rfl

theorem stGl f : Statement (.stGl f) := by
  refine ⟨fun _ ok => ⟨?_, ?_⟩, nofun⟩
  · rw [decodeA_0dw, encode_stGl]
    all_goals (simp (disch := decide) only [encode_stGl, BitVec.extractLsb'_append_eq_of_le, BitVec.extractLsb'_append_eq_of_add_le, Nat.reduceSub, BitVec.extractLsb'_eq_self, beq_self_eq_true, if_true, Bool.and_self]; try rfl)
  · rw [encode_stGl]; simp (disch := decide) only [BitVec.extractLsb'_append_eq_of_le, BitVec.extractLsb'_append_eq_of_add_le, Nat.reduceSub, BitVec.extractLsb'_eq_self]

theorem encode_atomSp f : encode (.atomSp f) = 0#2 ++ 0x70#8 ++ f.g ++ f.b ++ f.s ++ f.p ++ f.r ++ f.w ++ f.e ++ 0#1 := rfl

theorem atomSp f : Statement (.atomSp f) := by
  refine ⟨fun _ ok => ⟨?_, ?_⟩, nofun⟩
  · rw [decodeA_70, encode_atomSp]
    all_goals (simp (disch := decide) only [encode_atomSp, BitVec.extractLsb'_append_eq_of_le, BitVec.extractLsb'_append_eq_of_add_le, Nat.reduceSub, BitVec.extractLsb'_eq_self, beq_self_eq_true, if_true, Bool.and_self]; try rfl)
  · rw [encode_atomSp]; simp (disch := decide) only [BitVec.extractLsb'_append_eq_of_le, BitVec.extractLsb'_append_eq_of_add_le, Nat.reduceSub, BitVec.extractLsb'_eq_self]

theorem encode_atomPr f : encode (.atomPr f) = 0#2 ++ 0x71#8 ++ f.g ++ f.b ++ f.s ++ f.p ++ f.r ++ f.w ++ f.e ++ 0#1 := rfl

theorem atomPr f : Statement (.atomPr f) := by
  refine ⟨fun _ ok => ⟨?_, ?_⟩, nofun⟩
  · rw [decodeA_71, encode_atomPr]
    all_goals (simp (disch := decide) only [encode_atomPr, BitVec.extractLsb'_append_eq_of_le, BitVec.extractLsb'_append_eq_of_add_le, Nat.reduceSub, BitVec.extractLsb'_eq_self, beq_self_eq_true, if_true, Bool.and_self]; try rfl)
  · rw [encode_atomPr]; simp (disch := decide) only [BitVec.extractLsb'_append_eq_of_le, BitVec.extractLsb'_append_eq_of_add_le, Nat.reduceSub, BitVec.extractLsb'_eq_self]

theorem encode_atomGl f : encode (.atomGl f) = 0#2 ++ 0x72#8 ++ f.g ++ f.b ++ f.s ++ f.p ++ f.r ++ f.w ++ f.e ++ 0#1 := rfl

theorem atomGl f : Statement (.atomGl f) := by
  refine ⟨fun _ ok => ⟨?_, ?_⟩, nofun⟩
  · rw [decodeA_72, encode_atomGl]
    all_goals (simp (disch := decide) only [encode_atomGl, BitVec.extractLsb'_append_eq_of_le, BitVec.extractLsb'_append_eq_of_add_le, Nat.reduceSub, BitVec.extractLsb'_eq_self, beq_self_eq_true, if_true, Bool.and_self]; try rfl)
  · rw [encode_atomGl]; simp (disch := decide) only [BitVec.extractLsb'_append_eq_of_le, BitVec.extractLsb'_append_eq_of_add_le, Nat.reduceSub, BitVec.extractLsb'_eq_self]

theorem encode_casSp f : encode (.casSp f) = 0#2 ++ 0x74#8 ++ f.g ++ f.b ++ f.s ++ f.c ++ f.r ++ f.w ++ f.e ++ 0#1 := rfl

theorem casSp f : Statement (.casSp f) := by
  refine ⟨fun _ ok => ⟨?_, ?_⟩, nofun⟩
  · rw [decodeA_74, encode_casSp]
    all_goals (simp (disch := decide) only [encode_casSp, BitVec.extractLsb'_append_eq_of_le, BitVec.extractLsb'_append_eq_of_add_le, Nat.reduceSub, BitVec.extractLsb'_eq_self, beq_self_eq_true, if_true, Bool.and_self]; try rfl)
  · rw [encode_casSp]; simp (disch := decide) only [BitVec.extractLsb'_append_eq_of_le, BitVec.extractLsb'_append_eq_of_add_le, Nat.reduceSub, BitVec.extractLsb'_eq_self]

theorem encode_casPr f : encode (.casPr f) = 0#2 ++ 0x75#8 ++ f.g ++ f.b ++ f.s ++ f.c ++ f.r ++ f.w ++ f.e ++ 0#1 := rfl

theorem casPr f : Statement (.casPr f) := by
  refine ⟨fun _ ok => ⟨?_, ?_⟩, nofun⟩
  · rw [decodeA_75, encode_casPr]
    all_goals (simp (disch := decide) only [encode_casPr, BitVec.extractLsb'_append_eq_of_le, BitVec.extractLsb'_append_eq_of_add_le, Nat.reduceSub, BitVec.extractLsb'_eq_self, beq_self_eq_true, if_true, Bool.and_self]; try rfl)
  · rw [encode_casPr]; simp (disch := decide) only [BitVec.extractLsb'_append_eq_of_le, BitVec.extractLsb'_append_eq_of_add_le, Nat.reduceSub, BitVec.extractLsb'_eq_self]

theorem encode_casGl f : encode (.casGl f) = 0#2 ++ 0x76#8 ++ f.g ++ f.b ++ f.s ++ f.c ++ f.r ++ f.w ++ f.e ++ 0#1 := rfl

theorem casGl f : Statement (.casGl f) := by
  refine ⟨fun _ ok => ⟨?_, ?_⟩, nofun⟩
  · rw [decodeA_76, encode_casGl]
    all_goals (simp (disch := decide) only [encode_casGl, BitVec.extractLsb'_append_eq_of_le, BitVec.extractLsb'_append_eq_of_add_le, Nat.reduceSub, BitVec.extractLsb'_eq_self, beq_self_eq_true, if_true, Bool.and_self]; try rfl)
  · rw [encode_casGl]; simp (disch := decide) only [BitVec.extractLsb'_append_eq_of_le, BitVec.extractLsb'_append_eq_of_add_le, Nat.reduceSub, BitVec.extractLsb'_eq_self]

theorem encode_prefGl f : encode (.prefGl f) = 0#2 ++ 0xf0#8 ++ 0#3 ++ f.b ++ 0x20#8 ++ f.o := rfl

theorem prefGl f : Statement (.prefGl f) := by
  refine ⟨fun _ ok => ⟨?_, ?_⟩, nofun⟩
  · rw [decodeA_f0, encode_prefGl]
    all_goals (simp (disch := decide) only [encode_prefGl, BitVec.extractLsb'_append_eq_of_le, BitVec.extractLsb'_append_eq_of_add_le, Nat.reduceSub, BitVec.extractLsb'_eq_self, beq_self_eq_true, if_true, Bool.and_self]; try rfl)
  · rw [encode_prefGl]; simp (disch := decide) only [BitVec.extractLsb'_append_eq_of_le, BitVec.extractLsb'_append_eq_of_add_le, Nat.reduceSub, BitVec.extractLsb'_eq_self]

theorem encode_prefQl f : encode (.prefQl f) = 0#2 ++ 0xf1#8 ++ 0#3 ++ f.b ++ 0x20#8 ++ f.o := rfl

theorem prefQl f : Statement (.prefQl f) := by
  refine ⟨fun _ ok => ⟨?_, ?_⟩, nofun⟩
  · rw [decodeA_f1, encode_prefQl]
    all_goals (simp (disch := decide) only [encode_prefQl, BitVec.extractLsb'_append_eq_of_le, BitVec.extractLsb'_append_eq_of_add_le, Nat.reduceSub, BitVec.extractLsb'_eq_self, beq_self_eq_true, if_true, Bool.and_self]; try rfl)
  · rw [encode_prefQl]; simp (disch := decide) only [BitVec.extractLsb'_append_eq_of_le, BitVec.extractLsb'_append_eq_of_add_le, Nat.reduceSub, BitVec.extractLsb'_eq_self]

theorem encode_tdef f : encode (.tdef f) = 0#2 ++ 0x80#8 ++ 0#3 ++ f.n ++ f.b ++ f.s ++ 0#1 := rfl

theorem tdef f : Statement (.tdef f) := by
  refine ⟨fun _ ok => ⟨?_, ?_⟩, nofun⟩
  · rw [decodeA_80, encode_tdef]
    all_goals (simp (disch := decide) only [encode_tdef, BitVec.extractLsb'_append_eq_of_le, BitVec.extractLsb'_append_eq_of_add_le, Nat.reduceSub, BitVec.extractLsb'_eq_self, beq_self_eq_true, if_true, Bool.and_self]; try rfl)
  · rw [encode_tdef]; simp (disch := decide) only [BitVec.extractLsb'_append_eq_of_le, BitVec.extractLsb'_append_eq_of_add_le, Nat.reduceSub, BitVec.extractLsb'_eq_self]

theorem encode_tinv f : encode (.tinv f) = 0#2 ++ 0x81#8 ++ 0#3 ++ f.n ++ 0#13 := rfl

theorem tinv f : Statement (.tinv f) := by
  refine ⟨fun _ ok => ⟨?_, ?_⟩, nofun⟩
  · rw [decodeA_81, encode_tinv]
    all_goals (simp (disch := decide) only [encode_tinv, BitVec.extractLsb'_append_eq_of_le, BitVec.extractLsb'_append_eq_of_add_le, Nat.reduceSub, BitVec.extractLsb'_eq_self, beq_self_eq_true, if_true, Bool.and_self]; try rfl)
  · rw [encode_tinv]; simp (disch := decide) only [BitVec.extractLsb'_append_eq_of_le, BitVec.extractLsb'_append_eq_of_add_le, Nat.reduceSub, BitVec.extractLsb'_eq_self]

theorem encode_tinvAll : encode .tinvAll = 0#2 ++ 0x81#8 ++ 1#22 := rfl

theorem tinvAll : Statement .tinvAll := by
  refine ⟨fun _ ok => ⟨?_, ?_⟩, nofun⟩
  · rw [decodeA_81, encode_tinvAll]
    all_goals (simp (disch := decide) only [encode_tinvAll, BitVec.extractLsb'_append_eq_of_le, BitVec.extractLsb'_append_eq_of_add_le, Nat.reduceSub, BitVec.extractLsb'_eq_self, beq_self_eq_true, if_true, Bool.and_self]; try rfl)
  · rw [encode_tinvAll]; simp (disch := decide) only [BitVec.extractLsb'_append_eq_of_le, BitVec.extractLsb'_append_eq_of_add_le, Nat.reduceSub, BitVec.extractLsb'_eq_self]

theorem encode_mmz f : encode (.mmz f) = 0#2 ++ 0x82#8 ++ f.g ++ 0#6 ++ f.d ++ 0#7 := rfl

theorem mmz f : Statement (.mmz f) := by
  refine ⟨fun _ ok => ⟨?_, ?_⟩, nofun⟩
  · rw [decodeA_82, encode_mmz]
    all_goals (simp (disch := decide) only [encode_mmz, BitVec.extractLsb'_append_eq_of_le, BitVec.extractLsb'_append_eq_of_add_le, Nat.reduceSub, BitVec.extractLsb'_eq_self, beq_self_eq_true, if_true, Bool.and_self]; try rfl)
  · rw [encode_mmz]; simp (disch := decide) only [BitVec.extractLsb'_append_eq_of_le, BitVec.extractLsb'_append_eq_of_add_le, Nat.reduceSub, BitVec.extractLsb'_eq_self]

theorem encode_mma f : encode (.mma f) = 0#2 ++ 0x83#8 ++ f.g ++ f.a ++ f.b ++ f.d ++ f.k ++ 0#1 := rfl

theorem mma f : Statement (.mma f) := by
  refine ⟨fun _ ok => ⟨?_, ?_⟩, nofun⟩
  · rw [decodeA_83, encode_mma]
    all_goals (simp (disch := decide) only [encode_mma, BitVec.extractLsb'_append_eq_of_le, BitVec.extractLsb'_append_eq_of_add_le, Nat.reduceSub, BitVec.extractLsb'_eq_self, beq_self_eq_true, if_true, Bool.and_self]; try rfl)
  · rw [encode_mma]; simp (disch := decide) only [BitVec.extractLsb'_append_eq_of_le, BitVec.extractLsb'_append_eq_of_add_le, Nat.reduceSub, BitVec.extractLsb'_eq_self]

theorem encode_mmaBl f : encode (.mmaBl f) = 0#2 ++ 0x83#8 ++ f.g ++ f.a ++ 0#6 ++ f.d ++ 1#5 := rfl

theorem mmaBl f : Statement (.mmaBl f) := by
  refine ⟨fun _ ok => ⟨?_, ?_⟩, nofun⟩
  · rw [decodeA_83, encode_mmaBl]
    all_goals (simp (disch := decide) only [encode_mmaBl, BitVec.extractLsb'_append_eq_of_le, BitVec.extractLsb'_append_eq_of_add_le, Nat.reduceSub, BitVec.extractLsb'_eq_self, beq_self_eq_true, if_true, Bool.and_self]; try rfl)
  · rw [encode_mmaBl]; simp (disch := decide) only [BitVec.extractLsb'_append_eq_of_le, BitVec.extractLsb'_append_eq_of_add_le, Nat.reduceSub, BitVec.extractLsb'_eq_self]

theorem encode_mmaR f : encode (.mmaR f) = 0#2 ++ 0x84#8 ++ f.g ++ f.a ++ f.l ++ f.d ++ 1#5 := rfl

theorem mmaR f : Statement (.mmaR f) := by
  refine ⟨fun _ ok => ⟨?_, ?_⟩, nofun⟩
  · rw [decodeA_84, encode_mmaR]
    all_goals (simp (disch := decide) only [encode_mmaR, BitVec.extractLsb'_append_eq_of_le, BitVec.extractLsb'_append_eq_of_add_le, Nat.reduceSub, BitVec.extractLsb'_eq_self, beq_self_eq_true, if_true, Bool.and_self]; try rfl)
  · rw [encode_mmaR]; simp (disch := decide) only [BitVec.extractLsb'_append_eq_of_le, BitVec.extractLsb'_append_eq_of_add_le, Nat.reduceSub, BitVec.extractLsb'_eq_self]

theorem encode_mld f : encode (.mld f) = 0#2 ++ 0x85#8 ++ f.g ++ f.s ++ f.d ++ 0#7 := rfl

theorem mld f : Statement (.mld f) := by
  refine ⟨fun _ ok => ⟨?_, ?_⟩, nofun⟩
  · rw [decodeA_85, encode_mld]
    all_goals (simp (disch := decide) only [encode_mld, BitVec.extractLsb'_append_eq_of_le, BitVec.extractLsb'_append_eq_of_add_le, Nat.reduceSub, BitVec.extractLsb'_eq_self, beq_self_eq_true, if_true, Bool.and_self]; try rfl)
  · rw [encode_mld]; simp (disch := decide) only [BitVec.extractLsb'_append_eq_of_le, BitVec.extractLsb'_append_eq_of_add_le, Nat.reduceSub, BitVec.extractLsb'_eq_self]

theorem encode_mldBl f : encode (.mldBl f) = 0#2 ++ 0x85#8 ++ f.g ++ f.b ++ f.p ++ f.k ++ 1#1 := rfl

theorem mldBl f : Statement (.mldBl f) := by
  refine ⟨fun _ ok => ⟨?_, ?_⟩, nofun⟩
  · rw [decodeA_85, encode_mldBl]
    rw [field_ne_zero _ 0 7 0 (by decide) (by simp only [BitVec.getLsbD_append]; rfl)]
    all_goals (simp (disch := decide) only [encode_mldBl, BitVec.extractLsb'_append_eq_of_le, BitVec.extractLsb'_append_eq_of_add_le, Nat.reduceSub, BitVec.extractLsb'_eq_self, beq_self_eq_true, if_true, Bool.and_self]; try rfl)
  · rw [encode_mldBl]; simp (disch := decide) only [BitVec.extractLsb'_append_eq_of_le, BitVec.extractLsb'_append_eq_of_add_le, Nat.reduceSub, BitVec.extractLsb'_eq_self]

theorem encode_mst f : encode (.mst f) = 0#2 ++ 0x86#8 ++ f.g ++ f.d ++ f.s ++ f.c ++ f.t ++ f.r ++ 0#1 := rfl

theorem mst f : Statement (.mst f) := by
  refine ⟨fun _ ok => ⟨?_, ?_⟩, nofun⟩
  · rw [decodeA_86, encode_mst]
    all_goals (simp (disch := decide) only [encode_mst, BitVec.extractLsb'_append_eq_of_le, BitVec.extractLsb'_append_eq_of_add_le, Nat.reduceSub, BitVec.extractLsb'_eq_self, beq_self_eq_true, if_true, Bool.and_self]; try rfl)
  · rw [encode_mst]; simp (disch := decide) only [BitVec.extractLsb'_append_eq_of_le, BitVec.extractLsb'_append_eq_of_add_le, Nat.reduceSub, BitVec.extractLsb'_eq_self]

theorem encode_cpy f : encode (.cpy f) = 0#2 ++ 0x88#8 ++ f.g ++ f.d ++ f.s ++ 0#6 ++ f.c := rfl

theorem cpy f : Statement (.cpy f) := by
  refine ⟨fun _ ok => ⟨?_, ?_⟩, nofun⟩
  · rw [decodeA_88, encode_cpy]
    all_goals (simp (disch := decide) only [encode_cpy, BitVec.extractLsb'_append_eq_of_le, BitVec.extractLsb'_append_eq_of_add_le, Nat.reduceSub, BitVec.extractLsb'_eq_self, beq_self_eq_true, if_true, Bool.and_self]; try rfl)
  · rw [encode_cpy]; simp (disch := decide) only [BitVec.extractLsb'_append_eq_of_le, BitVec.extractLsb'_append_eq_of_add_le, Nat.reduceSub, BitVec.extractLsb'_eq_self]

theorem encode_cpyG f : encode (.cpyG f) = 0#2 ++ 0x89#8 ++ f.g ++ f.d ++ f.s ++ f.i ++ f.c := rfl

theorem cpyG f : Statement (.cpyG f) := by
  refine ⟨fun _ ok => ⟨?_, ?_⟩, nofun⟩
  · rw [decodeA_89, encode_cpyG]
    all_goals (simp (disch := decide) only [encode_cpyG, BitVec.extractLsb'_append_eq_of_le, BitVec.extractLsb'_append_eq_of_add_le, Nat.reduceSub, BitVec.extractLsb'_eq_self, beq_self_eq_true, if_true, Bool.and_self]; try rfl)
  · rw [encode_cpyG]; simp (disch := decide) only [BitVec.extractLsb'_append_eq_of_le, BitVec.extractLsb'_append_eq_of_add_le, Nat.reduceSub, BitVec.extractLsb'_eq_self]

theorem encode_cpyS f : encode (.cpyS f) = 0#2 ++ 0x8a#8 ++ f.g ++ f.d ++ f.s ++ f.i ++ f.c := rfl

theorem cpyS f : Statement (.cpyS f) := by
  refine ⟨fun _ ok => ⟨?_, ?_⟩, nofun⟩
  · rw [decodeA_8a, encode_cpyS]
    all_goals (simp (disch := decide) only [encode_cpyS, BitVec.extractLsb'_append_eq_of_le, BitVec.extractLsb'_append_eq_of_add_le, Nat.reduceSub, BitVec.extractLsb'_eq_self, beq_self_eq_true, if_true, Bool.and_self]; try rfl)
  · rw [encode_cpyS]; simp (disch := decide) only [BitVec.extractLsb'_append_eq_of_le, BitVec.extractLsb'_append_eq_of_add_le, Nat.reduceSub, BitVec.extractLsb'_eq_self]

theorem encode_cpyT f : encode (.cpyT f) = 0#2 ++ 0x8b#8 ++ f.g ++ f.d ++ f.s ++ 0#6 ++ f.c := rfl

theorem cpyT f : Statement (.cpyT f) := by
  refine ⟨fun _ ok => ⟨?_, ?_⟩, nofun⟩
  · rw [decodeA_8b, encode_cpyT]
    all_goals (simp (disch := decide) only [encode_cpyT, BitVec.extractLsb'_append_eq_of_le, BitVec.extractLsb'_append_eq_of_add_le, Nat.reduceSub, BitVec.extractLsb'_eq_self, beq_self_eq_true, if_true, Bool.and_self]; try rfl)
  · rw [encode_cpyT]; simp (disch := decide) only [BitVec.extractLsb'_append_eq_of_le, BitVec.extractLsb'_append_eq_of_add_le, Nat.reduceSub, BitVec.extractLsb'_eq_self]

theorem encode_cpyM f : encode (.cpyM f) = 0#2 ++ 0x8c#8 ++ f.g ++ f.d ++ f.s ++ f.r ++ f.c := rfl

theorem cpyM f : Statement (.cpyM f) := by
  refine ⟨fun _ ok => ⟨?_, ?_⟩, nofun⟩
  · rw [decodeA_8c, encode_cpyM]
    all_goals (simp (disch := decide) only [encode_cpyM, BitVec.extractLsb'_append_eq_of_le, BitVec.extractLsb'_append_eq_of_add_le, Nat.reduceSub, BitVec.extractLsb'_eq_self, beq_self_eq_true, if_true, Bool.and_self]; try rfl)
  · rw [encode_cpyM]; simp (disch := decide) only [BitVec.extractLsb'_append_eq_of_le, BitVec.extractLsb'_append_eq_of_add_le, Nat.reduceSub, BitVec.extractLsb'_eq_self]

theorem encode_cpyMma f : encode (.cpyMma f) = 0#2 ++ 0x8d#8 ++ f.g ++ f.d ++ f.s ++ f.n ++ f.c := rfl

theorem cpyMma f : Statement (.cpyMma f) := by
  refine ⟨fun _ ok => ⟨?_, ?_⟩, nofun⟩
  · rw [decodeA_8d, encode_cpyMma]
    all_goals (simp (disch := decide) only [encode_cpyMma, BitVec.extractLsb'_append_eq_of_le, BitVec.extractLsb'_append_eq_of_add_le, Nat.reduceSub, BitVec.extractLsb'_eq_self, beq_self_eq_true, if_true, Bool.and_self]; try rfl)
  · rw [encode_cpyMma]; simp (disch := decide) only [BitVec.extractLsb'_append_eq_of_le, BitVec.extractLsb'_append_eq_of_add_le, Nat.reduceSub, BitVec.extractLsb'_eq_self]

theorem encode_strm f : encode (.strm f) = 0#2 ++ 0x8e#8 ++ f.g ++ f.d ++ f.s ++ 0#6 ++ f.c := rfl

theorem strm f : Statement (.strm f) := by
  refine ⟨fun _ ok => ⟨?_, ?_⟩, nofun⟩
  · rw [decodeA_8e, encode_strm]
    all_goals (simp (disch := decide) only [encode_strm, BitVec.extractLsb'_append_eq_of_le, BitVec.extractLsb'_append_eq_of_add_le, Nat.reduceSub, BitVec.extractLsb'_eq_self, beq_self_eq_true, if_true, Bool.and_self]; try rfl)
  · rw [encode_strm]; simp (disch := decide) only [BitVec.extractLsb'_append_eq_of_le, BitVec.extractLsb'_append_eq_of_add_le, Nat.reduceSub, BitVec.extractLsb'_eq_self]

theorem encode_drain f : encode (.drain f) = 0#2 ++ 0x90#8 ++ 0#20 ++ f.p := rfl

theorem drain f : Statement (.drain f) := by
  refine ⟨fun _ ok => ⟨?_, ?_⟩, nofun⟩
  · rw [decodeA_90, encode_drain]
    all_goals (simp (disch := decide) only [encode_drain, BitVec.extractLsb'_append_eq_of_le, BitVec.extractLsb'_append_eq_of_add_le, Nat.reduceSub, BitVec.extractLsb'_eq_self, beq_self_eq_true, if_true, Bool.and_self]; try rfl)
  · rw [encode_drain]; simp (disch := decide) only [BitVec.extractLsb'_append_eq_of_le, BitVec.extractLsb'_append_eq_of_add_le, Nat.reduceSub, BitVec.extractLsb'_eq_self]

theorem encode_chain f : encode (.chain f) = 0#2 ++ 0x91#8 ++ f.g ++ f.d ++ f.s ++ f.t ++ f.f := rfl

theorem chain f : Statement (.chain f) := by
  refine ⟨fun _ ok => ⟨?_, ?_⟩, nofun⟩
  · rw [decodeA_91, encode_chain]
    all_goals (simp (disch := decide) only [encode_chain, BitVec.extractLsb'_append_eq_of_le, BitVec.extractLsb'_append_eq_of_add_le, Nat.reduceSub, BitVec.extractLsb'_eq_self, beq_self_eq_true, if_true, Bool.and_self]; try rfl)
  · rw [encode_chain]; simp (disch := decide) only [BitVec.extractLsb'_append_eq_of_le, BitVec.extractLsb'_append_eq_of_add_le, Nat.reduceSub, BitVec.extractLsb'_eq_self]

theorem encode_ksend f : encode (.ksend f) = 0#2 ++ 0x92#8 ++ f.g ++ f.s ++ f.k ++ f.r ++ f.h := rfl

theorem ksend f : Statement (.ksend f) := by
  refine ⟨fun _ ok => ⟨?_, ?_⟩, nofun⟩
  · rw [decodeA_92, encode_ksend]
    all_goals (simp (disch := decide) only [encode_ksend, BitVec.extractLsb'_append_eq_of_le, BitVec.extractLsb'_append_eq_of_add_le, Nat.reduceSub, BitVec.extractLsb'_eq_self, beq_self_eq_true, if_true, Bool.and_self]; try rfl)
  · rw [encode_ksend]; simp (disch := decide) only [BitVec.extractLsb'_append_eq_of_le, BitVec.extractLsb'_append_eq_of_add_le, Nat.reduceSub, BitVec.extractLsb'_eq_self]

theorem encode_kbinAdd f : encode (.kbinAdd f) = 0#2 ++ 0x93#8 ++ 0#3 ++ f.b ++ 0#13 := rfl

theorem kbinAdd f : Statement (.kbinAdd f) := by
  refine ⟨fun _ ok => ⟨?_, ?_⟩, nofun⟩
  · rw [decodeA_93, encode_kbinAdd]
    all_goals (simp (disch := decide) only [encode_kbinAdd, BitVec.extractLsb'_append_eq_of_le, BitVec.extractLsb'_append_eq_of_add_le, Nat.reduceSub, BitVec.extractLsb'_eq_self, beq_self_eq_true, if_true, Bool.and_self]; try rfl)
  · rw [encode_kbinAdd]; simp (disch := decide) only [BitVec.extractLsb'_append_eq_of_le, BitVec.extractLsb'_append_eq_of_add_le, Nat.reduceSub, BitVec.extractLsb'_eq_self]

theorem encode_kbinApp f : encode (.kbinApp f) = 0#2 ++ 0x93#8 ++ 0#3 ++ f.b ++ 1#6 ++ f.n ++ 0#1 := rfl

theorem kbinApp f : Statement (.kbinApp f) := by
  refine ⟨fun _ ok => ⟨?_, ?_⟩, nofun⟩
  · rw [decodeA_93, encode_kbinApp]
    rw [field_ne_zero _ 0 13 7 (by decide) (by simp only [BitVec.getLsbD_append]; rfl)]
    all_goals (simp (disch := decide) only [encode_kbinApp, BitVec.extractLsb'_append_eq_of_le, BitVec.extractLsb'_append_eq_of_add_le, Nat.reduceSub, BitVec.extractLsb'_eq_self, beq_self_eq_true, if_true, Bool.and_self]; try rfl)
  · rw [encode_kbinApp]; simp (disch := decide) only [BitVec.extractLsb'_append_eq_of_le, BitVec.extractLsb'_append_eq_of_add_le, Nat.reduceSub, BitVec.extractLsb'_eq_self]

theorem encode_kbinOff : encode .kbinOff = 0#2 ++ 0x93#8 ++ 256#22 := rfl

theorem kbinOff : Statement .kbinOff := by
  refine ⟨fun _ ok => ⟨?_, ?_⟩, nofun⟩
  · rw [decodeA_93, encode_kbinOff]
    all_goals (simp (disch := decide) only [encode_kbinOff, BitVec.extractLsb'_append_eq_of_le, BitVec.extractLsb'_append_eq_of_add_le, Nat.reduceSub, BitVec.extractLsb'_eq_self, beq_self_eq_true, if_true, Bool.and_self]; try rfl)
  · rw [encode_kbinOff]; simp (disch := decide) only [BitVec.extractLsb'_append_eq_of_le, BitVec.extractLsb'_append_eq_of_add_le, Nat.reduceSub, BitVec.extractLsb'_eq_self]

theorem encode_coll f : encode (.coll f) = 0#2 ++ 0x94#8 ++ f.g ++ f.d ++ f.s ++ f.r ++ 0#1 := rfl

theorem coll f : Statement (.coll f) := by
  refine ⟨fun _ ok => ⟨?_, ?_⟩, nofun⟩
  · rw [decodeA_94, encode_coll]
    all_goals (simp (disch := decide) only [encode_coll, BitVec.extractLsb'_append_eq_of_le, BitVec.extractLsb'_append_eq_of_add_le, Nat.reduceSub, BitVec.extractLsb'_eq_self, beq_self_eq_true, if_true, Bool.and_self]; try rfl)
  · rw [encode_coll]; simp (disch := decide) only [BitVec.extractLsb'_append_eq_of_le, BitVec.extractLsb'_append_eq_of_add_le, Nat.reduceSub, BitVec.extractLsb'_eq_self]

theorem encode_collRed f : encode (.collRed f) = 0#2 ++ 0x94#8 ++ f.g ++ f.d ++ f.s ++ f.r ++ 1#1 := rfl

theorem collRed f : Statement (.collRed f) := by
  refine ⟨fun _ ok => ⟨?_, ?_⟩, nofun⟩
  · rw [decodeA_94, encode_collRed]
    all_goals (simp (disch := decide) only [encode_collRed, BitVec.extractLsb'_append_eq_of_le, BitVec.extractLsb'_append_eq_of_add_le, Nat.reduceSub, BitVec.extractLsb'_eq_self, beq_self_eq_true, if_true, Bool.and_self]; try rfl)
  · rw [encode_collRed]; simp (disch := decide) only [BitVec.extractLsb'_append_eq_of_le, BitVec.extractLsb'_append_eq_of_add_le, Nat.reduceSub, BitVec.extractLsb'_eq_self]

theorem encode_engK f : encode (.engK f) = 0#2 ++ 0x95#8 ++ 0#3 ++ f.n ++ f.s ++ 0#6 ++ f.h := rfl

theorem engK f : Statement (.engK f) := by
  refine ⟨fun _ ok => ⟨?_, ?_⟩, nofun⟩
  · rw [decodeA_95, encode_engK]
    all_goals (simp (disch := decide) only [encode_engK, BitVec.extractLsb'_append_eq_of_le, BitVec.extractLsb'_append_eq_of_add_le, Nat.reduceSub, BitVec.extractLsb'_eq_self, beq_self_eq_true, if_true, Bool.and_self]; try rfl)
  · rw [encode_engK]; simp (disch := decide) only [BitVec.extractLsb'_append_eq_of_le, BitVec.extractLsb'_append_eq_of_add_le, Nat.reduceSub, BitVec.extractLsb'_eq_self]

theorem encode_engGo f : encode (.engGo f) = 0#2 ++ 0x96#8 ++ f.g ++ f.d ++ 0#12 ++ f.r := rfl

theorem engGo f : Statement (.engGo f) := by
  refine ⟨fun _ ok => ⟨?_, ?_⟩, nofun⟩
  · rw [decodeA_96, encode_engGo]
    all_goals (simp (disch := decide) only [encode_engGo, BitVec.extractLsb'_append_eq_of_le, BitVec.extractLsb'_append_eq_of_add_le, Nat.reduceSub, BitVec.extractLsb'_eq_self, beq_self_eq_true, if_true, Bool.and_self]; try rfl)
  · rw [encode_engGo]; simp (disch := decide) only [BitVec.extractLsb'_append_eq_of_le, BitVec.extractLsb'_append_eq_of_add_le, Nat.reduceSub, BitVec.extractLsb'_eq_self]

theorem encode_spawn f : encode (.spawn f) = 0#2 ++ 0xa0#8 ++ f.g ++ f.f ++ f.j ++ f.o := rfl

theorem spawn f : Statement (.spawn f) := by
  refine ⟨fun _ ok => ⟨?_, ?_⟩, nofun⟩
  · rw [decodeA_a0, encode_spawn]
    all_goals (simp (disch := decide) only [encode_spawn, BitVec.extractLsb'_append_eq_of_le, BitVec.extractLsb'_append_eq_of_add_le, Nat.reduceSub, BitVec.extractLsb'_eq_self, beq_self_eq_true, if_true, Bool.and_self]; try rfl)
  · rw [encode_spawn]; simp (disch := decide) only [BitVec.extractLsb'_append_eq_of_le, BitVec.extractLsb'_append_eq_of_add_le, Nat.reduceSub, BitVec.extractLsb'_eq_self]

theorem encode_forkBr f : encode (.forkBr f) = 0#2 ++ 0xa1#8 ++ 0#3 ++ f.f ++ f.j ++ f.o := rfl

theorem forkBr f : Statement (.forkBr f) := by
  refine ⟨fun _ ok => ⟨?_, ?_⟩, nofun⟩
  · rw [decodeA_a1, encode_forkBr]
    all_goals (simp (disch := decide) only [encode_forkBr, BitVec.extractLsb'_append_eq_of_le, BitVec.extractLsb'_append_eq_of_add_le, Nat.reduceSub, BitVec.extractLsb'_eq_self, beq_self_eq_true, if_true, Bool.and_self]; try rfl)
  · rw [encode_forkBr]; simp (disch := decide) only [BitVec.extractLsb'_append_eq_of_le, BitVec.extractLsb'_append_eq_of_add_le, Nat.reduceSub, BitVec.extractLsb'_eq_self]

theorem encode_join f : encode (.join f) = 0#2 ++ 0xa2#8 ++ 0#3 ++ f.c ++ 0#13 ++ f.s := rfl

theorem join f : Statement (.join f) := by
  refine ⟨fun _ ok => ⟨?_, ?_⟩, nofun⟩
  · rw [decodeA_a2, encode_join]
    all_goals (simp (disch := decide) only [encode_join, BitVec.extractLsb'_append_eq_of_le, BitVec.extractLsb'_append_eq_of_add_le, Nat.reduceSub, BitVec.extractLsb'_eq_self, beq_self_eq_true, if_true, Bool.and_self]; try rfl)
  · rw [encode_join]; simp (disch := decide) only [BitVec.extractLsb'_append_eq_of_le, BitVec.extractLsb'_append_eq_of_add_le, Nat.reduceSub, BitVec.extractLsb'_eq_self]

theorem encode_jdec f : encode (.jdec f) = 0#2 ++ 0xa3#8 ++ f.g ++ f.c ++ 0#13 ++ f.s := rfl

theorem jdec f : Statement (.jdec f) := by
  refine ⟨fun _ ok => ⟨?_, ?_⟩, nofun⟩
  · rw [decodeA_a3, encode_jdec]
    all_goals (simp (disch := decide) only [encode_jdec, BitVec.extractLsb'_append_eq_of_le, BitVec.extractLsb'_append_eq_of_add_le, Nat.reduceSub, BitVec.extractLsb'_eq_self, beq_self_eq_true, if_true, Bool.and_self]; try rfl)
  · rw [encode_jdec]; simp (disch := decide) only [BitVec.extractLsb'_append_eq_of_le, BitVec.extractLsb'_append_eq_of_add_le, Nat.reduceSub, BitVec.extractLsb'_eq_self]

theorem encode_suspend : encode .suspend = 0#2 ++ 0xa4#8 ++ 0#22 := rfl

theorem suspend : Statement .suspend := by
  refine ⟨fun _ ok => ⟨?_, ?_⟩, nofun⟩
  · rw [decodeA_a4, encode_suspend]
    all_goals (simp (disch := decide) only [encode_suspend, BitVec.extractLsb'_append_eq_of_le, BitVec.extractLsb'_append_eq_of_add_le, Nat.reduceSub, BitVec.extractLsb'_eq_self, beq_self_eq_true, if_true, Bool.and_self]; try rfl)
  · rw [encode_suspend]; simp (disch := decide) only [BitVec.extractLsb'_append_eq_of_le, BitVec.extractLsb'_append_eq_of_add_le, Nat.reduceSub, BitVec.extractLsb'_eq_self]

theorem encode_yield : encode .yield = 0#2 ++ 0xa5#8 ++ 0#22 := rfl

theorem yield : Statement .yield := by
  refine ⟨fun _ ok => ⟨?_, ?_⟩, nofun⟩
  · rw [decodeA_a5, encode_yield]
    all_goals (simp (disch := decide) only [encode_yield, BitVec.extractLsb'_append_eq_of_le, BitVec.extractLsb'_append_eq_of_add_le, Nat.reduceSub, BitVec.extractLsb'_eq_self, beq_self_eq_true, if_true, Bool.and_self]; try rfl)
  · rw [encode_yield]; simp (disch := decide) only [BitVec.extractLsb'_append_eq_of_le, BitVec.extractLsb'_append_eq_of_add_le, Nat.reduceSub, BitVec.extractLsb'_eq_self]

theorem encode_exit : encode .exit = 0#2 ++ 0xa6#8 ++ 0#22 := rfl

theorem exit : Statement .exit := by
  refine ⟨fun _ ok => ⟨?_, ?_⟩, nofun⟩
  · rw [decodeA_a6, encode_exit]
    all_goals (simp (disch := decide) only [encode_exit, BitVec.extractLsb'_append_eq_of_le, BitVec.extractLsb'_append_eq_of_add_le, Nat.reduceSub, BitVec.extractLsb'_eq_self, beq_self_eq_true, if_true, Bool.and_self]; try rfl)
  · rw [encode_exit]; simp (disch := decide) only [BitVec.extractLsb'_append_eq_of_le, BitVec.extractLsb'_append_eq_of_add_le, Nat.reduceSub, BitVec.extractLsb'_eq_self]

theorem encode_send f : encode (.send f) = 0#2 ++ 0xa8#8 ++ f.g ++ f.d ++ f.p ++ 0#2 ++ f.n := rfl

theorem send f : Statement (.send f) := by
  refine ⟨fun _ ok => ⟨?_, ?_⟩, nofun⟩
  · rw [decodeA_a8, encode_send]
    all_goals (simp (disch := decide) only [encode_send, BitVec.extractLsb'_append_eq_of_le, BitVec.extractLsb'_append_eq_of_add_le, Nat.reduceSub, BitVec.extractLsb'_eq_self, beq_self_eq_true, if_true, Bool.and_self]; try rfl)
  · rw [encode_send]; simp (disch := decide) only [BitVec.extractLsb'_append_eq_of_le, BitVec.extractLsb'_append_eq_of_add_le, Nat.reduceSub, BitVec.extractLsb'_eq_self]

theorem encode_sendEos f : encode (.sendEos f) = 0#2 ++ 0xa8#8 ++ f.g ++ f.d ++ f.s ++ 512#11 := rfl

theorem sendEos f : Statement (.sendEos f) := by
  refine ⟨fun _ ok => ⟨?_, ?_⟩, nofun⟩
  · rw [decodeA_a8, encode_sendEos]
    all_goals (simp (disch := decide) only [encode_sendEos, BitVec.extractLsb'_append_eq_of_le, BitVec.extractLsb'_append_eq_of_add_le, Nat.reduceSub, BitVec.extractLsb'_eq_self, beq_self_eq_true, if_true, Bool.and_self]; try rfl)
  · rw [encode_sendEos]; simp (disch := decide) only [BitVec.extractLsb'_append_eq_of_le, BitVec.extractLsb'_append_eq_of_add_le, Nat.reduceSub, BitVec.extractLsb'_eq_self]

theorem encode_put f : encode (.put f) = 0#2 ++ 0xa9#8 ++ f.g ++ f.t ++ f.s ++ 0x00#8 ++ f.n := rfl

theorem put f : Statement (.put f) := by
  refine ⟨fun _ ok => ⟨?_, ?_⟩, nofun⟩
  · rw [decodeA_a9, encode_put]
    all_goals (simp (disch := decide) only [encode_put, BitVec.extractLsb'_append_eq_of_le, BitVec.extractLsb'_append_eq_of_add_le, Nat.reduceSub, BitVec.extractLsb'_eq_self, beq_self_eq_true, if_true, Bool.and_self]; try rfl)
  · rw [encode_put]; simp (disch := decide) only [BitVec.extractLsb'_append_eq_of_le, BitVec.extractLsb'_append_eq_of_add_le, Nat.reduceSub, BitVec.extractLsb'_eq_self]

theorem encode_putX f : encode (.putX f) = 0#2 ++ 0xa9#8 ++ f.g ++ f.t ++ 1#12 ++ f.n := rfl

theorem putX f : Statement (.putX f) := by
  refine ⟨fun _ ok => ⟨?_, ?_⟩, nofun⟩
  · rw [decodeA_a9, encode_putX]
    all_goals (simp (disch := decide) only [encode_putX, BitVec.extractLsb'_append_eq_of_le, BitVec.extractLsb'_append_eq_of_add_le, Nat.reduceSub, BitVec.extractLsb'_eq_self, beq_self_eq_true, if_true, Bool.and_self]; try rfl)
  · rw [encode_putX]; simp (disch := decide) only [BitVec.extractLsb'_append_eq_of_le, BitVec.extractLsb'_append_eq_of_add_le, Nat.reduceSub, BitVec.extractLsb'_eq_self]

theorem encode_wfm : encode .wfm = 0#2 ++ 0xaa#8 ++ 0#22 := rfl

theorem wfm : Statement .wfm := by
  refine ⟨fun _ ok => ⟨?_, ?_⟩, nofun⟩
  · rw [decodeA_aa, encode_wfm]
    all_goals (simp (disch := decide) only [encode_wfm, BitVec.extractLsb'_append_eq_of_le, BitVec.extractLsb'_append_eq_of_add_le, Nat.reduceSub, BitVec.extractLsb'_eq_self, beq_self_eq_true, if_true, Bool.and_self]; try rfl)
  · rw [encode_wfm]; simp (disch := decide) only [BitVec.extractLsb'_append_eq_of_le, BitVec.extractLsb'_append_eq_of_add_le, Nat.reduceSub, BitVec.extractLsb'_eq_self]

theorem encode_nbarInit f : encode (.nbarInit f) = 0#2 ++ 0xac#8 ++ 0#3 ++ f.n ++ 0#10 ++ f.b := rfl

theorem nbarInit f : Statement (.nbarInit f) := by
  refine ⟨fun _ ok => ⟨?_, ?_⟩, nofun⟩
  · rw [decodeA_ac, encode_nbarInit]
    all_goals (simp (disch := decide) only [encode_nbarInit, BitVec.extractLsb'_append_eq_of_le, BitVec.extractLsb'_append_eq_of_add_le, Nat.reduceSub, BitVec.extractLsb'_eq_self, beq_self_eq_true, if_true, Bool.and_self]; try rfl)
  · rw [encode_nbarInit]; simp (disch := decide) only [BitVec.extractLsb'_append_eq_of_le, BitVec.extractLsb'_append_eq_of_add_le, Nat.reduceSub, BitVec.extractLsb'_eq_self]

theorem encode_nbarArr f : encode (.nbarArr f) = 0#2 ++ 0xad#8 ++ f.g ++ f.t ++ f.p ++ 0#6 ++ f.b := rfl

theorem nbarArr f : Statement (.nbarArr f) := by
  refine ⟨fun _ ok => ⟨?_, ?_⟩, nofun⟩
  · rw [decodeA_ad, encode_nbarArr]
    all_goals (simp (disch := decide) only [encode_nbarArr, BitVec.extractLsb'_append_eq_of_le, BitVec.extractLsb'_append_eq_of_add_le, Nat.reduceSub, BitVec.extractLsb'_eq_self, beq_self_eq_true, if_true, Bool.and_self]; try rfl)
  · rw [encode_nbarArr]; simp (disch := decide) only [BitVec.extractLsb'_append_eq_of_le, BitVec.extractLsb'_append_eq_of_add_le, Nat.reduceSub, BitVec.extractLsb'_eq_self]

theorem encode_nbarWt f : encode (.nbarWt f) = 0#2 ++ 0xae#8 ++ 0#3 ++ f.t ++ f.p ++ 0#6 ++ f.b := rfl

theorem nbarWt f : Statement (.nbarWt f) := by
  refine ⟨fun _ ok => ⟨?_, ?_⟩, nofun⟩
  · rw [decodeA_ae, encode_nbarWt]
    all_goals (simp (disch := decide) only [encode_nbarWt, BitVec.extractLsb'_append_eq_of_le, BitVec.extractLsb'_append_eq_of_add_le, Nat.reduceSub, BitVec.extractLsb'_eq_self, beq_self_eq_true, if_true, Bool.and_self]; try rfl)
  · rw [encode_nbarWt]; simp (disch := decide) only [BitVec.extractLsb'_append_eq_of_le, BitVec.extractLsb'_append_eq_of_add_le, Nat.reduceSub, BitVec.extractLsb'_eq_self]

theorem encode_nbarTx f : encode (.nbarTx f) = 0#2 ++ 0xaf#8 ++ f.g ++ f.t ++ f.n ++ 0#6 ++ f.b := rfl

theorem nbarTx f : Statement (.nbarTx f) := by
  refine ⟨fun _ ok => ⟨?_, ?_⟩, nofun⟩
  · rw [decodeA_af, encode_nbarTx]
    all_goals (simp (disch := decide) only [encode_nbarTx, BitVec.extractLsb'_append_eq_of_le, BitVec.extractLsb'_append_eq_of_add_le, Nat.reduceSub, BitVec.extractLsb'_eq_self, beq_self_eq_true, if_true, Bool.and_self]; try rfl)
  · rw [encode_nbarTx]; simp (disch := decide) only [BitVec.extractLsb'_append_eq_of_le, BitVec.extractLsb'_append_eq_of_add_le, Nat.reduceSub, BitVec.extractLsb'_eq_self]

theorem encode_fence f : encode (.fence f) = 0#2 ++ 0xb0#8 ++ 0#19 ++ f.s := rfl

theorem fence f : Statement (.fence f) := by
  refine ⟨fun _ ok => ⟨?_, ?_⟩, nofun⟩
  · rw [decodeA_b0, encode_fence]
    all_goals (simp (disch := decide) only [encode_fence, BitVec.extractLsb'_append_eq_of_le, BitVec.extractLsb'_append_eq_of_add_le, Nat.reduceSub, BitVec.extractLsb'_eq_self, beq_self_eq_true, if_true, Bool.and_self]; try rfl)
  · rw [encode_fence]; simp (disch := decide) only [BitVec.extractLsb'_append_eq_of_le, BitVec.extractLsb'_append_eq_of_add_le, Nat.reduceSub, BitVec.extractLsb'_eq_self]

theorem encode_stv f : encode (.stv f) = 0#2 ++ 0xb1#8 ++ f.g ++ f.b ++ f.s ++ 0#11 := rfl

theorem stv f : Statement (.stv f) := by
  refine ⟨fun _ ok => ⟨?_, ?_⟩, nofun⟩
  · rw [decodeA_b1, encode_stv]
    all_goals (simp (disch := decide) only [encode_stv, BitVec.extractLsb'_append_eq_of_le, BitVec.extractLsb'_append_eq_of_add_le, Nat.reduceSub, BitVec.extractLsb'_eq_self, beq_self_eq_true, if_true, Bool.and_self]; try rfl)
  · rw [encode_stv]; simp (disch := decide) only [BitVec.extractLsb'_append_eq_of_le, BitVec.extractLsb'_append_eq_of_add_le, Nat.reduceSub, BitVec.extractLsb'_eq_self]

theorem encode_ldv f : encode (.ldv f) = 0#2 ++ 0xb2#8 ++ 0#3 ++ f.b ++ f.d ++ 0#11 := rfl

theorem ldv f : Statement (.ldv f) := by
  refine ⟨fun _ ok => ⟨?_, ?_⟩, nofun⟩
  · rw [decodeA_b2, encode_ldv]
    all_goals (simp (disch := decide) only [encode_ldv, BitVec.extractLsb'_append_eq_of_le, BitVec.extractLsb'_append_eq_of_add_le, Nat.reduceSub, BitVec.extractLsb'_eq_self, beq_self_eq_true, if_true, Bool.and_self]; try rfl)
  · rw [encode_ldv]; simp (disch := decide) only [BitVec.extractLsb'_append_eq_of_le, BitVec.extractLsb'_append_eq_of_add_le, Nat.reduceSub, BitVec.extractLsb'_eq_self]

theorem encode_ldvS f : encode (.ldvS f) = 0#2 ++ 0xb2#8 ++ 0#3 ++ f.b ++ f.d ++ 1#11 := rfl

theorem ldvS f : Statement (.ldvS f) := by
  refine ⟨fun _ ok => ⟨?_, ?_⟩, nofun⟩
  · rw [decodeA_b2, encode_ldvS]
    all_goals (simp (disch := decide) only [encode_ldvS, BitVec.extractLsb'_append_eq_of_le, BitVec.extractLsb'_append_eq_of_add_le, Nat.reduceSub, BitVec.extractLsb'_eq_self, beq_self_eq_true, if_true, Bool.and_self]; try rfl)
  · rw [encode_ldvS]; simp (disch := decide) only [BitVec.extractLsb'_append_eq_of_le, BitVec.extractLsb'_append_eq_of_add_le, Nat.reduceSub, BitVec.extractLsb'_eq_self]

theorem encode_vrcl f : encode (.vrcl f) = 0#2 ++ 0xb3#8 ++ f.g ++ f.b ++ 0#15 := rfl

theorem vrcl f : Statement (.vrcl f) := by
  refine ⟨fun _ ok => ⟨?_, ?_⟩, nofun⟩
  · rw [decodeA_b3, encode_vrcl]
    all_goals (simp (disch := decide) only [encode_vrcl, BitVec.extractLsb'_append_eq_of_le, BitVec.extractLsb'_append_eq_of_add_le, Nat.reduceSub, BitVec.extractLsb'_eq_self, beq_self_eq_true, if_true, Bool.and_self]; try rfl)
  · rw [encode_vrcl]; simp (disch := decide) only [BitVec.extractLsb'_append_eq_of_le, BitVec.extractLsb'_append_eq_of_add_le, Nat.reduceSub, BitVec.extractLsb'_eq_self]

theorem encode_sys f : encode (.sys f) = 0#2 ++ 0xb8#8 ++ 0#3 ++ f.a ++ f.b ++ 0#1 ++ f.n := rfl

theorem sys f : Statement (.sys f) := by
  refine ⟨fun _ ok => ⟨?_, ?_⟩, nofun⟩
  · rw [decodeA_b8, encode_sys]
    all_goals (simp (disch := decide) only [encode_sys, BitVec.extractLsb'_append_eq_of_le, BitVec.extractLsb'_append_eq_of_add_le, Nat.reduceSub, BitVec.extractLsb'_eq_self, beq_self_eq_true, if_true, Bool.and_self]; try rfl)
  · rw [encode_sys]; simp (disch := decide) only [BitVec.extractLsb'_append_eq_of_le, BitVec.extractLsb'_append_eq_of_add_le, Nat.reduceSub, BitVec.extractLsb'_eq_self]

theorem encode_trap f : encode (.trap f) = 0#2 ++ 0xb9#8 ++ 0#3 ++ f.a ++ 0#5 ++ f.n := rfl

theorem trap f : Statement (.trap f) := by
  refine ⟨fun _ ok => ⟨?_, ?_⟩, nofun⟩
  · rw [decodeA_b9, encode_trap]
    all_goals (simp (disch := decide) only [encode_trap, BitVec.extractLsb'_append_eq_of_le, BitVec.extractLsb'_append_eq_of_add_le, Nat.reduceSub, BitVec.extractLsb'_eq_self, beq_self_eq_true, if_true, Bool.and_self]; try rfl)
  · rw [encode_trap]; simp (disch := decide) only [BitVec.extractLsb'_append_eq_of_le, BitVec.extractLsb'_append_eq_of_add_le, Nat.reduceSub, BitVec.extractLsb'_eq_self]

theorem encode_brk f : encode (.brk f) = 0#2 ++ 0xba#8 ++ 0#12 ++ f.n := rfl

theorem brk f : Statement (.brk f) := by
  refine ⟨fun _ ok => ⟨?_, ?_⟩, nofun⟩
  · rw [decodeA_ba, encode_brk]
    all_goals (simp (disch := decide) only [encode_brk, BitVec.extractLsb'_append_eq_of_le, BitVec.extractLsb'_append_eq_of_add_le, Nat.reduceSub, BitVec.extractLsb'_eq_self, beq_self_eq_true, if_true, Bool.and_self]; try rfl)
  · rw [encode_brk]; simp (disch := decide) only [BitVec.extractLsb'_append_eq_of_le, BitVec.extractLsb'_append_eq_of_add_le, Nat.reduceSub, BitVec.extractLsb'_eq_self]

theorem encode_rdcr f : encode (.rdcr f) = 0#2 ++ 0xbb#8 ++ 0#3 ++ f.d ++ 0#12 ++ f.n := rfl

theorem rdcr f : Statement (.rdcr f) := by
  refine ⟨fun _ ok => ⟨?_, ?_⟩, nofun⟩
  · rw [decodeA_bb, encode_rdcr]
    all_goals (simp (disch := decide) only [encode_rdcr, BitVec.extractLsb'_append_eq_of_le, BitVec.extractLsb'_append_eq_of_add_le, Nat.reduceSub, BitVec.extractLsb'_eq_self, beq_self_eq_true, if_true, Bool.and_self]; try rfl)
  · rw [encode_rdcr]; simp (disch := decide) only [BitVec.extractLsb'_append_eq_of_le, BitVec.extractLsb'_append_eq_of_add_le, Nat.reduceSub, BitVec.extractLsb'_eq_self]

theorem encode_wrcr f : encode (.wrcr f) = 0#2 ++ 0xbc#8 ++ 0#7 ++ f.s ++ 0x00#8 ++ f.n := rfl

theorem wrcr f : Statement (.wrcr f) := by
  refine ⟨fun _ ok => ⟨?_, ?_⟩, nofun⟩
  · rw [decodeA_bc, encode_wrcr]
    all_goals (simp (disch := decide) only [encode_wrcr, BitVec.extractLsb'_append_eq_of_le, BitVec.extractLsb'_append_eq_of_add_le, Nat.reduceSub, BitVec.extractLsb'_eq_self, beq_self_eq_true, if_true, Bool.and_self]; try rfl)
  · rw [encode_wrcr]; simp (disch := decide) only [BitVec.extractLsb'_append_eq_of_le, BitVec.extractLsb'_append_eq_of_add_le, Nat.reduceSub, BitVec.extractLsb'_eq_self]

theorem encode_halt : encode .halt = 0#2 ++ 0xbd#8 ++ 0#22 := rfl

theorem halt : Statement .halt := by
  refine ⟨fun _ ok => ⟨?_, ?_⟩, nofun⟩
  · rw [decodeA_bd, encode_halt]
    all_goals (simp (disch := decide) only [encode_halt, BitVec.extractLsb'_append_eq_of_le, BitVec.extractLsb'_append_eq_of_add_le, Nat.reduceSub, BitVec.extractLsb'_eq_self, beq_self_eq_true, if_true, Bool.and_self]; try rfl)
  · rw [encode_halt]; simp (disch := decide) only [BitVec.extractLsb'_append_eq_of_le, BitVec.extractLsb'_append_eq_of_add_le, Nat.reduceSub, BitVec.extractLsb'_eq_self]

theorem encode_nopX : encode .nopX = 0#2 ++ 0x00#8 ++ 0#22 := rfl

theorem nopX : Statement .nopX := by
  refine ⟨nofun, fun _ ok => ⟨?_, ?_⟩⟩
  · rw [decodeX_00, encode_nopX]
    all_goals (simp (disch := decide) only [encode_nopX, BitVec.extractLsb'_append_eq_of_le, BitVec.extractLsb'_append_eq_of_add_le, Nat.reduceSub, BitVec.extractLsb'_eq_self, beq_self_eq_true, if_true, Bool.and_self]; try rfl)
  · rw [encode_nopX]; simp (disch := decide) only [BitVec.extractLsb'_append_eq_of_le, BitVec.extractLsb'_append_eq_of_add_le, Nat.reduceSub, BitVec.extractLsb'_eq_self]

theorem encode_hintX f : encode (.hintX f) = 0#2 ++ 15#4 ++ f.o ++ f.x := rfl

theorem hintX f : Statement (.hintX f) := by
  refine ⟨nofun, fun _ ok => ⟨?_, ?_⟩⟩
  · rw [decodeX_hint, encode_hintX]
    all_goals simp (disch := decide) only [encode_hintX, BitVec.extractLsb'_append_eq_of_le, BitVec.extractLsb'_append_eq_of_add_le, Nat.reduceSub, BitVec.extractLsb'_eq_self]
  · rw [encode_hintX]; simp (disch := decide) only [BitVec.extractLsb'_append_eq_of_le, BitVec.extractLsb'_append_eq_of_add_le, Nat.reduceSub, BitVec.extractLsb'_eq_self]

theorem encode_vmode f : encode (.vmode f) = 0#2 ++ 0x01#8 ++ f.p ++ 0#18 ++ f.m := rfl

theorem vmode f : Statement (.vmode f) := by
  refine ⟨nofun, fun _ ok => ⟨?_, ?_⟩⟩
  · rw [decodeX_01, encode_vmode]
    all_goals (simp (disch := decide) only [encode_vmode, BitVec.extractLsb'_append_eq_of_le, BitVec.extractLsb'_append_eq_of_add_le, Nat.reduceSub, BitVec.extractLsb'_eq_self, beq_self_eq_true, if_true, Bool.and_self]; try rfl)
  · rw [encode_vmode]; simp (disch := decide) only [BitVec.extractLsb'_append_eq_of_le, BitVec.extractLsb'_append_eq_of_add_le, Nat.reduceSub, BitVec.extractLsb'_eq_self]

theorem encode_gset f : encode (.gset f) = 0#2 ++ 0x02#8 ++ f.p ++ f.s ++ f.q ++ f.n ++ 0#12 := rfl

theorem gset f : Statement (.gset f) := by
  refine ⟨nofun, fun _ ok => ⟨?_, ?_⟩⟩
  · rw [decodeX_02, encode_gset]
    all_goals (simp (disch := decide) only [encode_gset, BitVec.extractLsb'_append_eq_of_le, BitVec.extractLsb'_append_eq_of_add_le, Nat.reduceSub, BitVec.extractLsb'_eq_self, beq_self_eq_true, if_true, Bool.and_self]; try rfl)
  · rw [encode_gset]; simp (disch := decide) only [BitVec.extractLsb'_append_eq_of_le, BitVec.extractLsb'_append_eq_of_add_le, Nat.reduceSub, BitVec.extractLsb'_eq_self]

theorem encode_plog f : encode (.plog f) = 0#2 ++ 0x03#8 ++ f.p ++ f.d ++ f.a ++ f.b ++ f.t ++ 0#6 := rfl

theorem plog f : Statement (.plog f) := by
  refine ⟨nofun, fun _ ok => ⟨?_, ?_⟩⟩
  · rw [decodeX_03, encode_plog]
    all_goals (simp (disch := decide) only [encode_plog, BitVec.extractLsb'_append_eq_of_le, BitVec.extractLsb'_append_eq_of_add_le, Nat.reduceSub, BitVec.extractLsb'_eq_self, beq_self_eq_true, if_true, Bool.and_self]; try rfl)
  · rw [encode_plog]; simp (disch := decide) only [BitVec.extractLsb'_append_eq_of_le, BitVec.extractLsb'_append_eq_of_add_le, Nat.reduceSub, BitVec.extractLsb'_eq_self]

theorem encode_sel f : encode (.sel f) = 0#2 ++ 0x04#8 ++ f.s ++ f.d ++ f.a ++ f.b ++ 0#1 := rfl

theorem sel f : Statement (.sel f) := by
  refine ⟨nofun, fun _ ok => ⟨?_, ?_⟩⟩
  · rw [decodeX_04, encode_sel]
    all_goals (simp (disch := decide) only [encode_sel, BitVec.extractLsb'_append_eq_of_le, BitVec.extractLsb'_append_eq_of_add_le, Nat.reduceSub, BitVec.extractLsb'_eq_self, beq_self_eq_true, if_true, Bool.and_self]; try rfl)
  · rw [encode_sel]; simp (disch := decide) only [BitVec.extractLsb'_append_eq_of_le, BitVec.extractLsb'_append_eq_of_add_le, Nat.reduceSub, BitVec.extractLsb'_eq_self]

theorem encode_add f : encode (.add f) = 0#2 ++ 0x08#8 ++ f.p ++ f.d ++ f.a ++ f.b ++ 0#1 := rfl

theorem add f : Statement (.add f) := by
  refine ⟨nofun, fun _ ok => ⟨?_, ?_⟩⟩
  · rw [decodeX_08, encode_add]
    all_goals (simp (disch := decide) only [encode_add, BitVec.extractLsb'_append_eq_of_le, BitVec.extractLsb'_append_eq_of_add_le, Nat.reduceSub, BitVec.extractLsb'_eq_self, beq_self_eq_true, if_true, Bool.and_self]; try rfl)
  · rw [encode_add]; simp (disch := decide) only [BitVec.extractLsb'_append_eq_of_le, BitVec.extractLsb'_append_eq_of_add_le, Nat.reduceSub, BitVec.extractLsb'_eq_self]

theorem encode_sub f : encode (.sub f) = 0#2 ++ 0x09#8 ++ f.p ++ f.d ++ f.a ++ f.b ++ 0#1 := rfl

theorem sub f : Statement (.sub f) := by
  refine ⟨nofun, fun _ ok => ⟨?_, ?_⟩⟩
  · rw [decodeX_09, encode_sub]
    all_goals (simp (disch := decide) only [encode_sub, BitVec.extractLsb'_append_eq_of_le, BitVec.extractLsb'_append_eq_of_add_le, Nat.reduceSub, BitVec.extractLsb'_eq_self, beq_self_eq_true, if_true, Bool.and_self]; try rfl)
  · rw [encode_sub]; simp (disch := decide) only [BitVec.extractLsb'_append_eq_of_le, BitVec.extractLsb'_append_eq_of_add_le, Nat.reduceSub, BitVec.extractLsb'_eq_self]

theorem encode_addsI32 f : encode (.addsI32 f) = 0#2 ++ 0x0a#8 ++ f.p ++ f.d ++ f.a ++ f.b ++ 0#1 := rfl

theorem addsI32 f : Statement (.addsI32 f) := by
  refine ⟨nofun, fun _ ok => ⟨?_, ?_⟩⟩
  · rw [decodeX_0a, encode_addsI32]
    all_goals (simp (disch := decide) only [encode_addsI32, BitVec.extractLsb'_append_eq_of_le, BitVec.extractLsb'_append_eq_of_add_le, Nat.reduceSub, BitVec.extractLsb'_eq_self, beq_self_eq_true, if_true, Bool.and_self]; try rfl)
  · rw [encode_addsI32]; simp (disch := decide) only [BitVec.extractLsb'_append_eq_of_le, BitVec.extractLsb'_append_eq_of_add_le, Nat.reduceSub, BitVec.extractLsb'_eq_self]

theorem encode_addsN32 f : encode (.addsN32 f) = 0#2 ++ 0x0b#8 ++ f.p ++ f.d ++ f.a ++ f.b ++ 0#1 := rfl

theorem addsN32 f : Statement (.addsN32 f) := by
  refine ⟨nofun, fun _ ok => ⟨?_, ?_⟩⟩
  · rw [decodeX_0b, encode_addsN32]
    all_goals (simp (disch := decide) only [encode_addsN32, BitVec.extractLsb'_append_eq_of_le, BitVec.extractLsb'_append_eq_of_add_le, Nat.reduceSub, BitVec.extractLsb'_eq_self, beq_self_eq_true, if_true, Bool.and_self]; try rfl)
  · rw [encode_addsN32]; simp (disch := decide) only [BitVec.extractLsb'_append_eq_of_le, BitVec.extractLsb'_append_eq_of_add_le, Nat.reduceSub, BitVec.extractLsb'_eq_self]

theorem encode_subsI32 f : encode (.subsI32 f) = 0#2 ++ 0x0c#8 ++ f.p ++ f.d ++ f.a ++ f.b ++ 0#1 := rfl

theorem subsI32 f : Statement (.subsI32 f) := by
  refine ⟨nofun, fun _ ok => ⟨?_, ?_⟩⟩
  · rw [decodeX_0c, encode_subsI32]
    all_goals (simp (disch := decide) only [encode_subsI32, BitVec.extractLsb'_append_eq_of_le, BitVec.extractLsb'_append_eq_of_add_le, Nat.reduceSub, BitVec.extractLsb'_eq_self, beq_self_eq_true, if_true, Bool.and_self]; try rfl)
  · rw [encode_subsI32]; simp (disch := decide) only [BitVec.extractLsb'_append_eq_of_le, BitVec.extractLsb'_append_eq_of_add_le, Nat.reduceSub, BitVec.extractLsb'_eq_self]

theorem encode_subsN32 f : encode (.subsN32 f) = 0#2 ++ 0x0d#8 ++ f.p ++ f.d ++ f.a ++ f.b ++ 0#1 := rfl

theorem subsN32 f : Statement (.subsN32 f) := by
  refine ⟨nofun, fun _ ok => ⟨?_, ?_⟩⟩
  · rw [decodeX_0d, encode_subsN32]
    all_goals (simp (disch := decide) only [encode_subsN32, BitVec.extractLsb'_append_eq_of_le, BitVec.extractLsb'_append_eq_of_add_le, Nat.reduceSub, BitVec.extractLsb'_eq_self, beq_self_eq_true, if_true, Bool.and_self]; try rfl)
  · rw [encode_subsN32]; simp (disch := decide) only [BitVec.extractLsb'_append_eq_of_le, BitVec.extractLsb'_append_eq_of_add_le, Nat.reduceSub, BitVec.extractLsb'_eq_self]

theorem encode_mul f : encode (.mul f) = 0#2 ++ 0x0e#8 ++ f.p ++ f.d ++ f.a ++ f.b ++ 0#1 := rfl

theorem mul f : Statement (.mul f) := by
  refine ⟨nofun, fun _ ok => ⟨?_, ?_⟩⟩
  · rw [decodeX_0e, encode_mul]
    all_goals (simp (disch := decide) only [encode_mul, BitVec.extractLsb'_append_eq_of_le, BitVec.extractLsb'_append_eq_of_add_le, Nat.reduceSub, BitVec.extractLsb'_eq_self, beq_self_eq_true, if_true, Bool.and_self]; try rfl)
  · rw [encode_mul]; simp (disch := decide) only [BitVec.extractLsb'_append_eq_of_le, BitVec.extractLsb'_append_eq_of_add_le, Nat.reduceSub, BitVec.extractLsb'_eq_self]

theorem encode_mulhI32 f : encode (.mulhI32 f) = 0#2 ++ 0x0f#8 ++ f.p ++ f.d ++ f.a ++ f.b ++ 0#1 := rfl

theorem mulhI32 f : Statement (.mulhI32 f) := by
  refine ⟨nofun, fun _ ok => ⟨?_, ?_⟩⟩
  · rw [decodeX_0f, encode_mulhI32]
    all_goals (simp (disch := decide) only [encode_mulhI32, BitVec.extractLsb'_append_eq_of_le, BitVec.extractLsb'_append_eq_of_add_le, Nat.reduceSub, BitVec.extractLsb'_eq_self, beq_self_eq_true, if_true, Bool.and_self]; try rfl)
  · rw [encode_mulhI32]; simp (disch := decide) only [BitVec.extractLsb'_append_eq_of_le, BitVec.extractLsb'_append_eq_of_add_le, Nat.reduceSub, BitVec.extractLsb'_eq_self]

theorem encode_mulhN32 f : encode (.mulhN32 f) = 0#2 ++ 0x10#8 ++ f.p ++ f.d ++ f.a ++ f.b ++ 0#1 := rfl

theorem mulhN32 f : Statement (.mulhN32 f) := by
  refine ⟨nofun, fun _ ok => ⟨?_, ?_⟩⟩
  · rw [decodeX_10, encode_mulhN32]
    all_goals (simp (disch := decide) only [encode_mulhN32, BitVec.extractLsb'_append_eq_of_le, BitVec.extractLsb'_append_eq_of_add_le, Nat.reduceSub, BitVec.extractLsb'_eq_self, beq_self_eq_true, if_true, Bool.and_self]; try rfl)
  · rw [encode_mulhN32]; simp (disch := decide) only [BitVec.extractLsb'_append_eq_of_le, BitVec.extractLsb'_append_eq_of_add_le, Nat.reduceSub, BitVec.extractLsb'_eq_self]

theorem encode_divI32 f : encode (.divI32 f) = 0#2 ++ 0x11#8 ++ f.p ++ f.d ++ f.a ++ f.b ++ 0#1 := rfl

theorem divI32 f : Statement (.divI32 f) := by
  refine ⟨nofun, fun _ ok => ⟨?_, ?_⟩⟩
  · rw [decodeX_11, encode_divI32]
    all_goals (simp (disch := decide) only [encode_divI32, BitVec.extractLsb'_append_eq_of_le, BitVec.extractLsb'_append_eq_of_add_le, Nat.reduceSub, BitVec.extractLsb'_eq_self, beq_self_eq_true, if_true, Bool.and_self]; try rfl)
  · rw [encode_divI32]; simp (disch := decide) only [BitVec.extractLsb'_append_eq_of_le, BitVec.extractLsb'_append_eq_of_add_le, Nat.reduceSub, BitVec.extractLsb'_eq_self]

theorem encode_divN32 f : encode (.divN32 f) = 0#2 ++ 0x12#8 ++ f.p ++ f.d ++ f.a ++ f.b ++ 0#1 := rfl

theorem divN32 f : Statement (.divN32 f) := by
  refine ⟨nofun, fun _ ok => ⟨?_, ?_⟩⟩
  · rw [decodeX_12, encode_divN32]
    all_goals (simp (disch := decide) only [encode_divN32, BitVec.extractLsb'_append_eq_of_le, BitVec.extractLsb'_append_eq_of_add_le, Nat.reduceSub, BitVec.extractLsb'_eq_self, beq_self_eq_true, if_true, Bool.and_self]; try rfl)
  · rw [encode_divN32]; simp (disch := decide) only [BitVec.extractLsb'_append_eq_of_le, BitVec.extractLsb'_append_eq_of_add_le, Nat.reduceSub, BitVec.extractLsb'_eq_self]

theorem encode_remI32 f : encode (.remI32 f) = 0#2 ++ 0x13#8 ++ f.p ++ f.d ++ f.a ++ f.b ++ 0#1 := rfl

theorem remI32 f : Statement (.remI32 f) := by
  refine ⟨nofun, fun _ ok => ⟨?_, ?_⟩⟩
  · rw [decodeX_13, encode_remI32]
    all_goals (simp (disch := decide) only [encode_remI32, BitVec.extractLsb'_append_eq_of_le, BitVec.extractLsb'_append_eq_of_add_le, Nat.reduceSub, BitVec.extractLsb'_eq_self, beq_self_eq_true, if_true, Bool.and_self]; try rfl)
  · rw [encode_remI32]; simp (disch := decide) only [BitVec.extractLsb'_append_eq_of_le, BitVec.extractLsb'_append_eq_of_add_le, Nat.reduceSub, BitVec.extractLsb'_eq_self]

theorem encode_remN32 f : encode (.remN32 f) = 0#2 ++ 0x14#8 ++ f.p ++ f.d ++ f.a ++ f.b ++ 0#1 := rfl

theorem remN32 f : Statement (.remN32 f) := by
  refine ⟨nofun, fun _ ok => ⟨?_, ?_⟩⟩
  · rw [decodeX_14, encode_remN32]
    all_goals (simp (disch := decide) only [encode_remN32, BitVec.extractLsb'_append_eq_of_le, BitVec.extractLsb'_append_eq_of_add_le, Nat.reduceSub, BitVec.extractLsb'_eq_self, beq_self_eq_true, if_true, Bool.and_self]; try rfl)
  · rw [encode_remN32]; simp (disch := decide) only [BitVec.extractLsb'_append_eq_of_le, BitVec.extractLsb'_append_eq_of_add_le, Nat.reduceSub, BitVec.extractLsb'_eq_self]

theorem encode_minI32 f : encode (.minI32 f) = 0#2 ++ 0x15#8 ++ f.p ++ f.d ++ f.a ++ f.b ++ 0#1 := rfl

theorem minI32 f : Statement (.minI32 f) := by
  refine ⟨nofun, fun _ ok => ⟨?_, ?_⟩⟩
  · rw [decodeX_15, encode_minI32]
    all_goals (simp (disch := decide) only [encode_minI32, BitVec.extractLsb'_append_eq_of_le, BitVec.extractLsb'_append_eq_of_add_le, Nat.reduceSub, BitVec.extractLsb'_eq_self, beq_self_eq_true, if_true, Bool.and_self]; try rfl)
  · rw [encode_minI32]; simp (disch := decide) only [BitVec.extractLsb'_append_eq_of_le, BitVec.extractLsb'_append_eq_of_add_le, Nat.reduceSub, BitVec.extractLsb'_eq_self]

theorem encode_minN32 f : encode (.minN32 f) = 0#2 ++ 0x16#8 ++ f.p ++ f.d ++ f.a ++ f.b ++ 0#1 := rfl

theorem minN32 f : Statement (.minN32 f) := by
  refine ⟨nofun, fun _ ok => ⟨?_, ?_⟩⟩
  · rw [decodeX_16, encode_minN32]
    all_goals (simp (disch := decide) only [encode_minN32, BitVec.extractLsb'_append_eq_of_le, BitVec.extractLsb'_append_eq_of_add_le, Nat.reduceSub, BitVec.extractLsb'_eq_self, beq_self_eq_true, if_true, Bool.and_self]; try rfl)
  · rw [encode_minN32]; simp (disch := decide) only [BitVec.extractLsb'_append_eq_of_le, BitVec.extractLsb'_append_eq_of_add_le, Nat.reduceSub, BitVec.extractLsb'_eq_self]

theorem encode_maxI32 f : encode (.maxI32 f) = 0#2 ++ 0x17#8 ++ f.p ++ f.d ++ f.a ++ f.b ++ 0#1 := rfl

theorem maxI32 f : Statement (.maxI32 f) := by
  refine ⟨nofun, fun _ ok => ⟨?_, ?_⟩⟩
  · rw [decodeX_17, encode_maxI32]
    all_goals (simp (disch := decide) only [encode_maxI32, BitVec.extractLsb'_append_eq_of_le, BitVec.extractLsb'_append_eq_of_add_le, Nat.reduceSub, BitVec.extractLsb'_eq_self, beq_self_eq_true, if_true, Bool.and_self]; try rfl)
  · rw [encode_maxI32]; simp (disch := decide) only [BitVec.extractLsb'_append_eq_of_le, BitVec.extractLsb'_append_eq_of_add_le, Nat.reduceSub, BitVec.extractLsb'_eq_self]

theorem encode_maxN32 f : encode (.maxN32 f) = 0#2 ++ 0x18#8 ++ f.p ++ f.d ++ f.a ++ f.b ++ 0#1 := rfl

theorem maxN32 f : Statement (.maxN32 f) := by
  refine ⟨nofun, fun _ ok => ⟨?_, ?_⟩⟩
  · rw [decodeX_18, encode_maxN32]
    all_goals (simp (disch := decide) only [encode_maxN32, BitVec.extractLsb'_append_eq_of_le, BitVec.extractLsb'_append_eq_of_add_le, Nat.reduceSub, BitVec.extractLsb'_eq_self, beq_self_eq_true, if_true, Bool.and_self]; try rfl)
  · rw [encode_maxN32]; simp (disch := decide) only [BitVec.extractLsb'_append_eq_of_le, BitVec.extractLsb'_append_eq_of_add_le, Nat.reduceSub, BitVec.extractLsb'_eq_self]

theorem encode_and f : encode (.and f) = 0#2 ++ 0x19#8 ++ f.p ++ f.d ++ f.a ++ f.b ++ 0#1 := rfl

theorem and f : Statement (.and f) := by
  refine ⟨nofun, fun _ ok => ⟨?_, ?_⟩⟩
  · rw [decodeX_19, encode_and]
    all_goals (simp (disch := decide) only [encode_and, BitVec.extractLsb'_append_eq_of_le, BitVec.extractLsb'_append_eq_of_add_le, Nat.reduceSub, BitVec.extractLsb'_eq_self, beq_self_eq_true, if_true, Bool.and_self]; try rfl)
  · rw [encode_and]; simp (disch := decide) only [BitVec.extractLsb'_append_eq_of_le, BitVec.extractLsb'_append_eq_of_add_le, Nat.reduceSub, BitVec.extractLsb'_eq_self]

theorem encode_or f : encode (.or f) = 0#2 ++ 0x1a#8 ++ f.p ++ f.d ++ f.a ++ f.b ++ 0#1 := rfl

theorem or f : Statement (.or f) := by
  refine ⟨nofun, fun _ ok => ⟨?_, ?_⟩⟩
  · rw [decodeX_1a, encode_or]
    all_goals (simp (disch := decide) only [encode_or, BitVec.extractLsb'_append_eq_of_le, BitVec.extractLsb'_append_eq_of_add_le, Nat.reduceSub, BitVec.extractLsb'_eq_self, beq_self_eq_true, if_true, Bool.and_self]; try rfl)
  · rw [encode_or]; simp (disch := decide) only [BitVec.extractLsb'_append_eq_of_le, BitVec.extractLsb'_append_eq_of_add_le, Nat.reduceSub, BitVec.extractLsb'_eq_self]

theorem encode_xor f : encode (.xor f) = 0#2 ++ 0x1b#8 ++ f.p ++ f.d ++ f.a ++ f.b ++ 0#1 := rfl

theorem xor f : Statement (.xor f) := by
  refine ⟨nofun, fun _ ok => ⟨?_, ?_⟩⟩
  · rw [decodeX_1b, encode_xor]
    all_goals (simp (disch := decide) only [encode_xor, BitVec.extractLsb'_append_eq_of_le, BitVec.extractLsb'_append_eq_of_add_le, Nat.reduceSub, BitVec.extractLsb'_eq_self, beq_self_eq_true, if_true, Bool.and_self]; try rfl)
  · rw [encode_xor]; simp (disch := decide) only [BitVec.extractLsb'_append_eq_of_le, BitVec.extractLsb'_append_eq_of_add_le, Nat.reduceSub, BitVec.extractLsb'_eq_self]

theorem encode_andn f : encode (.andn f) = 0#2 ++ 0x1c#8 ++ f.p ++ f.d ++ f.a ++ f.b ++ 0#1 := rfl

theorem andn f : Statement (.andn f) := by
  refine ⟨nofun, fun _ ok => ⟨?_, ?_⟩⟩
  · rw [decodeX_1c, encode_andn]
    all_goals (simp (disch := decide) only [encode_andn, BitVec.extractLsb'_append_eq_of_le, BitVec.extractLsb'_append_eq_of_add_le, Nat.reduceSub, BitVec.extractLsb'_eq_self, beq_self_eq_true, if_true, Bool.and_self]; try rfl)
  · rw [encode_andn]; simp (disch := decide) only [BitVec.extractLsb'_append_eq_of_le, BitVec.extractLsb'_append_eq_of_add_le, Nat.reduceSub, BitVec.extractLsb'_eq_self]

theorem encode_shl f : encode (.shl f) = 0#2 ++ 0x1d#8 ++ f.p ++ f.d ++ f.a ++ f.b ++ 0#1 := rfl

theorem shl f : Statement (.shl f) := by
  refine ⟨nofun, fun _ ok => ⟨?_, ?_⟩⟩
  · rw [decodeX_1d, encode_shl]
    all_goals (simp (disch := decide) only [encode_shl, BitVec.extractLsb'_append_eq_of_le, BitVec.extractLsb'_append_eq_of_add_le, Nat.reduceSub, BitVec.extractLsb'_eq_self, beq_self_eq_true, if_true, Bool.and_self]; try rfl)
  · rw [encode_shl]; simp (disch := decide) only [BitVec.extractLsb'_append_eq_of_le, BitVec.extractLsb'_append_eq_of_add_le, Nat.reduceSub, BitVec.extractLsb'_eq_self]

theorem encode_shr f : encode (.shr f) = 0#2 ++ 0x1e#8 ++ f.p ++ f.d ++ f.a ++ f.b ++ 0#1 := rfl

theorem shr f : Statement (.shr f) := by
  refine ⟨nofun, fun _ ok => ⟨?_, ?_⟩⟩
  · rw [decodeX_1e, encode_shr]
    all_goals (simp (disch := decide) only [encode_shr, BitVec.extractLsb'_append_eq_of_le, BitVec.extractLsb'_append_eq_of_add_le, Nat.reduceSub, BitVec.extractLsb'_eq_self, beq_self_eq_true, if_true, Bool.and_self]; try rfl)
  · rw [encode_shr]; simp (disch := decide) only [BitVec.extractLsb'_append_eq_of_le, BitVec.extractLsb'_append_eq_of_add_le, Nat.reduceSub, BitVec.extractLsb'_eq_self]

theorem encode_sra f : encode (.sra f) = 0#2 ++ 0x1f#8 ++ f.p ++ f.d ++ f.a ++ f.b ++ 0#1 := rfl

theorem sra f : Statement (.sra f) := by
  refine ⟨nofun, fun _ ok => ⟨?_, ?_⟩⟩
  · rw [decodeX_1f, encode_sra]
    all_goals (simp (disch := decide) only [encode_sra, BitVec.extractLsb'_append_eq_of_le, BitVec.extractLsb'_append_eq_of_add_le, Nat.reduceSub, BitVec.extractLsb'_eq_self, beq_self_eq_true, if_true, Bool.and_self]; try rfl)
  · rw [encode_sra]; simp (disch := decide) only [BitVec.extractLsb'_append_eq_of_le, BitVec.extractLsb'_append_eq_of_add_le, Nat.reduceSub, BitVec.extractLsb'_eq_self]

theorem encode_rol f : encode (.rol f) = 0#2 ++ 0x20#8 ++ f.p ++ f.d ++ f.a ++ f.b ++ 0#1 := rfl

theorem rol f : Statement (.rol f) := by
  refine ⟨nofun, fun _ ok => ⟨?_, ?_⟩⟩
  · rw [decodeX_20, encode_rol]
    all_goals (simp (disch := decide) only [encode_rol, BitVec.extractLsb'_append_eq_of_le, BitVec.extractLsb'_append_eq_of_add_le, Nat.reduceSub, BitVec.extractLsb'_eq_self, beq_self_eq_true, if_true, Bool.and_self]; try rfl)
  · rw [encode_rol]; simp (disch := decide) only [BitVec.extractLsb'_append_eq_of_le, BitVec.extractLsb'_append_eq_of_add_le, Nat.reduceSub, BitVec.extractLsb'_eq_self]

theorem encode_clz f : encode (.clz f) = 0#2 ++ 0x21#8 ++ f.p ++ f.d ++ f.a ++ 0#7 := rfl

theorem clz f : Statement (.clz f) := by
  refine ⟨nofun, fun _ ok => ⟨?_, ?_⟩⟩
  · rw [decodeX_21, encode_clz]
    all_goals (simp (disch := decide) only [encode_clz, BitVec.extractLsb'_append_eq_of_le, BitVec.extractLsb'_append_eq_of_add_le, Nat.reduceSub, BitVec.extractLsb'_eq_self, beq_self_eq_true, if_true, Bool.and_self]; try rfl)
  · rw [encode_clz]; simp (disch := decide) only [BitVec.extractLsb'_append_eq_of_le, BitVec.extractLsb'_append_eq_of_add_le, Nat.reduceSub, BitVec.extractLsb'_eq_self]

theorem encode_ctz f : encode (.ctz f) = 0#2 ++ 0x22#8 ++ f.p ++ f.d ++ f.a ++ 0#7 := rfl

theorem ctz f : Statement (.ctz f) := by
  refine ⟨nofun, fun _ ok => ⟨?_, ?_⟩⟩
  · rw [decodeX_22, encode_ctz]
    all_goals (simp (disch := decide) only [encode_ctz, BitVec.extractLsb'_append_eq_of_le, BitVec.extractLsb'_append_eq_of_add_le, Nat.reduceSub, BitVec.extractLsb'_eq_self, beq_self_eq_true, if_true, Bool.and_self]; try rfl)
  · rw [encode_ctz]; simp (disch := decide) only [BitVec.extractLsb'_append_eq_of_le, BitVec.extractLsb'_append_eq_of_add_le, Nat.reduceSub, BitVec.extractLsb'_eq_self]

theorem encode_popc f : encode (.popc f) = 0#2 ++ 0x23#8 ++ f.p ++ f.d ++ f.a ++ 0#7 := rfl

theorem popc f : Statement (.popc f) := by
  refine ⟨nofun, fun _ ok => ⟨?_, ?_⟩⟩
  · rw [decodeX_23, encode_popc]
    all_goals (simp (disch := decide) only [encode_popc, BitVec.extractLsb'_append_eq_of_le, BitVec.extractLsb'_append_eq_of_add_le, Nat.reduceSub, BitVec.extractLsb'_eq_self, beq_self_eq_true, if_true, Bool.and_self]; try rfl)
  · rw [encode_popc]; simp (disch := decide) only [BitVec.extractLsb'_append_eq_of_le, BitVec.extractLsb'_append_eq_of_add_le, Nat.reduceSub, BitVec.extractLsb'_eq_self]

theorem encode_bfx f : encode (.bfx f) = 0#2 ++ 0x24#8 ++ f.p ++ f.d ++ f.a ++ f.b ++ 0#1 := rfl

theorem bfx f : Statement (.bfx f) := by
  refine ⟨nofun, fun _ ok => ⟨?_, ?_⟩⟩
  · rw [decodeX_24, encode_bfx]
    all_goals (simp (disch := decide) only [encode_bfx, BitVec.extractLsb'_append_eq_of_le, BitVec.extractLsb'_append_eq_of_add_le, Nat.reduceSub, BitVec.extractLsb'_eq_self, beq_self_eq_true, if_true, Bool.and_self]; try rfl)
  · rw [encode_bfx]; simp (disch := decide) only [BitVec.extractLsb'_append_eq_of_le, BitVec.extractLsb'_append_eq_of_add_le, Nat.reduceSub, BitVec.extractLsb'_eq_self]

theorem encode_bfi f : encode (.bfi f) = 0#2 ++ 0x25#8 ++ f.p ++ f.d ++ f.a ++ f.b ++ 0#1 := rfl

theorem bfi f : Statement (.bfi f) := by
  refine ⟨nofun, fun _ ok => ⟨?_, ?_⟩⟩
  · rw [decodeX_25, encode_bfi]
    all_goals (simp (disch := decide) only [encode_bfi, BitVec.extractLsb'_append_eq_of_le, BitVec.extractLsb'_append_eq_of_add_le, Nat.reduceSub, BitVec.extractLsb'_eq_self, beq_self_eq_true, if_true, Bool.and_self]; try rfl)
  · rw [encode_bfi]; simp (disch := decide) only [BitVec.extractLsb'_append_eq_of_le, BitVec.extractLsb'_append_eq_of_add_le, Nat.reduceSub, BitVec.extractLsb'_eq_self]

theorem encode_addc f : encode (.addc f) = 0#2 ++ 0x26#8 ++ f.p ++ f.d ++ f.a ++ f.b ++ f.m := rfl

theorem addc f : Statement (.addc f) := by
  refine ⟨nofun, fun _ ok => ⟨?_, ?_⟩⟩
  · rw [decodeX_26, encode_addc]
    all_goals (simp (disch := decide) only [encode_addc, BitVec.extractLsb'_append_eq_of_le, BitVec.extractLsb'_append_eq_of_add_le, Nat.reduceSub, BitVec.extractLsb'_eq_self, beq_self_eq_true, if_true, Bool.and_self]; try rfl)
  · rw [encode_addc]; simp (disch := decide) only [BitVec.extractLsb'_append_eq_of_le, BitVec.extractLsb'_append_eq_of_add_le, Nat.reduceSub, BitVec.extractLsb'_eq_self]

theorem encode_subc f : encode (.subc f) = 0#2 ++ 0x27#8 ++ f.p ++ f.d ++ f.a ++ f.b ++ f.m := rfl

theorem subc f : Statement (.subc f) := by
  refine ⟨nofun, fun _ ok => ⟨?_, ?_⟩⟩
  · rw [decodeX_27, encode_subc]
    all_goals (simp (disch := decide) only [encode_subc, BitVec.extractLsb'_append_eq_of_le, BitVec.extractLsb'_append_eq_of_add_le, Nat.reduceSub, BitVec.extractLsb'_eq_self, beq_self_eq_true, if_true, Bool.and_self]; try rfl)
  · rw [encode_subc]; simp (disch := decide) only [BitVec.extractLsb'_append_eq_of_le, BitVec.extractLsb'_append_eq_of_add_le, Nat.reduceSub, BitVec.extractLsb'_eq_self]

theorem encode_addi f : encode (.addi f) = 0#2 ++ 0x28#8 ++ f.p ++ f.d ++ f.a ++ f.i := rfl

theorem addi f : Statement (.addi f) := by
  refine ⟨nofun, fun _ ok => ⟨?_, ?_⟩⟩
  · rw [decodeX_28, encode_addi]
    all_goals (simp (disch := decide) only [encode_addi, BitVec.extractLsb'_append_eq_of_le, BitVec.extractLsb'_append_eq_of_add_le, Nat.reduceSub, BitVec.extractLsb'_eq_self, beq_self_eq_true, if_true, Bool.and_self]; try rfl)
  · rw [encode_addi]; simp (disch := decide) only [BitVec.extractLsb'_append_eq_of_le, BitVec.extractLsb'_append_eq_of_add_le, Nat.reduceSub, BitVec.extractLsb'_eq_self]

theorem encode_andi f : encode (.andi f) = 0#2 ++ 0x29#8 ++ f.p ++ f.d ++ f.a ++ f.i := rfl

theorem andi f : Statement (.andi f) := by
  refine ⟨nofun, fun _ ok => ⟨?_, ?_⟩⟩
  · rw [decodeX_29, encode_andi]
    all_goals (simp (disch := decide) only [encode_andi, BitVec.extractLsb'_append_eq_of_le, BitVec.extractLsb'_append_eq_of_add_le, Nat.reduceSub, BitVec.extractLsb'_eq_self, beq_self_eq_true, if_true, Bool.and_self]; try rfl)
  · rw [encode_andi]; simp (disch := decide) only [BitVec.extractLsb'_append_eq_of_le, BitVec.extractLsb'_append_eq_of_add_le, Nat.reduceSub, BitVec.extractLsb'_eq_self]

theorem encode_ori f : encode (.ori f) = 0#2 ++ 0x2a#8 ++ f.p ++ f.d ++ f.a ++ f.i := rfl

theorem ori f : Statement (.ori f) := by
  refine ⟨nofun, fun _ ok => ⟨?_, ?_⟩⟩
  · rw [decodeX_2a, encode_ori]
    all_goals (simp (disch := decide) only [encode_ori, BitVec.extractLsb'_append_eq_of_le, BitVec.extractLsb'_append_eq_of_add_le, Nat.reduceSub, BitVec.extractLsb'_eq_self, beq_self_eq_true, if_true, Bool.and_self]; try rfl)
  · rw [encode_ori]; simp (disch := decide) only [BitVec.extractLsb'_append_eq_of_le, BitVec.extractLsb'_append_eq_of_add_le, Nat.reduceSub, BitVec.extractLsb'_eq_self]

theorem encode_xori f : encode (.xori f) = 0#2 ++ 0x2b#8 ++ f.p ++ f.d ++ f.a ++ f.i := rfl

theorem xori f : Statement (.xori f) := by
  refine ⟨nofun, fun _ ok => ⟨?_, ?_⟩⟩
  · rw [decodeX_2b, encode_xori]
    all_goals (simp (disch := decide) only [encode_xori, BitVec.extractLsb'_append_eq_of_le, BitVec.extractLsb'_append_eq_of_add_le, Nat.reduceSub, BitVec.extractLsb'_eq_self, beq_self_eq_true, if_true, Bool.and_self]; try rfl)
  · rw [encode_xori]; simp (disch := decide) only [BitVec.extractLsb'_append_eq_of_le, BitVec.extractLsb'_append_eq_of_add_le, Nat.reduceSub, BitVec.extractLsb'_eq_self]

theorem encode_shli f : encode (.shli f) = 0#2 ++ 0x2c#8 ++ f.p ++ f.d ++ f.a ++ f.i := rfl

theorem shli f : Statement (.shli f) := by
  refine ⟨nofun, fun _ ok => ⟨?_, ?_⟩⟩
  · rw [decodeX_2c, encode_shli]
    all_goals (simp (disch := decide) only [encode_shli, BitVec.extractLsb'_append_eq_of_le, BitVec.extractLsb'_append_eq_of_add_le, Nat.reduceSub, BitVec.extractLsb'_eq_self, beq_self_eq_true, if_true, Bool.and_self]; try rfl)
  · rw [encode_shli]; simp (disch := decide) only [BitVec.extractLsb'_append_eq_of_le, BitVec.extractLsb'_append_eq_of_add_le, Nat.reduceSub, BitVec.extractLsb'_eq_self]

theorem encode_shri f : encode (.shri f) = 0#2 ++ 0x2d#8 ++ f.p ++ f.d ++ f.a ++ f.i := rfl

theorem shri f : Statement (.shri f) := by
  refine ⟨nofun, fun _ ok => ⟨?_, ?_⟩⟩
  · rw [decodeX_2d, encode_shri]
    all_goals (simp (disch := decide) only [encode_shri, BitVec.extractLsb'_append_eq_of_le, BitVec.extractLsb'_append_eq_of_add_le, Nat.reduceSub, BitVec.extractLsb'_eq_self, beq_self_eq_true, if_true, Bool.and_self]; try rfl)
  · rw [encode_shri]; simp (disch := decide) only [BitVec.extractLsb'_append_eq_of_le, BitVec.extractLsb'_append_eq_of_add_le, Nat.reduceSub, BitVec.extractLsb'_eq_self]

theorem encode_srai f : encode (.srai f) = 0#2 ++ 0x2e#8 ++ f.p ++ f.d ++ f.a ++ f.i := rfl

theorem srai f : Statement (.srai f) := by
  refine ⟨nofun, fun _ ok => ⟨?_, ?_⟩⟩
  · rw [decodeX_2e, encode_srai]
    all_goals (simp (disch := decide) only [encode_srai, BitVec.extractLsb'_append_eq_of_le, BitVec.extractLsb'_append_eq_of_add_le, Nat.reduceSub, BitVec.extractLsb'_eq_self, beq_self_eq_true, if_true, Bool.and_self]; try rfl)
  · rw [encode_srai]; simp (disch := decide) only [BitVec.extractLsb'_append_eq_of_le, BitVec.extractLsb'_append_eq_of_add_le, Nat.reduceSub, BitVec.extractLsb'_eq_self]

theorem encode_li f : encode (.li f) = 0#2 ++ 0x2f#8 ++ f.p ++ f.d ++ 0#6 ++ f.i := rfl

theorem li f : Statement (.li f) := by
  refine ⟨nofun, fun _ ok => ⟨?_, ?_⟩⟩
  · rw [decodeX_2f, encode_li]
    all_goals (simp (disch := decide) only [encode_li, BitVec.extractLsb'_append_eq_of_le, BitVec.extractLsb'_append_eq_of_add_le, Nat.reduceSub, BitVec.extractLsb'_eq_self, beq_self_eq_true, if_true, Bool.and_self]; try rfl)
  · rw [encode_li]; simp (disch := decide) only [BitVec.extractLsb'_append_eq_of_le, BitVec.extractLsb'_append_eq_of_add_le, Nat.reduceSub, BitVec.extractLsb'_eq_self]

theorem encode_cmpI32 f : encode (.cmpI32 f) = 0#2 ++ 0x30#8 ++ f.p ++ f.d ++ f.c ++ f.a ++ f.b ++ 0#1 := rfl

theorem cmpI32 f : Statement (.cmpI32 f) := by
  refine ⟨nofun, fun _ ok => ⟨?_, ?_⟩⟩
  · rw [decodeX_30, encode_cmpI32]
    all_goals (simp (disch := decide) only [encode_cmpI32, BitVec.extractLsb'_append_eq_of_le, BitVec.extractLsb'_append_eq_of_add_le, Nat.reduceSub, BitVec.extractLsb'_eq_self, beq_self_eq_true, if_true, Bool.and_self]; try rfl)
  · rw [encode_cmpI32]; simp (disch := decide) only [BitVec.extractLsb'_append_eq_of_le, BitVec.extractLsb'_append_eq_of_add_le, Nat.reduceSub, BitVec.extractLsb'_eq_self]

theorem encode_cmpN32 f : encode (.cmpN32 f) = 0#2 ++ 0x31#8 ++ f.p ++ f.d ++ f.c ++ f.a ++ f.b ++ 0#1 := rfl

theorem cmpN32 f : Statement (.cmpN32 f) := by
  refine ⟨nofun, fun _ ok => ⟨?_, ?_⟩⟩
  · rw [decodeX_31, encode_cmpN32]
    all_goals (simp (disch := decide) only [encode_cmpN32, BitVec.extractLsb'_append_eq_of_le, BitVec.extractLsb'_append_eq_of_add_le, Nat.reduceSub, BitVec.extractLsb'_eq_self, beq_self_eq_true, if_true, Bool.and_self]; try rfl)
  · rw [encode_cmpN32]; simp (disch := decide) only [BitVec.extractLsb'_append_eq_of_le, BitVec.extractLsb'_append_eq_of_add_le, Nat.reduceSub, BitVec.extractLsb'_eq_self]

theorem encode_cmpF32 f : encode (.cmpF32 f) = 0#2 ++ 0x32#8 ++ f.p ++ f.d ++ f.c ++ f.a ++ f.b ++ 0#1 := rfl

theorem cmpF32 f : Statement (.cmpF32 f) := by
  refine ⟨nofun, fun _ ok => ⟨?_, ?_⟩⟩
  · rw [decodeX_32, encode_cmpF32]
    all_goals (simp (disch := decide) only [encode_cmpF32, BitVec.extractLsb'_append_eq_of_le, BitVec.extractLsb'_append_eq_of_add_le, Nat.reduceSub, BitVec.extractLsb'_eq_self, beq_self_eq_true, if_true, Bool.and_self]; try rfl)
  · rw [encode_cmpF32]; simp (disch := decide) only [BitVec.extractLsb'_append_eq_of_le, BitVec.extractLsb'_append_eq_of_add_le, Nat.reduceSub, BitVec.extractLsb'_eq_self]

theorem encode_addF32 f : encode (.addF32 f) = 0#2 ++ 0x38#8 ++ f.p ++ f.d ++ f.a ++ f.b ++ 0#1 := rfl

theorem addF32 f : Statement (.addF32 f) := by
  refine ⟨nofun, fun _ ok => ⟨?_, ?_⟩⟩
  · rw [decodeX_38, encode_addF32]
    all_goals (simp (disch := decide) only [encode_addF32, BitVec.extractLsb'_append_eq_of_le, BitVec.extractLsb'_append_eq_of_add_le, Nat.reduceSub, BitVec.extractLsb'_eq_self, beq_self_eq_true, if_true, Bool.and_self]; try rfl)
  · rw [encode_addF32]; simp (disch := decide) only [BitVec.extractLsb'_append_eq_of_le, BitVec.extractLsb'_append_eq_of_add_le, Nat.reduceSub, BitVec.extractLsb'_eq_self]

theorem encode_subF32 f : encode (.subF32 f) = 0#2 ++ 0x39#8 ++ f.p ++ f.d ++ f.a ++ f.b ++ 0#1 := rfl

theorem subF32 f : Statement (.subF32 f) := by
  refine ⟨nofun, fun _ ok => ⟨?_, ?_⟩⟩
  · rw [decodeX_39, encode_subF32]
    all_goals (simp (disch := decide) only [encode_subF32, BitVec.extractLsb'_append_eq_of_le, BitVec.extractLsb'_append_eq_of_add_le, Nat.reduceSub, BitVec.extractLsb'_eq_self, beq_self_eq_true, if_true, Bool.and_self]; try rfl)
  · rw [encode_subF32]; simp (disch := decide) only [BitVec.extractLsb'_append_eq_of_le, BitVec.extractLsb'_append_eq_of_add_le, Nat.reduceSub, BitVec.extractLsb'_eq_self]

theorem encode_mulF32 f : encode (.mulF32 f) = 0#2 ++ 0x3a#8 ++ f.p ++ f.d ++ f.a ++ f.b ++ 0#1 := rfl

theorem mulF32 f : Statement (.mulF32 f) := by
  refine ⟨nofun, fun _ ok => ⟨?_, ?_⟩⟩
  · rw [decodeX_3a, encode_mulF32]
    all_goals (simp (disch := decide) only [encode_mulF32, BitVec.extractLsb'_append_eq_of_le, BitVec.extractLsb'_append_eq_of_add_le, Nat.reduceSub, BitVec.extractLsb'_eq_self, beq_self_eq_true, if_true, Bool.and_self]; try rfl)
  · rw [encode_mulF32]; simp (disch := decide) only [BitVec.extractLsb'_append_eq_of_le, BitVec.extractLsb'_append_eq_of_add_le, Nat.reduceSub, BitVec.extractLsb'_eq_self]

theorem encode_fmaF32 f : encode (.fmaF32 f) = 0#2 ++ 0x3b#8 ++ f.p ++ f.d ++ f.a ++ f.b ++ 0#1 := rfl

theorem fmaF32 f : Statement (.fmaF32 f) := by
  refine ⟨nofun, fun _ ok => ⟨?_, ?_⟩⟩
  · rw [decodeX_3b, encode_fmaF32]
    all_goals (simp (disch := decide) only [encode_fmaF32, BitVec.extractLsb'_append_eq_of_le, BitVec.extractLsb'_append_eq_of_add_le, Nat.reduceSub, BitVec.extractLsb'_eq_self, beq_self_eq_true, if_true, Bool.and_self]; try rfl)
  · rw [encode_fmaF32]; simp (disch := decide) only [BitVec.extractLsb'_append_eq_of_le, BitVec.extractLsb'_append_eq_of_add_le, Nat.reduceSub, BitVec.extractLsb'_eq_self]

theorem encode_fmsF32 f : encode (.fmsF32 f) = 0#2 ++ 0x3c#8 ++ f.p ++ f.d ++ f.a ++ f.b ++ 0#1 := rfl

theorem fmsF32 f : Statement (.fmsF32 f) := by
  refine ⟨nofun, fun _ ok => ⟨?_, ?_⟩⟩
  · rw [decodeX_3c, encode_fmsF32]
    all_goals (simp (disch := decide) only [encode_fmsF32, BitVec.extractLsb'_append_eq_of_le, BitVec.extractLsb'_append_eq_of_add_le, Nat.reduceSub, BitVec.extractLsb'_eq_self, beq_self_eq_true, if_true, Bool.and_self]; try rfl)
  · rw [encode_fmsF32]; simp (disch := decide) only [BitVec.extractLsb'_append_eq_of_le, BitVec.extractLsb'_append_eq_of_add_le, Nat.reduceSub, BitVec.extractLsb'_eq_self]

theorem encode_fnmaF32 f : encode (.fnmaF32 f) = 0#2 ++ 0x3d#8 ++ f.p ++ f.d ++ f.a ++ f.b ++ 0#1 := rfl

theorem fnmaF32 f : Statement (.fnmaF32 f) := by
  refine ⟨nofun, fun _ ok => ⟨?_, ?_⟩⟩
  · rw [decodeX_3d, encode_fnmaF32]
    all_goals (simp (disch := decide) only [encode_fnmaF32, BitVec.extractLsb'_append_eq_of_le, BitVec.extractLsb'_append_eq_of_add_le, Nat.reduceSub, BitVec.extractLsb'_eq_self, beq_self_eq_true, if_true, Bool.and_self]; try rfl)
  · rw [encode_fnmaF32]; simp (disch := decide) only [BitVec.extractLsb'_append_eq_of_le, BitVec.extractLsb'_append_eq_of_add_le, Nat.reduceSub, BitVec.extractLsb'_eq_self]

theorem encode_fnmsF32 f : encode (.fnmsF32 f) = 0#2 ++ 0x3e#8 ++ f.p ++ f.d ++ f.a ++ f.b ++ 0#1 := rfl

theorem fnmsF32 f : Statement (.fnmsF32 f) := by
  refine ⟨nofun, fun _ ok => ⟨?_, ?_⟩⟩
  · rw [decodeX_3e, encode_fnmsF32]
    all_goals (simp (disch := decide) only [encode_fnmsF32, BitVec.extractLsb'_append_eq_of_le, BitVec.extractLsb'_append_eq_of_add_le, Nat.reduceSub, BitVec.extractLsb'_eq_self, beq_self_eq_true, if_true, Bool.and_self]; try rfl)
  · rw [encode_fnmsF32]; simp (disch := decide) only [BitVec.extractLsb'_append_eq_of_le, BitVec.extractLsb'_append_eq_of_add_le, Nat.reduceSub, BitVec.extractLsb'_eq_self]

theorem encode_minF32 f : encode (.minF32 f) = 0#2 ++ 0x3f#8 ++ f.p ++ f.d ++ f.a ++ f.b ++ 0#1 := rfl

theorem minF32 f : Statement (.minF32 f) := by
  refine ⟨nofun, fun _ ok => ⟨?_, ?_⟩⟩
  · rw [decodeX_3f, encode_minF32]
    all_goals (simp (disch := decide) only [encode_minF32, BitVec.extractLsb'_append_eq_of_le, BitVec.extractLsb'_append_eq_of_add_le, Nat.reduceSub, BitVec.extractLsb'_eq_self, beq_self_eq_true, if_true, Bool.and_self]; try rfl)
  · rw [encode_minF32]; simp (disch := decide) only [BitVec.extractLsb'_append_eq_of_le, BitVec.extractLsb'_append_eq_of_add_le, Nat.reduceSub, BitVec.extractLsb'_eq_self]

theorem encode_maxF32 f : encode (.maxF32 f) = 0#2 ++ 0x40#8 ++ f.p ++ f.d ++ f.a ++ f.b ++ 0#1 := rfl

theorem maxF32 f : Statement (.maxF32 f) := by
  refine ⟨nofun, fun _ ok => ⟨?_, ?_⟩⟩
  · rw [decodeX_40, encode_maxF32]
    all_goals (simp (disch := decide) only [encode_maxF32, BitVec.extractLsb'_append_eq_of_le, BitVec.extractLsb'_append_eq_of_add_le, Nat.reduceSub, BitVec.extractLsb'_eq_self, beq_self_eq_true, if_true, Bool.and_self]; try rfl)
  · rw [encode_maxF32]; simp (disch := decide) only [BitVec.extractLsb'_append_eq_of_le, BitVec.extractLsb'_append_eq_of_add_le, Nat.reduceSub, BitVec.extractLsb'_eq_self]

theorem encode_absF32 f : encode (.absF32 f) = 0#2 ++ 0x41#8 ++ f.p ++ f.d ++ f.a ++ 0#7 := rfl

theorem absF32 f : Statement (.absF32 f) := by
  refine ⟨nofun, fun _ ok => ⟨?_, ?_⟩⟩
  · rw [decodeX_41, encode_absF32]
    all_goals (simp (disch := decide) only [encode_absF32, BitVec.extractLsb'_append_eq_of_le, BitVec.extractLsb'_append_eq_of_add_le, Nat.reduceSub, BitVec.extractLsb'_eq_self, beq_self_eq_true, if_true, Bool.and_self]; try rfl)
  · rw [encode_absF32]; simp (disch := decide) only [BitVec.extractLsb'_append_eq_of_le, BitVec.extractLsb'_append_eq_of_add_le, Nat.reduceSub, BitVec.extractLsb'_eq_self]

theorem encode_negF32 f : encode (.negF32 f) = 0#2 ++ 0x42#8 ++ f.p ++ f.d ++ f.a ++ 0#7 := rfl

theorem negF32 f : Statement (.negF32 f) := by
  refine ⟨nofun, fun _ ok => ⟨?_, ?_⟩⟩
  · rw [decodeX_42, encode_negF32]
    all_goals (simp (disch := decide) only [encode_negF32, BitVec.extractLsb'_append_eq_of_le, BitVec.extractLsb'_append_eq_of_add_le, Nat.reduceSub, BitVec.extractLsb'_eq_self, beq_self_eq_true, if_true, Bool.and_self]; try rfl)
  · rw [encode_negF32]; simp (disch := decide) only [BitVec.extractLsb'_append_eq_of_le, BitVec.extractLsb'_append_eq_of_add_le, Nat.reduceSub, BitVec.extractLsb'_eq_self]

theorem encode_rcpF32 f : encode (.rcpF32 f) = 0#2 ++ 0x43#8 ++ f.p ++ f.d ++ f.a ++ 0#7 := rfl

theorem rcpF32 f : Statement (.rcpF32 f) := by
  refine ⟨nofun, fun _ ok => ⟨?_, ?_⟩⟩
  · rw [decodeX_43, encode_rcpF32]
    all_goals (simp (disch := decide) only [encode_rcpF32, BitVec.extractLsb'_append_eq_of_le, BitVec.extractLsb'_append_eq_of_add_le, Nat.reduceSub, BitVec.extractLsb'_eq_self, beq_self_eq_true, if_true, Bool.and_self]; try rfl)
  · rw [encode_rcpF32]; simp (disch := decide) only [BitVec.extractLsb'_append_eq_of_le, BitVec.extractLsb'_append_eq_of_add_le, Nat.reduceSub, BitVec.extractLsb'_eq_self]

theorem encode_sqrtF32 f : encode (.sqrtF32 f) = 0#2 ++ 0x44#8 ++ f.p ++ f.d ++ f.a ++ 0#7 := rfl

theorem sqrtF32 f : Statement (.sqrtF32 f) := by
  refine ⟨nofun, fun _ ok => ⟨?_, ?_⟩⟩
  · rw [decodeX_44, encode_sqrtF32]
    all_goals (simp (disch := decide) only [encode_sqrtF32, BitVec.extractLsb'_append_eq_of_le, BitVec.extractLsb'_append_eq_of_add_le, Nat.reduceSub, BitVec.extractLsb'_eq_self, beq_self_eq_true, if_true, Bool.and_self]; try rfl)
  · rw [encode_sqrtF32]; simp (disch := decide) only [BitVec.extractLsb'_append_eq_of_le, BitVec.extractLsb'_append_eq_of_add_le, Nat.reduceSub, BitVec.extractLsb'_eq_self]

theorem encode_rsqF32 f : encode (.rsqF32 f) = 0#2 ++ 0x45#8 ++ f.p ++ f.d ++ f.a ++ 0#7 := rfl

theorem rsqF32 f : Statement (.rsqF32 f) := by
  refine ⟨nofun, fun _ ok => ⟨?_, ?_⟩⟩
  · rw [decodeX_45, encode_rsqF32]
    all_goals (simp (disch := decide) only [encode_rsqF32, BitVec.extractLsb'_append_eq_of_le, BitVec.extractLsb'_append_eq_of_add_le, Nat.reduceSub, BitVec.extractLsb'_eq_self, beq_self_eq_true, if_true, Bool.and_self]; try rfl)
  · rw [encode_rsqF32]; simp (disch := decide) only [BitVec.extractLsb'_append_eq_of_le, BitVec.extractLsb'_append_eq_of_add_le, Nat.reduceSub, BitVec.extractLsb'_eq_self]

theorem encode_ex2F32 f : encode (.ex2F32 f) = 0#2 ++ 0x46#8 ++ f.p ++ f.d ++ f.a ++ 0#7 := rfl

theorem ex2F32 f : Statement (.ex2F32 f) := by
  refine ⟨nofun, fun _ ok => ⟨?_, ?_⟩⟩
  · rw [decodeX_46, encode_ex2F32]
    all_goals (simp (disch := decide) only [encode_ex2F32, BitVec.extractLsb'_append_eq_of_le, BitVec.extractLsb'_append_eq_of_add_le, Nat.reduceSub, BitVec.extractLsb'_eq_self, beq_self_eq_true, if_true, Bool.and_self]; try rfl)
  · rw [encode_ex2F32]; simp (disch := decide) only [BitVec.extractLsb'_append_eq_of_le, BitVec.extractLsb'_append_eq_of_add_le, Nat.reduceSub, BitVec.extractLsb'_eq_self]

theorem encode_lg2F32 f : encode (.lg2F32 f) = 0#2 ++ 0x47#8 ++ f.p ++ f.d ++ f.a ++ 0#7 := rfl

theorem lg2F32 f : Statement (.lg2F32 f) := by
  refine ⟨nofun, fun _ ok => ⟨?_, ?_⟩⟩
  · rw [decodeX_47, encode_lg2F32]
    all_goals (simp (disch := decide) only [encode_lg2F32, BitVec.extractLsb'_append_eq_of_le, BitVec.extractLsb'_append_eq_of_add_le, Nat.reduceSub, BitVec.extractLsb'_eq_self, beq_self_eq_true, if_true, Bool.and_self]; try rfl)
  · rw [encode_lg2F32]; simp (disch := decide) only [BitVec.extractLsb'_append_eq_of_le, BitVec.extractLsb'_append_eq_of_add_le, Nat.reduceSub, BitVec.extractLsb'_eq_self]

theorem encode_tanhF32 f : encode (.tanhF32 f) = 0#2 ++ 0x48#8 ++ f.p ++ f.d ++ f.a ++ 0#7 := rfl

theorem tanhF32 f : Statement (.tanhF32 f) := by
  refine ⟨nofun, fun _ ok => ⟨?_, ?_⟩⟩
  · rw [decodeX_48, encode_tanhF32]
    all_goals (simp (disch := decide) only [encode_tanhF32, BitVec.extractLsb'_append_eq_of_le, BitVec.extractLsb'_append_eq_of_add_le, Nat.reduceSub, BitVec.extractLsb'_eq_self, beq_self_eq_true, if_true, Bool.and_self]; try rfl)
  · rw [encode_tanhF32]; simp (disch := decide) only [BitVec.extractLsb'_append_eq_of_le, BitVec.extractLsb'_append_eq_of_add_le, Nat.reduceSub, BitVec.extractLsb'_eq_self]

theorem encode_cvt f : encode (.cvt f) = 0#2 ++ 5#4 ++ f.t ++ f.p ++ f.d ++ f.a ++ f.r ++ f.s := rfl

theorem cvt f : Statement (.cvt f) := by
  refine ⟨nofun, fun _ ok => ⟨?_, ?_⟩⟩
  · rw [decodeX_cvt, encode_cvt]
    all_goals simp (disch := decide) only [encode_cvt, BitVec.extractLsb'_append_eq_of_le, BitVec.extractLsb'_append_eq_of_add_le, Nat.reduceSub, BitVec.extractLsb'_eq_self]
    intro hc
    simp [staticOk, cvtOk, hc] at ok
  · rw [encode_cvt]; simp (disch := decide) only [BitVec.extractLsb'_append_eq_of_le, BitVec.extractLsb'_append_eq_of_add_le, Nat.reduceSub, BitVec.extractLsb'_eq_self]

theorem encode_vaddF32 f : encode (.vaddF32 f) = 0#2 ++ 0x60#8 ++ f.p ++ f.d ++ f.a ++ f.b ++ 0#1 := rfl

theorem vaddF32 f : Statement (.vaddF32 f) := by
  refine ⟨nofun, fun _ ok => ⟨?_, ?_⟩⟩
  · rw [decodeX_60, encode_vaddF32]
    all_goals (simp (disch := decide) only [encode_vaddF32, BitVec.extractLsb'_append_eq_of_le, BitVec.extractLsb'_append_eq_of_add_le, Nat.reduceSub, BitVec.extractLsb'_eq_self, beq_self_eq_true, if_true, Bool.and_self]; try rfl)
  · rw [encode_vaddF32]; simp (disch := decide) only [BitVec.extractLsb'_append_eq_of_le, BitVec.extractLsb'_append_eq_of_add_le, Nat.reduceSub, BitVec.extractLsb'_eq_self]

theorem encode_vsubF32 f : encode (.vsubF32 f) = 0#2 ++ 0x61#8 ++ f.p ++ f.d ++ f.a ++ f.b ++ 0#1 := rfl

theorem vsubF32 f : Statement (.vsubF32 f) := by
  refine ⟨nofun, fun _ ok => ⟨?_, ?_⟩⟩
  · rw [decodeX_61, encode_vsubF32]
    all_goals (simp (disch := decide) only [encode_vsubF32, BitVec.extractLsb'_append_eq_of_le, BitVec.extractLsb'_append_eq_of_add_le, Nat.reduceSub, BitVec.extractLsb'_eq_self, beq_self_eq_true, if_true, Bool.and_self]; try rfl)
  · rw [encode_vsubF32]; simp (disch := decide) only [BitVec.extractLsb'_append_eq_of_le, BitVec.extractLsb'_append_eq_of_add_le, Nat.reduceSub, BitVec.extractLsb'_eq_self]

theorem encode_vmulF32 f : encode (.vmulF32 f) = 0#2 ++ 0x62#8 ++ f.p ++ f.d ++ f.a ++ f.b ++ 0#1 := rfl

theorem vmulF32 f : Statement (.vmulF32 f) := by
  refine ⟨nofun, fun _ ok => ⟨?_, ?_⟩⟩
  · rw [decodeX_62, encode_vmulF32]
    all_goals (simp (disch := decide) only [encode_vmulF32, BitVec.extractLsb'_append_eq_of_le, BitVec.extractLsb'_append_eq_of_add_le, Nat.reduceSub, BitVec.extractLsb'_eq_self, beq_self_eq_true, if_true, Bool.and_self]; try rfl)
  · rw [encode_vmulF32]; simp (disch := decide) only [BitVec.extractLsb'_append_eq_of_le, BitVec.extractLsb'_append_eq_of_add_le, Nat.reduceSub, BitVec.extractLsb'_eq_self]

theorem encode_vfmaF32 f : encode (.vfmaF32 f) = 0#2 ++ 0x63#8 ++ f.p ++ f.d ++ f.a ++ f.b ++ 0#1 := rfl

theorem vfmaF32 f : Statement (.vfmaF32 f) := by
  refine ⟨nofun, fun _ ok => ⟨?_, ?_⟩⟩
  · rw [decodeX_63, encode_vfmaF32]
    all_goals (simp (disch := decide) only [encode_vfmaF32, BitVec.extractLsb'_append_eq_of_le, BitVec.extractLsb'_append_eq_of_add_le, Nat.reduceSub, BitVec.extractLsb'_eq_self, beq_self_eq_true, if_true, Bool.and_self]; try rfl)
  · rw [encode_vfmaF32]; simp (disch := decide) only [BitVec.extractLsb'_append_eq_of_le, BitVec.extractLsb'_append_eq_of_add_le, Nat.reduceSub, BitVec.extractLsb'_eq_self]

theorem encode_vminF32 f : encode (.vminF32 f) = 0#2 ++ 0x64#8 ++ f.p ++ f.d ++ f.a ++ f.b ++ 0#1 := rfl

theorem vminF32 f : Statement (.vminF32 f) := by
  refine ⟨nofun, fun _ ok => ⟨?_, ?_⟩⟩
  · rw [decodeX_64, encode_vminF32]
    all_goals (simp (disch := decide) only [encode_vminF32, BitVec.extractLsb'_append_eq_of_le, BitVec.extractLsb'_append_eq_of_add_le, Nat.reduceSub, BitVec.extractLsb'_eq_self, beq_self_eq_true, if_true, Bool.and_self]; try rfl)
  · rw [encode_vminF32]; simp (disch := decide) only [BitVec.extractLsb'_append_eq_of_le, BitVec.extractLsb'_append_eq_of_add_le, Nat.reduceSub, BitVec.extractLsb'_eq_self]

theorem encode_vmaxF32 f : encode (.vmaxF32 f) = 0#2 ++ 0x65#8 ++ f.p ++ f.d ++ f.a ++ f.b ++ 0#1 := rfl

theorem vmaxF32 f : Statement (.vmaxF32 f) := by
  refine ⟨nofun, fun _ ok => ⟨?_, ?_⟩⟩
  · rw [decodeX_65, encode_vmaxF32]
    all_goals (simp (disch := decide) only [encode_vmaxF32, BitVec.extractLsb'_append_eq_of_le, BitVec.extractLsb'_append_eq_of_add_le, Nat.reduceSub, BitVec.extractLsb'_eq_self, beq_self_eq_true, if_true, Bool.and_self]; try rfl)
  · rw [encode_vmaxF32]; simp (disch := decide) only [BitVec.extractLsb'_append_eq_of_le, BitVec.extractLsb'_append_eq_of_add_le, Nat.reduceSub, BitVec.extractLsb'_eq_self]

theorem encode_vaddI32 f : encode (.vaddI32 f) = 0#2 ++ 0x66#8 ++ f.p ++ f.d ++ f.a ++ f.b ++ 0#1 := rfl

theorem vaddI32 f : Statement (.vaddI32 f) := by
  refine ⟨nofun, fun _ ok => ⟨?_, ?_⟩⟩
  · rw [decodeX_66, encode_vaddI32]
    all_goals (simp (disch := decide) only [encode_vaddI32, BitVec.extractLsb'_append_eq_of_le, BitVec.extractLsb'_append_eq_of_add_le, Nat.reduceSub, BitVec.extractLsb'_eq_self, beq_self_eq_true, if_true, Bool.and_self]; try rfl)
  · rw [encode_vaddI32]; simp (disch := decide) only [BitVec.extractLsb'_append_eq_of_le, BitVec.extractLsb'_append_eq_of_add_le, Nat.reduceSub, BitVec.extractLsb'_eq_self]

theorem encode_vsubI32 f : encode (.vsubI32 f) = 0#2 ++ 0x67#8 ++ f.p ++ f.d ++ f.a ++ f.b ++ 0#1 := rfl

theorem vsubI32 f : Statement (.vsubI32 f) := by
  refine ⟨nofun, fun _ ok => ⟨?_, ?_⟩⟩
  · rw [decodeX_67, encode_vsubI32]
    all_goals (simp (disch := decide) only [encode_vsubI32, BitVec.extractLsb'_append_eq_of_le, BitVec.extractLsb'_append_eq_of_add_le, Nat.reduceSub, BitVec.extractLsb'_eq_self, beq_self_eq_true, if_true, Bool.and_self]; try rfl)
  · rw [encode_vsubI32]; simp (disch := decide) only [BitVec.extractLsb'_append_eq_of_le, BitVec.extractLsb'_append_eq_of_add_le, Nat.reduceSub, BitVec.extractLsb'_eq_self]

theorem encode_vmulI32 f : encode (.vmulI32 f) = 0#2 ++ 0x68#8 ++ f.p ++ f.d ++ f.a ++ f.b ++ 0#1 := rfl

theorem vmulI32 f : Statement (.vmulI32 f) := by
  refine ⟨nofun, fun _ ok => ⟨?_, ?_⟩⟩
  · rw [decodeX_68, encode_vmulI32]
    all_goals (simp (disch := decide) only [encode_vmulI32, BitVec.extractLsb'_append_eq_of_le, BitVec.extractLsb'_append_eq_of_add_le, Nat.reduceSub, BitVec.extractLsb'_eq_self, beq_self_eq_true, if_true, Bool.and_self]; try rfl)
  · rw [encode_vmulI32]; simp (disch := decide) only [BitVec.extractLsb'_append_eq_of_le, BitVec.extractLsb'_append_eq_of_add_le, Nat.reduceSub, BitVec.extractLsb'_eq_self]

theorem encode_vand f : encode (.vand f) = 0#2 ++ 0x69#8 ++ f.p ++ f.d ++ f.a ++ f.b ++ 0#1 := rfl

theorem vand f : Statement (.vand f) := by
  refine ⟨nofun, fun _ ok => ⟨?_, ?_⟩⟩
  · rw [decodeX_69, encode_vand]
    all_goals (simp (disch := decide) only [encode_vand, BitVec.extractLsb'_append_eq_of_le, BitVec.extractLsb'_append_eq_of_add_le, Nat.reduceSub, BitVec.extractLsb'_eq_self, beq_self_eq_true, if_true, Bool.and_self]; try rfl)
  · rw [encode_vand]; simp (disch := decide) only [BitVec.extractLsb'_append_eq_of_le, BitVec.extractLsb'_append_eq_of_add_le, Nat.reduceSub, BitVec.extractLsb'_eq_self]

theorem encode_vor f : encode (.vor f) = 0#2 ++ 0x6a#8 ++ f.p ++ f.d ++ f.a ++ f.b ++ 0#1 := rfl

theorem vor f : Statement (.vor f) := by
  refine ⟨nofun, fun _ ok => ⟨?_, ?_⟩⟩
  · rw [decodeX_6a, encode_vor]
    all_goals (simp (disch := decide) only [encode_vor, BitVec.extractLsb'_append_eq_of_le, BitVec.extractLsb'_append_eq_of_add_le, Nat.reduceSub, BitVec.extractLsb'_eq_self, beq_self_eq_true, if_true, Bool.and_self]; try rfl)
  · rw [encode_vor]; simp (disch := decide) only [BitVec.extractLsb'_append_eq_of_le, BitVec.extractLsb'_append_eq_of_add_le, Nat.reduceSub, BitVec.extractLsb'_eq_self]

theorem encode_vxor f : encode (.vxor f) = 0#2 ++ 0x6b#8 ++ f.p ++ f.d ++ f.a ++ f.b ++ 0#1 := rfl

theorem vxor f : Statement (.vxor f) := by
  refine ⟨nofun, fun _ ok => ⟨?_, ?_⟩⟩
  · rw [decodeX_6b, encode_vxor]
    all_goals (simp (disch := decide) only [encode_vxor, BitVec.extractLsb'_append_eq_of_le, BitVec.extractLsb'_append_eq_of_add_le, Nat.reduceSub, BitVec.extractLsb'_eq_self, beq_self_eq_true, if_true, Bool.and_self]; try rfl)
  · rw [encode_vxor]; simp (disch := decide) only [BitVec.extractLsb'_append_eq_of_le, BitVec.extractLsb'_append_eq_of_add_le, Nat.reduceSub, BitVec.extractLsb'_eq_self]

theorem encode_vshl f : encode (.vshl f) = 0#2 ++ 0x6c#8 ++ f.p ++ f.d ++ f.a ++ f.b ++ 0#1 := rfl

theorem vshl f : Statement (.vshl f) := by
  refine ⟨nofun, fun _ ok => ⟨?_, ?_⟩⟩
  · rw [decodeX_6c, encode_vshl]
    all_goals (simp (disch := decide) only [encode_vshl, BitVec.extractLsb'_append_eq_of_le, BitVec.extractLsb'_append_eq_of_add_le, Nat.reduceSub, BitVec.extractLsb'_eq_self, beq_self_eq_true, if_true, Bool.and_self]; try rfl)
  · rw [encode_vshl]; simp (disch := decide) only [BitVec.extractLsb'_append_eq_of_le, BitVec.extractLsb'_append_eq_of_add_le, Nat.reduceSub, BitVec.extractLsb'_eq_self]

theorem encode_vshr f : encode (.vshr f) = 0#2 ++ 0x6d#8 ++ f.p ++ f.d ++ f.a ++ f.b ++ 0#1 := rfl

theorem vshr f : Statement (.vshr f) := by
  refine ⟨nofun, fun _ ok => ⟨?_, ?_⟩⟩
  · rw [decodeX_6d, encode_vshr]
    all_goals (simp (disch := decide) only [encode_vshr, BitVec.extractLsb'_append_eq_of_le, BitVec.extractLsb'_append_eq_of_add_le, Nat.reduceSub, BitVec.extractLsb'_eq_self, beq_self_eq_true, if_true, Bool.and_self]; try rfl)
  · rw [encode_vshr]; simp (disch := decide) only [BitVec.extractLsb'_append_eq_of_le, BitVec.extractLsb'_append_eq_of_add_le, Nat.reduceSub, BitVec.extractLsb'_eq_self]

theorem encode_vsra f : encode (.vsra f) = 0#2 ++ 0x6e#8 ++ f.p ++ f.d ++ f.a ++ f.b ++ 0#1 := rfl

theorem vsra f : Statement (.vsra f) := by
  refine ⟨nofun, fun _ ok => ⟨?_, ?_⟩⟩
  · rw [decodeX_6e, encode_vsra]
    all_goals (simp (disch := decide) only [encode_vsra, BitVec.extractLsb'_append_eq_of_le, BitVec.extractLsb'_append_eq_of_add_le, Nat.reduceSub, BitVec.extractLsb'_eq_self, beq_self_eq_true, if_true, Bool.and_self]; try rfl)
  · rw [encode_vsra]; simp (disch := decide) only [BitVec.extractLsb'_append_eq_of_le, BitVec.extractLsb'_append_eq_of_add_le, Nat.reduceSub, BitVec.extractLsb'_eq_self]

theorem encode_vperm f : encode (.vperm f) = 0#2 ++ 0x6f#8 ++ f.p ++ f.d ++ f.a ++ f.b ++ 0#1 := rfl

theorem vperm f : Statement (.vperm f) := by
  refine ⟨nofun, fun _ ok => ⟨?_, ?_⟩⟩
  · rw [decodeX_6f, encode_vperm]
    all_goals (simp (disch := decide) only [encode_vperm, BitVec.extractLsb'_append_eq_of_le, BitVec.extractLsb'_append_eq_of_add_le, Nat.reduceSub, BitVec.extractLsb'_eq_self, beq_self_eq_true, if_true, Bool.and_self]; try rfl)
  · rw [encode_vperm]; simp (disch := decide) only [BitVec.extractLsb'_append_eq_of_le, BitVec.extractLsb'_append_eq_of_add_le, Nat.reduceSub, BitVec.extractLsb'_eq_self]

theorem encode_vbcast f : encode (.vbcast f) = 0#2 ++ 0x70#8 ++ f.p ++ f.d ++ f.a ++ 0#7 := rfl

theorem vbcast f : Statement (.vbcast f) := by
  refine ⟨nofun, fun _ ok => ⟨?_, ?_⟩⟩
  · rw [decodeX_70, encode_vbcast]
    all_goals (simp (disch := decide) only [encode_vbcast, BitVec.extractLsb'_append_eq_of_le, BitVec.extractLsb'_append_eq_of_add_le, Nat.reduceSub, BitVec.extractLsb'_eq_self, beq_self_eq_true, if_true, Bool.and_self]; try rfl)
  · rw [encode_vbcast]; simp (disch := decide) only [BitVec.extractLsb'_append_eq_of_le, BitVec.extractLsb'_append_eq_of_add_le, Nat.reduceSub, BitVec.extractLsb'_eq_self]

theorem encode_vext f : encode (.vext f) = 0#2 ++ 0x71#8 ++ f.p ++ 63#6 ++ f.a ++ f.b ++ 0#1 := rfl

theorem vext f : Statement (.vext f) := by
  refine ⟨nofun, fun _ ok => ⟨?_, ?_⟩⟩
  · rw [decodeX_71, encode_vext]
    all_goals (simp (disch := decide) only [encode_vext, BitVec.extractLsb'_append_eq_of_le, BitVec.extractLsb'_append_eq_of_add_le, Nat.reduceSub, BitVec.extractLsb'_eq_self, beq_self_eq_true, if_true, Bool.and_self]; try rfl)
  · rw [encode_vext]; simp (disch := decide) only [BitVec.extractLsb'_append_eq_of_le, BitVec.extractLsb'_append_eq_of_add_le, Nat.reduceSub, BitVec.extractLsb'_eq_self]

theorem encode_vins f : encode (.vins f) = 0#2 ++ 0x72#8 ++ f.p ++ f.d ++ f.a ++ f.b ++ 0#1 := rfl

theorem vins f : Statement (.vins f) := by
  refine ⟨nofun, fun _ ok => ⟨?_, ?_⟩⟩
  · rw [decodeX_72, encode_vins]
    all_goals (simp (disch := decide) only [encode_vins, BitVec.extractLsb'_append_eq_of_le, BitVec.extractLsb'_append_eq_of_add_le, Nat.reduceSub, BitVec.extractLsb'_eq_self, beq_self_eq_true, if_true, Bool.and_self]; try rfl)
  · rw [encode_vins]; simp (disch := decide) only [BitVec.extractLsb'_append_eq_of_le, BitVec.extractLsb'_append_eq_of_add_le, Nat.reduceSub, BitVec.extractLsb'_eq_self]

theorem encode_vredAddF32 f : encode (.vredAddF32 f) = 0#2 ++ 0x73#8 ++ f.p ++ 63#6 ++ f.a ++ 0#7 := rfl

theorem vredAddF32 f : Statement (.vredAddF32 f) := by
  refine ⟨nofun, fun _ ok => ⟨?_, ?_⟩⟩
  · rw [decodeX_73, encode_vredAddF32]
    all_goals (simp (disch := decide) only [encode_vredAddF32, BitVec.extractLsb'_append_eq_of_le, BitVec.extractLsb'_append_eq_of_add_le, Nat.reduceSub, BitVec.extractLsb'_eq_self, beq_self_eq_true, if_true, Bool.and_self]; try rfl)
  · rw [encode_vredAddF32]; simp (disch := decide) only [BitVec.extractLsb'_append_eq_of_le, BitVec.extractLsb'_append_eq_of_add_le, Nat.reduceSub, BitVec.extractLsb'_eq_self]

theorem encode_vredMaxF32 f : encode (.vredMaxF32 f) = 0#2 ++ 0x74#8 ++ f.p ++ 63#6 ++ f.a ++ 0#7 := rfl

theorem vredMaxF32 f : Statement (.vredMaxF32 f) := by
  refine ⟨nofun, fun _ ok => ⟨?_, ?_⟩⟩
  · rw [decodeX_74, encode_vredMaxF32]
    all_goals (simp (disch := decide) only [encode_vredMaxF32, BitVec.extractLsb'_append_eq_of_le, BitVec.extractLsb'_append_eq_of_add_le, Nat.reduceSub, BitVec.extractLsb'_eq_self, beq_self_eq_true, if_true, Bool.and_self]; try rfl)
  · rw [encode_vredMaxF32]; simp (disch := decide) only [BitVec.extractLsb'_append_eq_of_le, BitVec.extractLsb'_append_eq_of_add_le, Nat.reduceSub, BitVec.extractLsb'_eq_self]

theorem encode_vredAddI32 f : encode (.vredAddI32 f) = 0#2 ++ 0x75#8 ++ f.p ++ 63#6 ++ f.a ++ 0#7 := rfl

theorem vredAddI32 f : Statement (.vredAddI32 f) := by
  refine ⟨nofun, fun _ ok => ⟨?_, ?_⟩⟩
  · rw [decodeX_75, encode_vredAddI32]
    all_goals (simp (disch := decide) only [encode_vredAddI32, BitVec.extractLsb'_append_eq_of_le, BitVec.extractLsb'_append_eq_of_add_le, Nat.reduceSub, BitVec.extractLsb'_eq_self, beq_self_eq_true, if_true, Bool.and_self]; try rfl)
  · rw [encode_vredAddI32]; simp (disch := decide) only [BitVec.extractLsb'_append_eq_of_le, BitVec.extractLsb'_append_eq_of_add_le, Nat.reduceSub, BitVec.extractLsb'_eq_self]

theorem encode_vredqF32 f : encode (.vredqF32 f) = 0#2 ++ 0x76#8 ++ f.p ++ 63#6 ++ f.a ++ f.b ++ f.m := rfl

theorem vredqF32 f : Statement (.vredqF32 f) := by
  refine ⟨nofun, fun _ ok => ⟨?_, ?_⟩⟩
  · rw [decodeX_76, encode_vredqF32]
    all_goals (simp (disch := decide) only [encode_vredqF32, BitVec.extractLsb'_append_eq_of_le, BitVec.extractLsb'_append_eq_of_add_le, Nat.reduceSub, BitVec.extractLsb'_eq_self, beq_self_eq_true, if_true, Bool.and_self]; try rfl)
  · rw [encode_vredqF32]; simp (disch := decide) only [BitVec.extractLsb'_append_eq_of_le, BitVec.extractLsb'_append_eq_of_add_le, Nat.reduceSub, BitVec.extractLsb'_eq_self]

theorem encode_vcvt f : encode (.vcvt f) = 0#2 ++ 0x77#8 ++ f.p ++ f.d ++ f.a ++ f.r ++ f.s := rfl

theorem vcvt f : Statement (.vcvt f) := by
  refine ⟨nofun, fun _ ok => ⟨?_, ?_⟩⟩
  · rw [decodeX_77, encode_vcvt]
    all_goals (simp (disch := decide) only [encode_vcvt, BitVec.extractLsb'_append_eq_of_le, BitVec.extractLsb'_append_eq_of_add_le, Nat.reduceSub, BitVec.extractLsb'_eq_self, beq_self_eq_true, if_true, Bool.and_self]; try rfl)
  · rw [encode_vcvt]; simp (disch := decide) only [BitVec.extractLsb'_append_eq_of_le, BitVec.extractLsb'_append_eq_of_add_le, Nat.reduceSub, BitVec.extractLsb'_eq_self]

theorem encode_waddF32 f : encode (.waddF32 f) = 0#2 ++ 0x90#8 ++ f.p ++ f.d ++ f.a ++ f.b ++ 0#1 := rfl

theorem waddF32 f : Statement (.waddF32 f) := by
  refine ⟨nofun, fun _ ok => ⟨?_, ?_⟩⟩
  · rw [decodeX_90, encode_waddF32]
    all_goals (simp (disch := decide) only [encode_waddF32, BitVec.extractLsb'_append_eq_of_le, BitVec.extractLsb'_append_eq_of_add_le, Nat.reduceSub, BitVec.extractLsb'_eq_self, beq_self_eq_true, if_true, Bool.and_self]; try rfl)
  · rw [encode_waddF32]; simp (disch := decide) only [BitVec.extractLsb'_append_eq_of_le, BitVec.extractLsb'_append_eq_of_add_le, Nat.reduceSub, BitVec.extractLsb'_eq_self]

theorem encode_wsubF32 f : encode (.wsubF32 f) = 0#2 ++ 0x91#8 ++ f.p ++ f.d ++ f.a ++ f.b ++ 0#1 := rfl

theorem wsubF32 f : Statement (.wsubF32 f) := by
  refine ⟨nofun, fun _ ok => ⟨?_, ?_⟩⟩
  · rw [decodeX_91, encode_wsubF32]
    all_goals (simp (disch := decide) only [encode_wsubF32, BitVec.extractLsb'_append_eq_of_le, BitVec.extractLsb'_append_eq_of_add_le, Nat.reduceSub, BitVec.extractLsb'_eq_self, beq_self_eq_true, if_true, Bool.and_self]; try rfl)
  · rw [encode_wsubF32]; simp (disch := decide) only [BitVec.extractLsb'_append_eq_of_le, BitVec.extractLsb'_append_eq_of_add_le, Nat.reduceSub, BitVec.extractLsb'_eq_self]

theorem encode_wmulF32 f : encode (.wmulF32 f) = 0#2 ++ 0x92#8 ++ f.p ++ f.d ++ f.a ++ f.b ++ 0#1 := rfl

theorem wmulF32 f : Statement (.wmulF32 f) := by
  refine ⟨nofun, fun _ ok => ⟨?_, ?_⟩⟩
  · rw [decodeX_92, encode_wmulF32]
    all_goals (simp (disch := decide) only [encode_wmulF32, BitVec.extractLsb'_append_eq_of_le, BitVec.extractLsb'_append_eq_of_add_le, Nat.reduceSub, BitVec.extractLsb'_eq_self, beq_self_eq_true, if_true, Bool.and_self]; try rfl)
  · rw [encode_wmulF32]; simp (disch := decide) only [BitVec.extractLsb'_append_eq_of_le, BitVec.extractLsb'_append_eq_of_add_le, Nat.reduceSub, BitVec.extractLsb'_eq_self]

theorem encode_wfmaF32 f : encode (.wfmaF32 f) = 0#2 ++ 0x93#8 ++ f.p ++ f.d ++ f.a ++ f.b ++ 0#1 := rfl

theorem wfmaF32 f : Statement (.wfmaF32 f) := by
  refine ⟨nofun, fun _ ok => ⟨?_, ?_⟩⟩
  · rw [decodeX_93, encode_wfmaF32]
    all_goals (simp (disch := decide) only [encode_wfmaF32, BitVec.extractLsb'_append_eq_of_le, BitVec.extractLsb'_append_eq_of_add_le, Nat.reduceSub, BitVec.extractLsb'_eq_self, beq_self_eq_true, if_true, Bool.and_self]; try rfl)
  · rw [encode_wfmaF32]; simp (disch := decide) only [BitVec.extractLsb'_append_eq_of_le, BitVec.extractLsb'_append_eq_of_add_le, Nat.reduceSub, BitVec.extractLsb'_eq_self]

theorem encode_wminF32 f : encode (.wminF32 f) = 0#2 ++ 0x94#8 ++ f.p ++ f.d ++ f.a ++ f.b ++ 0#1 := rfl

theorem wminF32 f : Statement (.wminF32 f) := by
  refine ⟨nofun, fun _ ok => ⟨?_, ?_⟩⟩
  · rw [decodeX_94, encode_wminF32]
    all_goals (simp (disch := decide) only [encode_wminF32, BitVec.extractLsb'_append_eq_of_le, BitVec.extractLsb'_append_eq_of_add_le, Nat.reduceSub, BitVec.extractLsb'_eq_self, beq_self_eq_true, if_true, Bool.and_self]; try rfl)
  · rw [encode_wminF32]; simp (disch := decide) only [BitVec.extractLsb'_append_eq_of_le, BitVec.extractLsb'_append_eq_of_add_le, Nat.reduceSub, BitVec.extractLsb'_eq_self]

theorem encode_wmaxF32 f : encode (.wmaxF32 f) = 0#2 ++ 0x95#8 ++ f.p ++ f.d ++ f.a ++ f.b ++ 0#1 := rfl

theorem wmaxF32 f : Statement (.wmaxF32 f) := by
  refine ⟨nofun, fun _ ok => ⟨?_, ?_⟩⟩
  · rw [decodeX_95, encode_wmaxF32]
    all_goals (simp (disch := decide) only [encode_wmaxF32, BitVec.extractLsb'_append_eq_of_le, BitVec.extractLsb'_append_eq_of_add_le, Nat.reduceSub, BitVec.extractLsb'_eq_self, beq_self_eq_true, if_true, Bool.and_self]; try rfl)
  · rw [encode_wmaxF32]; simp (disch := decide) only [BitVec.extractLsb'_append_eq_of_le, BitVec.extractLsb'_append_eq_of_add_le, Nat.reduceSub, BitVec.extractLsb'_eq_self]

theorem encode_wbcastF32 f : encode (.wbcastF32 f) = 0#2 ++ 0x96#8 ++ f.p ++ f.d ++ f.a ++ 0#7 := rfl

theorem wbcastF32 f : Statement (.wbcastF32 f) := by
  refine ⟨nofun, fun _ ok => ⟨?_, ?_⟩⟩
  · rw [decodeX_96, encode_wbcastF32]
    all_goals (simp (disch := decide) only [encode_wbcastF32, BitVec.extractLsb'_append_eq_of_le, BitVec.extractLsb'_append_eq_of_add_le, Nat.reduceSub, BitVec.extractLsb'_eq_self, beq_self_eq_true, if_true, Bool.and_self]; try rfl)
  · rw [encode_wbcastF32]; simp (disch := decide) only [BitVec.extractLsb'_append_eq_of_le, BitVec.extractLsb'_append_eq_of_add_le, Nat.reduceSub, BitVec.extractLsb'_eq_self]

theorem encode_wins f : encode (.wins f) = 0#2 ++ 0x97#8 ++ f.p ++ f.d ++ f.a ++ f.b ++ 0#1 := rfl

theorem wins f : Statement (.wins f) := by
  refine ⟨nofun, fun _ ok => ⟨?_, ?_⟩⟩
  · rw [decodeX_97, encode_wins]
    all_goals (simp (disch := decide) only [encode_wins, BitVec.extractLsb'_append_eq_of_le, BitVec.extractLsb'_append_eq_of_add_le, Nat.reduceSub, BitVec.extractLsb'_eq_self, beq_self_eq_true, if_true, Bool.and_self]; try rfl)
  · rw [encode_wins]; simp (disch := decide) only [BitVec.extractLsb'_append_eq_of_le, BitVec.extractLsb'_append_eq_of_add_le, Nat.reduceSub, BitVec.extractLsb'_eq_self]

theorem encode_wext f : encode (.wext f) = 0#2 ++ 0x98#8 ++ f.p ++ f.d ++ f.a ++ f.b ++ 0#1 := rfl

theorem wext f : Statement (.wext f) := by
  refine ⟨nofun, fun _ ok => ⟨?_, ?_⟩⟩
  · rw [decodeX_98, encode_wext]
    all_goals (simp (disch := decide) only [encode_wext, BitVec.extractLsb'_append_eq_of_le, BitVec.extractLsb'_append_eq_of_add_le, Nat.reduceSub, BitVec.extractLsb'_eq_self, beq_self_eq_true, if_true, Bool.and_self]; try rfl)
  · rw [encode_wext]; simp (disch := decide) only [BitVec.extractLsb'_append_eq_of_le, BitVec.extractLsb'_append_eq_of_add_le, Nat.reduceSub, BitVec.extractLsb'_eq_self]

theorem encode_wredAddF32 f : encode (.wredAddF32 f) = 0#2 ++ 0x99#8 ++ f.p ++ f.d ++ f.a ++ 0#7 := rfl

theorem wredAddF32 f : Statement (.wredAddF32 f) := by
  refine ⟨nofun, fun _ ok => ⟨?_, ?_⟩⟩
  · rw [decodeX_99, encode_wredAddF32]
    all_goals (simp (disch := decide) only [encode_wredAddF32, BitVec.extractLsb'_append_eq_of_le, BitVec.extractLsb'_append_eq_of_add_le, Nat.reduceSub, BitVec.extractLsb'_eq_self, beq_self_eq_true, if_true, Bool.and_self]; try rfl)
  · rw [encode_wredAddF32]; simp (disch := decide) only [BitVec.extractLsb'_append_eq_of_le, BitVec.extractLsb'_append_eq_of_add_le, Nat.reduceSub, BitVec.extractLsb'_eq_self]

theorem encode_wredMaxF32 f : encode (.wredMaxF32 f) = 0#2 ++ 0x9a#8 ++ f.p ++ f.d ++ f.a ++ 0#7 := rfl

theorem wredMaxF32 f : Statement (.wredMaxF32 f) := by
  refine ⟨nofun, fun _ ok => ⟨?_, ?_⟩⟩
  · rw [decodeX_9a, encode_wredMaxF32]
    all_goals (simp (disch := decide) only [encode_wredMaxF32, BitVec.extractLsb'_append_eq_of_le, BitVec.extractLsb'_append_eq_of_add_le, Nat.reduceSub, BitVec.extractLsb'_eq_self, beq_self_eq_true, if_true, Bool.and_self]; try rfl)
  · rw [encode_wredMaxF32]; simp (disch := decide) only [BitVec.extractLsb'_append_eq_of_le, BitVec.extractLsb'_append_eq_of_add_le, Nat.reduceSub, BitVec.extractLsb'_eq_self]

theorem fetchLineFill a0 a1 : Statement (.fetchLineFill a0 a1) := ⟨nofun, nofun⟩

theorem accessResponse a0 : Statement (.accessResponse a0) := ⟨nofun, nofun⟩

theorem homeAccess a0 : Statement (.homeAccess a0) := ⟨nofun, nofun⟩

theorem replayQueueFull a0 : Statement (.replayQueueFull a0) := ⟨nofun, nofun⟩

theorem tdefDescriptorArrival a0 a1 : Statement (.tdefDescriptorArrival a0 a1) := ⟨nofun, nofun⟩

theorem matrixCommandComplete a0 : Statement (.matrixCommandComplete a0) := ⟨nofun, nofun⟩

theorem ringwayForwardLanding a0 : Statement (.ringwayForwardLanding a0) := ⟨nofun, nofun⟩

theorem copyComplete a0 a1 : Statement (.copyComplete a0 a1) := ⟨nofun, nofun⟩

theorem streamDataArrival a0 a1 a2 a3 : Statement (.streamDataArrival a0 a1 a2 a3) := ⟨nofun, nofun⟩

theorem endOfStreamToken a0 a1 a2 : Statement (.endOfStreamToken a0 a1 a2) := ⟨nofun, nofun⟩

theorem ksendArrival a0 : Statement (.ksendArrival a0) := ⟨nofun, nofun⟩

theorem collectiveRoundComplete a0 a1 : Statement (.collectiveRoundComplete a0 a1) := ⟨nofun, nofun⟩

theorem quadUnitCommand a0 a1 : Statement (.quadUnitCommand a0 a1) := ⟨nofun, nofun⟩

theorem engineReply a0 : Statement (.engineReply a0) := ⟨nofun, nofun⟩

theorem streamEngineQuery a0 : Statement (.streamEngineQuery a0) := ⟨nofun, nofun⟩

theorem ctrRead a0 : Statement (.ctrRead a0) := ⟨nofun, nofun⟩

theorem ctrClear a0 : Statement (.ctrClear a0) := ⟨nofun, nofun⟩

theorem dropRead a0 : Statement (.dropRead a0) := ⟨nofun, nofun⟩

theorem dropClear a0 : Statement (.dropClear a0) := ⟨nofun, nofun⟩

theorem quadUnitQuery a0 : Statement (.quadUnitQuery a0) := ⟨nofun, nofun⟩

theorem mergeRead a0 : Statement (.mergeRead a0) := ⟨nofun, nofun⟩

theorem probe a0 : Statement (.probe a0) := ⟨nofun, nofun⟩

theorem groupInfo a0 : Statement (.groupInfo a0) := ⟨nofun, nofun⟩

theorem streamInfo a0 : Statement (.streamInfo a0) := ⟨nofun, nofun⟩

theorem engGoUnaccepted a0 : Statement (.engGoUnaccepted a0) := ⟨nofun, nofun⟩

theorem inboxDelivery a0 : Statement (.inboxDelivery a0) := ⟨nofun, nofun⟩

theorem putLanding a0 : Statement (.putLanding a0) := ⟨nofun, nofun⟩

theorem ringValueArrival a0 : Statement (.ringValueArrival a0) := ⟨nofun, nofun⟩

theorem joinWake a0 : Statement (.joinWake a0) := ⟨nofun, nofun⟩

theorem joinReread a0 a1 : Statement (.joinReread a0 a1) := ⟨nofun, nofun⟩

theorem nbarRemoteAccess a0 : Statement (.nbarRemoteAccess a0) := ⟨nofun, nofun⟩

theorem taskSelect a0 : Statement (.taskSelect a0) := ⟨nofun, nofun⟩

theorem stealClaim a0 a1 : Statement (.stealClaim a0 a1) := ⟨nofun, nofun⟩

theorem stealLanding a0 : Statement (.stealLanding a0) := ⟨nofun, nofun⟩

theorem stealRetry a0 : Statement (.stealRetry a0) := ⟨nofun, nofun⟩

theorem frameWrite a0 : Statement (.frameWrite a0) := ⟨nofun, nofun⟩

theorem trapRecordDelivery a0 : Statement (.trapRecordDelivery a0) := ⟨nofun, nofun⟩

theorem resume a0 : Statement (.resume a0) := ⟨nofun, nofun⟩

theorem step a0 : Statement (.step a0) := ⟨nofun, nofun⟩

theorem endTask a0 : Statement (.endTask a0) := ⟨nofun, nofun⟩

theorem endLaunch a0 : Statement (.endLaunch a0) := ⟨nofun, nofun⟩

theorem fppush a0 : Statement (.fppush a0) := ⟨nofun, nofun⟩

theorem fpovf a0 : Statement (.fpovf a0) := ⟨nofun, nofun⟩

theorem mbpop a0 : Statement (.mbpop a0) := ⟨nofun, nofun⟩

theorem preempt a0 : Statement (.preempt a0) := ⟨nofun, nofun⟩

theorem restore a0 : Statement (.restore a0) := ⟨nofun, nofun⟩

theorem panelAccessStatus a0 : Statement (.panelAccessStatus a0) := ⟨nofun, nofun⟩

theorem registerWrite a0 : Statement (.registerWrite a0) := ⟨nofun, nofun⟩

theorem preemptionHalt a0 : Statement (.preemptionHalt a0) := ⟨nofun, nofun⟩

theorem cohortSave a0 : Statement (.cohortSave a0) := ⟨nofun, nofun⟩

theorem cohortRestore a0 : Statement (.cohortRestore a0) := ⟨nofun, nofun⟩

theorem thermalMigration a0 : Statement (.thermalMigration a0) := ⟨nofun, nofun⟩

theorem migrationComplete a0 : Statement (.migrationComplete a0) := ⟨nofun, nofun⟩

theorem sensorSample a0 a1 : Statement (.sensorSample a0 a1) := ⟨nofun, nofun⟩

theorem inputUndervoltage a0 : Statement (.inputUndervoltage a0) := ⟨nofun, nofun⟩

theorem undervoltageReset a0 : Statement (.undervoltageReset a0) := ⟨nofun, nofun⟩

theorem powerSample a0 : Statement (.powerSample a0) := ⟨nofun, nofun⟩

theorem boostClaim a0 : Statement (.boostClaim a0) := ⟨nofun, nofun⟩

theorem boostPermitInterval a0 : Statement (.boostPermitInterval a0) := ⟨nofun, nofun⟩

theorem boostFall a0 : Statement (.boostFall a0) := ⟨nofun, nofun⟩

theorem boostPermitRefill a0 : Statement (.boostPermitRefill a0) := ⟨nofun, nofun⟩

theorem operatingPointChange a0 : Statement (.operatingPointChange a0) := ⟨nofun, nofun⟩

theorem droop a0 a1 a2 : Statement (.droop a0 a1 a2) := ⟨nofun, nofun⟩

theorem tokenCirculation a0 : Statement (.tokenCirculation a0) := ⟨nofun, nofun⟩

theorem burstEnd a0 : Statement (.burstEnd a0) := ⟨nofun, nofun⟩

theorem cardSubmission a0 : Statement (.cardSubmission a0) := ⟨nofun, nofun⟩

theorem plazaSubmission a0 a1 : Statement (.plazaSubmission a0 a1) := ⟨nofun, nofun⟩

theorem submissionStatus a0 : Statement (.submissionStatus a0) := ⟨nofun, nofun⟩

theorem admission a0 a1 : Statement (.admission a0 a1) := ⟨nofun, nofun⟩

theorem cohortDispatch a0 : Statement (.cohortDispatch a0) := ⟨nofun, nofun⟩

theorem ticketSteal a0 a1 : Statement (.ticketSteal a0 a1) := ⟨nofun, nofun⟩

theorem batchChunkClaim a0 : Statement (.batchChunkClaim a0) := ⟨nofun, nofun⟩

theorem cohortRetirement a0 : Statement (.cohortRetirement a0) := ⟨nofun, nofun⟩

theorem ageing a0 : Statement (.ageing a0) := ⟨nofun, nofun⟩

theorem launchCompletion a0 : Statement (.launchCompletion a0) := ⟨nofun, nofun⟩

theorem watchdog a0 : Statement (.watchdog a0) := ⟨nofun, nofun⟩

theorem hostBar4Access a0 : Statement (.hostBar4Access a0) := ⟨nofun, nofun⟩

theorem backInvalidationResponse a0 : Statement (.backInvalidationResponse a0) := ⟨nofun, nofun⟩

theorem flushingReadCompletion a0 : Statement (.flushingReadCompletion a0) := ⟨nofun, nofun⟩

theorem spanLaneLoss a0 a1 : Statement (.spanLaneLoss a0 a1) := ⟨nofun, nofun⟩

theorem spanRetrainComplete a0 : Statement (.spanRetrainComplete a0) := ⟨nofun, nofun⟩

theorem laneShed a0 a1 : Statement (.laneShed a0 a1) := ⟨nofun, nofun⟩

theorem linkReopen a0 : Statement (.linkReopen a0) := ⟨nofun, nofun⟩

theorem powerOn a0 : Statement (.powerOn a0) := ⟨nofun, nofun⟩

theorem healthConfirmation : Statement .healthConfirmation := ⟨nofun, nofun⟩

theorem healthWatchdog : Statement .healthWatchdog := ⟨nofun, nofun⟩

theorem attestationReport a0 : Statement (.attestationReport a0) := ⟨nofun, nofun⟩

theorem pulse a0 a1 : Statement (.pulse a0 a1) := ⟨nofun, nofun⟩

theorem sampleLatch a0 : Statement (.sampleLatch a0) := ⟨nofun, nofun⟩

theorem snapshotRecord a0 : Statement (.snapshotRecord a0) := ⟨nofun, nofun⟩

theorem taggedSampleMark a0 : Statement (.taggedSampleMark a0) := ⟨nofun, nofun⟩

theorem taggedSampleRecord a0 a1 : Statement (.taggedSampleRecord a0 a1) := ⟨nofun, nofun⟩

theorem sessionOpen a0 : Statement (.sessionOpen a0) := ⟨nofun, nofun⟩

theorem sessionClose a0 : Statement (.sessionClose a0) := ⟨nofun, nofun⟩

theorem totalLowRead a0 a1 a2 : Statement (.totalLowRead a0 a1 a2) := ⟨nofun, nofun⟩

theorem totalHighRead a0 a1 a2 : Statement (.totalHighRead a0 a1 a2) := ⟨nofun, nofun⟩

theorem lost a0 : Statement (.lost a0) := ⟨nofun, nofun⟩

theorem lifetimeCommit : Statement .lifetimeCommit := ⟨nofun, nofun⟩

theorem gatewayInvalidation a0 a1 a2 : Statement (.gatewayInvalidation a0 a1 a2) := ⟨nofun, nofun⟩

theorem pageWalk a0 a1 a2 : Statement (.pageWalk a0 a1 a2) := ⟨nofun, nofun⟩

theorem launchAbort a0 : Statement (.launchAbort a0) := ⟨nofun, nofun⟩

theorem msiXUnmask a0 a1 : Statement (.msiXUnmask a0 a1) := ⟨nofun, nofun⟩

theorem inputRecovery a0 : Statement (.inputRecovery a0) := ⟨nofun, nofun⟩

theorem virtualStateSet a0 : Statement (.virtualStateSet a0) := ⟨nofun, nofun⟩

theorem ringSourceEnable a0 a1 : Statement (.ringSourceEnable a0 a1) := ⟨nofun, nofun⟩

theorem firmwareUpdate a0 a1 : Statement (.firmwareUpdate a0 a1) := ⟨nofun, nofun⟩

theorem streamerSendArrival a0 : Statement (.streamerSendArrival a0) := ⟨nofun, nofun⟩

end Sys2Proof.Laws.Encoding
end

