-- ==== Sys2Proof/Tests/Slice0.lean ====
section
/-! SUPPORT. Tests: ill-formed terms are refused, words written out from the encoding tables decode to what they stand for,
single steps answer what the worked examples of the manual give, and every hypothesis of a statement can be met. -/

namespace Sys2Proof.Tests

open Sys2Proof.Machine

set_option exponentiation.threshold 4096
set_option maxRecDepth 20000

/-! ## Ill-formed terms: one for each check of Table 5-10 -/

theorem test_refuses_pref_bits_in_hint : staticOk (.hintA ⟨0#4, 0x001000#22⟩) = false := by decide
theorem test_refuses_empty_loop : staticOk (.loop ⟨0#1, 6#4, 0#8, 0#9⟩) = false := by decide
theorem test_refuses_loop_with_two_counts : staticOk (.loop ⟨0#1, 6#4, 1#8, 3#9⟩) = false := by decide
theorem test_refuses_load_width : staticOk (.ldSp ⟨5#3, 2#4, 3#5, 0#3, 0#7⟩) = false := by decide
theorem test_refuses_load_order : staticOk (.ldPr ⟨2#3, 2#4, 3#5, 7#3, 0#7⟩) = false := by decide
theorem test_refuses_load_destination : staticOk (.ldQl ⟨2#3, 2#4, 18#5, 0#3, 0#7⟩) = false := by decide
theorem test_refuses_wide_load_to_register : staticOk (.ldGl ⟨4#3, 2#4, 3#5, 0#3, 0#7⟩) = false := by decide
theorem test_refuses_store_source : staticOk (.stSp ⟨2#3, 0#3, 2#4, 17#5, 0#3, 0#7⟩) = false := by decide
theorem test_refuses_store_width : staticOk (.stPr ⟨6#3, 0#3, 2#4, 3#5, 0#3, 0#7⟩) = false := by decide
theorem test_refuses_store_order : staticOk (.stQl ⟨2#3, 0#3, 2#4, 3#5, 7#3, 0#7⟩) = false := by decide
theorem test_refuses_wide_store_of_register : staticOk (.stGl ⟨4#3, 0#3, 2#4, 3#5, 0#3, 0#7⟩) = false := by decide
theorem test_refuses_atomic_operation : staticOk (.atomSp ⟨0#3, 2#4, 3#4, 12#4, 0#3, 0#1, 0#2⟩) = false := by decide
theorem test_refuses_atomic_order : staticOk (.atomPr ⟨0#3, 2#4, 3#4, 0#4, 7#3, 0#1, 0#2⟩) = false := by decide
theorem test_refuses_atomic_result : staticOk (.atomGl ⟨0#3, 2#4, 3#4, 0#4, 0#3, 0#1, 3#2⟩) = false := by decide
theorem test_refuses_wide_float_atomic : staticOk (.atomSp ⟨0#3, 2#4, 3#4, 8#4, 0#3, 1#1, 0#2⟩) = false := by decide
theorem test_refuses_cas_order : staticOk (.casSp ⟨0#3, 2#4, 9#4, 8#4, 7#3, 1#1, 2#2⟩) = false := by decide
theorem test_refuses_cas_result : staticOk (.casGl ⟨0#3, 2#4, 9#4, 8#4, 0#3, 1#1, 3#2⟩) = false := by decide
theorem test_refuses_tdef_base : staticOk (.tdef ⟨1#6, 0#6, 0#6⟩) = false := by decide
theorem test_refuses_tdef_space : staticOk (.tdef ⟨1#6, 12#6, 4#6⟩) = false := by decide
theorem test_refuses_accumulator_of_mmz : staticOk (.mmz ⟨0#3, 4#6⟩) = false := by decide
theorem test_refuses_ring_length : staticOk (.mmaR ⟨0#3, 1#6, 5#6, 0#2⟩) = false := by decide
theorem test_refuses_accumulator_of_mld : staticOk (.mld ⟨0#3, 1#6, 4#6⟩) = false := by decide
theorem test_refuses_slab_depth_code : staticOk (.mldBl ⟨0#3, 2#6, 4#6, 6#6⟩) = false := by decide
theorem test_refuses_slab_index_register : staticOk (.mldBl ⟨0#3, 2#6, 2#6, 16#6⟩) = false := by decide
theorem test_refuses_mst_rounding : staticOk (.mst ⟨0#3, 3#6, 0#6, 0#1, 0#2, 7#3⟩) = false := by decide
theorem test_refuses_rectangle_register : staticOk (.cpyM ⟨0#3, 1#6, 2#6, 0#6, 0#1⟩) = false := by decide
theorem test_refuses_follow_on_register : staticOk (.cpyMma ⟨0#3, 1#6, 2#6, 3#6, 0#1⟩) = false := by decide
theorem test_refuses_stream_register : staticOk (.strm ⟨0#3, 1#6, 16#6, 0#1⟩) = false := by decide
theorem test_refuses_unused_chain_field : staticOk (.chain ⟨0#3, 1#6, 2#6, 3#6, 0#1⟩) = false := by decide
theorem test_refuses_key_register : staticOk (.ksend ⟨0#3, 5#6, 0#6, 7#6, 0#1⟩) = false := by decide
theorem test_refuses_bin_size : staticOk (.kbinApp ⟨6#6, 33#6⟩) = false := by decide
theorem test_refuses_group_register : staticOk (.coll ⟨0#3, 1#6, 2#6, 0#6⟩) = false ∧ staticOk (.collRed ⟨0#3, 1#6, 2#6, 16#6⟩) = false := by
  decide
theorem test_refuses_k_register : staticOk (.engK ⟨4#6, 9#6, 0#1⟩) = false := by decide
theorem test_refuses_engine_register : staticOk (.engGo ⟨0#3, 0#6, 0#1⟩) = false := by decide
theorem test_refuses_payload_size : staticOk (.send ⟨0#3, 5#4, 6#4, 30#9⟩) = false ∧ staticOk (.send ⟨0#3, 5#4, 6#4, 260#9⟩) = false := by
  decide
theorem test_refuses_fence_scope : staticOk (.fence ⟨0#3⟩) = false ∧ staticOk (.fence ⟨7#3⟩) = false := by decide
theorem test_refuses_suspending_load_registers : staticOk (.ldvS ⟨5#4, 3#4⟩) = false ∧ staticOk (.ldvS ⟨2#4, 0#4⟩) = false := by decide
theorem test_refuses_control_register : staticOk (.rdcr ⟨5#4, 7#3⟩) = false ∧ staticOk (.wrcr ⟨5#4, 1#3⟩) = false := by decide
theorem test_refuses_opening_slot_zero : staticOk (.gset ⟨0#3, 0#3, 0#3, 0#1⟩) = false := by decide
theorem test_refuses_scalar_source : staticOk (.add ⟨0#3, 5#6, 51#6, 6#6⟩) = false := by decide
theorem test_refuses_scalar_destination : staticOk (.add ⟨0#3, 48#6, 5#6, 6#6⟩) = false := by decide
theorem test_refuses_extension_in_immediate_form : staticOk (.addi ⟨0#3, 5#6, 62#6, 1#7⟩) = false := by decide
theorem test_refuses_compare_condition : staticOk (.cmpI32 ⟨0#3, 2#3, 6#3, 9#6, 49#6⟩) = false ∧
    staticOk (.cmpF32 ⟨0#3, 2#3, 7#3, 9#6, 49#6⟩) = false := by decide
theorem test_refuses_conversion_to_itself : staticOk (.cvt ⟨5#4, 0#3, 3#6, 8#6, 0#3, 5#4⟩) = false := by decide
theorem test_refuses_random_widening : staticOk (.cvt ⟨0#4, 0#3, 3#6, 8#6, 5#3, 5#4⟩) = false := by decide
theorem test_refuses_vector_source : staticOk (.vaddF32 ⟨0#3, 2#6, 16#6, 3#6⟩) = false := by decide
theorem test_refuses_vector_destination : staticOk (.vaddF32 ⟨0#3, 50#6, 2#6, 3#6⟩) = false := by decide
theorem test_refuses_long_register : staticOk (.waddF32 ⟨0#3, 1#6, 8#6, 3#6⟩) = false := by decide
theorem test_refuses_reduction_source : staticOk (.vredqF32 ⟨0#3, 50#6, 62#6, 0#1⟩) = false := by decide
theorem test_refuses_classes_swapped : bundleOk (.paired false false .nopX .nopA) = false := by decide
theorem test_refuses_extension_in_pair : bundleOk (.paired false false .nopA (.fmaF32 ⟨0#3, 6#6, 48#6, 62#6⟩)) = false := by decide
theorem test_refuses_hold_bits : bundleOk (.paired true false .nopA .nopX) = false ∧
    bundleOk (.paired false true .nopA (.clz ⟨0#3, 5#6, 6#6⟩)) = false := by decide
theorem test_refuses_unused_word : bundleOk (.loneA (.jr ⟨15#4⟩) 1#32) = false ∧
    bundleOk (.loneX (.add ⟨0#3, 5#6, 6#6, 7#6⟩) 1#32) = false := by decide
theorem test_refuses_extension_of_register_count : bundleOk (.loneA (.loop ⟨0#1, 6#4, 0#8, 3#9⟩) 1#32) = false := by decide

/-! ## Words of the manual's own tables and examples -/

/-- The two words decode to this bundle. -/
def reads (w0 w1 : Word) (b : Bundle) : Bool :=
  match decodeWords w0 w1 with
  | .ok c => decide (c = b)
  | .error _ => false

/-- A lone A bundle whose word 1 is zero. -/
def loneIs (w : Word) (i : Instr) : Bool := reads w 0#32 (.loneA i 0#32)

/-- The X word of a pair whose A word is `nop`. -/
def pairIs (w : Word) (i : Instr) : Bool := reads 0#32 w (.paired false false .nopA i)

-- Table 5-2.
theorem test_decodes_framing : reads 0x0c814004#32 0x0ec0d818#32 (.paired false false (.ldSp ⟨2#3, 2#4, 16#5, 0#3, 4#7⟩) (.fmaF32 ⟨0#3, 6#6, 48#6, 12#6⟩)) &&
    reads 0xc200a3fc#32 0x12345678#32 (.loneX (.add ⟨0#3, 5#6, 7#6, 62#6⟩) 0x12345678#32) := by decide

-- Table 9-12: control flow, address arithmetic, memory.
theorem test_decodes_control : loneIs 0x80c3c000#32 (.jr ⟨15#4⟩) && loneIs 0x82480005#32 (.bxnz ⟨5#19⟩) &&
    loneIs 0x829c0002#32 (.bgd ⟨3#3, 2#18⟩) && loneIs 0x82ec0004#32 (.loop ⟨1#1, 6#4, 0#8, 4#9⟩) := by decide
theorem test_decodes_arithmetic : loneIs 0x8414d000#32 (.aadd ⟨5#4, 3#4, 4#4⟩) &&
    reads 0x89dc0000#32 0x12345678#32 (.loneA (.ali ⟨7#4, 0#14⟩) 0x12345678#32) &&
    reads 0x8a1dc000#32 0x4000#32 (.loneA (.alh ⟨7#4, 7#4, 0#14⟩) 0x4000#32) := by decide
theorem test_decodes_memory : loneIs 0x92c19681#32 (.ldGl ⟨3#3, 3#4, 5#5, 5#3, 1#7⟩) &&
    loneIs 0x9ac19681#32 (.stGl ⟨3#3, 0#3, 3#4, 5#5, 5#3, 1#7⟩) && loneIs 0x92c18000#32 (.ldGl ⟨3#3, 3#4, 0#5, 0#3, 0#7⟩) &&
    loneIs 0x92809877#32 (.ldGl ⟨2#3, 1#4, 6#5, 0#3, 0x77#7⟩) := by decide
theorem test_decodes_atomics : loneIs 0x9c82380a#32 (.atomGl ⟨0#3, 4#4, 7#4, 0#4, 0#3, 1#1, 1#2⟩) &&
    loneIs 0x9d014c04#32 (.casSp ⟨0#3, 2#4, 9#4, 8#4, 0#3, 0#1, 2#2⟩) &&
    loneIs 0x9c844850#32 (.atomGl ⟨0#3, 8#4, 9#4, 0#4, 5#3, 0#1, 0#2⟩) := by decide
-- Tables 13-10, 14-2, 14-8 and the examples beside them: tensors, matrix, copies, keys, engines.
theorem test_decodes_tensors : loneIs 0xa000a186#32 (.tdef ⟨5#6, 3#6, 3#6⟩) && loneIs 0xa0c082ac#32 (.mma ⟨0#3, 4#6, 5#6, 1#2, 6#4⟩) &&
    loneIs 0xa1004101#32 (.mmaR ⟨0#3, 2#6, 2#6, 0#2⟩) && loneIs 0xa18180da#32 (.mst ⟨0#3, 12#6, 1#6, 1#1, 1#2, 5#3⟩) &&
    loneIs 0xa0c02001#32 (.mmaBl ⟨0#3, 1#6, 0#2⟩) && loneIs 0xa180600c#32 (.mst ⟨0#3, 3#6, 0#6, 0#1, 0#2, 6#3⟩) &&
    loneIs 0xa3490484#32 (.cpyMma ⟨1#3, 8#6, 9#6, 2#6, 0#1⟩) && loneIs 0xa4000003#32 (.drain ⟨3#2⟩) := by decide
theorem test_decodes_engines : loneIs 0xa480628d#32 (.ksend ⟨0#3, 3#6, 5#6, 6#6, 1#1⟩) &&
    loneIs 0xa501458e#32 (.coll ⟨0#3, 10#6, 11#6, 7#6⟩) && loneIs 0xa5402480#32 (.engK ⟨1#6, 9#6, 0#1⟩) &&
    loneIs 0xa5812001#32 (.engGo ⟨0#3, 9#6, 1#1⟩) && loneIs 0xa4c0c084#32 (.kbinApp ⟨6#6, 2#6⟩) := by decide
-- Table 15-1: tasks, messages, synchronisation, requests, control registers.
theorem test_decodes_tasks : loneIs 0xa8029006#32 (.spawn ⟨0#3, 5#4, 2#4, 6#11⟩) && loneIs 0xa8810003#32 (.join ⟨2#4, 3#2⟩) &&
    loneIs 0xa9000000#32 .suspend && loneIs 0xa9400000#32 .yield && loneIs 0xa9800000#32 .exit := by decide
theorem test_decodes_messages : loneIs 0xaa02b020#32 (.send ⟨0#3, 5#4, 6#4, 32#9⟩) && loneIs 0xaa42b002#32 (.put ⟨0#3, 5#4, 6#4, 2#3⟩) &&
    loneIs 0xaa800000#32 .wfm := by decide
theorem test_decodes_synchronisation : loneIs 0xab42b003#32 (.nbarArr ⟨0#3, 5#4, 6#4, 3#5⟩) && loneIs 0xac000003#32 (.fence ⟨3#3⟩) &&
    loneIs 0xac433800#32 (.stv ⟨0#3, 6#4, 7#4⟩) && loneIs 0xac811801#32 (.ldvS ⟨2#4, 3#4⟩) &&
    loneIs 0xac876000#32 (.ldv ⟨14#4, 12#4⟩) := by decide
theorem test_decodes_system : loneIs 0xaec28006#32 (.rdcr ⟨5#4, 6#3⟩) && loneIs 0xaf003802#32 (.wrcr ⟨7#4, 2#3⟩) &&
    loneIs 0xaf400000#32 .halt := by decide
-- Table 11-14 and the examples beside it: the execute side.
theorem test_decodes_integer : pairIs 0x0a00a2ff#32 (.addi ⟨0#3, 5#6, 5#6, 0x7f#7⟩) && pairIs 0x09814108#32 (.addc ⟨0#3, 10#6, 2#6, 4#6, 0#1⟩) &&
    pairIs 0x0981618b#32 (.addc ⟨0#3, 11#6, 3#6, 5#6, 1#1⟩) && pairIs 0x09412390#32 (.bfi ⟨0#3, 9#6, 7#6, 8#6⟩) := by decide
theorem test_decodes_extended : reads 0xc900c3fc#32 0x504#32 (.loneX (.bfx ⟨0#3, 6#6, 7#6, 62#6⟩) 0x504#32) &&
    reads 0xdd87f87c#32 4#32 (.loneX (.vredqF32 ⟨0#3, 48#6, 62#6, 0#1⟩) 4#32) &&
    reads 0xd5406450#32 0#32 (.loneX (.cvt ⟨5#4, 0#3, 3#6, 8#6, 5#3, 0#4⟩) 0#32) := by decide
theorem test_decodes_guards_and_modes : pairIs 0x00817000#32 (.gset ⟨0#3, 1#3, 3#3, 1#1⟩) && pairIs 0x00400001#32 (.vmode ⟨0#3, 1#1⟩) := by decide
theorem test_decodes_vectors : pairIs 0x18c041e0#32 (.vfmaF32 ⟨0#3, 2#6, 3#6, 48#6⟩) && pairIs 0x24c02106#32 (.wfmaF32 ⟨0#3, 1#6, 2#6, 3#6⟩) &&
    pairIs 0x1a867800#32 (.vor ⟨0#3, 51#6, 48#6, 0#6⟩) := by decide
-- Table 6-4: words that are no bundle.
theorem test_rejects : decodeWords 0x0c814004#32 0x0ec0d87c#32 = .error .check ∧
    decodeWords 0x40000000#32 0#32 = .error .pairedK := ⟨rfl, rfl⟩

/-! ## Single instructions, with the values of the manual's examples -/

/-- Tile 0 of a plain launch runs task `k`, whose bundle at address 0 carries this extension word. -/
def running (k : Task) (ext : Word) : State :=
  { placeTask (withCohort State.reset) k [] with
    cur := { tile := 0, pc := 0#64, ext := ext, opened := 0, pushed := false, went := false, ha := false, hb := false } }

/-- The state that an instruction answers. -/
def after (i : Instr) (s : State) : State :=
  match exec i s with
  | .next t => t
  | _ => s

/-- A fresh task with these a-registers and g-registers. -/
def withRegs (a : List (BitVec 4 × DWord)) (g : List (Nat × Word)) : Task :=
  g.foldl (fun k e => k.putG e.1 e.2) (a.foldl (fun k e => k.putA e.1 ⟨e.2, .ready⟩) Task.zero)

/-- What an a-register of tile 0 holds after an instruction. -/
def aAfter (i : Instr) (k : Task) (ext : Word) (n : BitVec 4) : DWord := rdA (after i (running k ext)) n

/-- What a g-register of tile 0 holds after the X instruction at the head of its queue. -/
def gAfter (i : Instr) (k : Task) (ext : Word) (n : Nat) : Word :=
  (tileOf (after i (running { k with xinstr := [⟨i, ext, false, false, 0#64⟩] } ext)) 0).task.getG n

-- R132: `ali a7, 0x1234_5678`, then `alh a7, a7, 0x4000`.
theorem test_ali : aAfter (.ali ⟨7#4, 0#14⟩) Task.zero 0x12345678#32 7#4 = 0x12345678#64 := by decide
theorem test_alh : aAfter (.alh ⟨7#4, 7#4, 0#14⟩) (withRegs [(7#4, 0x12345678#64)] []) 0x4000#32 7#4 = 0x0000400012345678#64 := by
  decide
-- R131: `apeer` of offset 0x100 and tile 0x0302; a shift by 64 is a shift by 0; a sum wraps.
theorem test_apeer : aAfter (.apeer ⟨6#4, 5#4, 8#4⟩) (withRegs [(5#4, 0x100#64), (8#4, 0x302#64)] []) 0#32 6#4 =
    0x0000030200000100#64 := by decide
theorem test_ashl_by_64 : aAfter (.ashl ⟨3#4, 1#4, 2#4⟩) (withRegs [(1#4, 5#64), (2#4, 64#64)] []) 0#32 3#4 = 5#64 := by decide
theorem test_aadd_wraps : aAfter (.aadd ⟨3#4, 3#4, 3#4⟩) (withRegs [(3#4, 0x8000000000000001#64)] []) 0#32 3#4 = 2#64 := by decide
theorem test_asra_fills_sign : aAfter (.asrai ⟨3#4, 1#4, 4#14⟩) (withRegs [(1#4, 0x8000000000000000#64)] []) 0#32 3#4 =
    0xf800000000000000#64 := by decide
-- R124: the link of `callr` is written after its target has been read.
theorem test_callr_own_link : (tileOf (after (.callr ⟨3#4, 3#4⟩) (running (withRegs [(3#4, 0x40#64)] []) 0#32)) 0).task.pc = 0x40#64 ∧
    aAfter (.callr ⟨3#4, 3#4⟩) (withRegs [(3#4, 0x40#64)] []) 0#32 3#4 = 8#64 := by decide
-- R125: signed and unsigned compare branches.
theorem test_blt_is_signed : (tileOf (after (.blt ⟨1#4, 0#4, 2#11⟩) (running (withRegs [(1#4, 0xffffffffffffffff#64)] []) 0#32)) 0).task.pc =
    16#64 ∧ (tileOf (after (.bltu ⟨1#4, 0#4, 2#11⟩) (running (withRegs [(1#4, 0xffffffffffffffff#64)] []) 0#32)) 0).task.pc = 8#64 := by
  decide
-- R129: a6 holds 0x1_0000_0000, of which only bits 31:0 count, so the body is skipped.
theorem test_loop_skips : (tileOf (after (.loop ⟨0#1, 6#4, 0#8, 3#9⟩) (running (withRegs [(6#4, 0x100000000#64)] []) 0#32)) 0).task.pc =
    32#64 := by decide
-- R134: bits below the width raise ALIGN, which the record gives with the address.
theorem test_misaligned_load : (tileOf (after (.ldSp ⟨2#3, 3#4, 5#5, 0#3, 0#7⟩) (running (withRegs [(3#4, 2#64)] []) 0#32)) 0).run =
    .stopping { code := .align, xside := false, precise := true, info := 0#8, pc := 0#64, apc := 0#64, arg0 := 2#64, arg1 := 0#64,
                arg2 := 0#64, rpc := 0#64, xpushed := false } := by decide
-- R134: OFF counts in units of the width, with its sign.
theorem test_load_offset : ((after (.ldGl ⟨3#3, 3#4, 5#5, 0#3, 0x7f#7⟩) (running (withRegs [(3#4, 0x100#64)] []) 0#32)).accs.map
    (fun a => (a.ea, a.n))) = [(0xf8#64, 8)] := by decide
-- Table 11-13 and R161: the carry of `addc`, and the word above it.
theorem test_addc : gAfter (.addc ⟨0#3, 10#6, 2#6, 4#6, 0#1⟩) (withRegs [] [(2, 0xffffffff#32), (4, 2#32)]) 0#32 10 = 1#32 := by decide
theorem test_addc_carries : gAfter (.addc ⟨0#3, 11#6, 3#6, 5#6, 1#1⟩)
    ((withRegs [] [(3, 1#32), (5, 3#32)]).putP 7#3 true) 0#32 11 = 5#32 := by decide
-- Table 12-9: the bit-field forms on 0x8765_4321.
theorem test_bfx_cut : gAfter (.bfx ⟨0#3, 9#6, 7#6, 8#6⟩) (withRegs [] [(7, 0x87654321#32), (8, 0x81c#32)]) 0#32 9 = 8#32 ∧
    gAfter (.bfx ⟨0#3, 9#6, 7#6, 8#6⟩) (withRegs [] [(7, 0x87654321#32), (8, 0x444#32)]) 0#32 9 = 2#32 := by decide
theorem test_bfi_inserts : gAfter (.bfi ⟨0#3, 9#6, 7#6, 8#6⟩)
    (withRegs [] [(7, 0x87654321#32), (8, 0x804#32), (9, 0xffffffff#32)]) 0#32 9 = 0xfffff21f#32 ∧
    gAfter (.bfi ⟨0#3, 9#6, 7#6, 8#6⟩) (withRegs [] [(7, 0x87654321#32), (8, 0x81c#32), (9, 0xffffffff#32)]) 0#32 9 =
      0x1fffffff#32 := by decide
-- R98: division by zero and the overflowing quotient.
theorem test_division_corners : gAfter (.divI32 ⟨0#3, 9#6, 7#6, 8#6⟩) (withRegs [] [(7, 0x80000000#32), (8, 0xffffffff#32)]) 0#32 9 =
    0x80000000#32 ∧ gAfter (.divN32 ⟨0#3, 9#6, 7#6, 8#6⟩) (withRegs [] [(7, 5#32)]) 0#32 9 = 0xffffffff#32 := by decide
-- R98: saturating sums.
theorem test_saturating_sums : gAfter (.addsI32 ⟨0#3, 9#6, 7#6, 7#6⟩) (withRegs [] [(7, 0x7fffffff#32)]) 0#32 9 = 0x7fffffff#32 ∧
    gAfter (.subsN32 ⟨0#3, 9#6, 7#6, 8#6⟩) (withRegs [] [(7, 1#32), (8, 2#32)]) 0#32 9 = 0#32 := by decide
-- R57: a write to g0 is discarded.
theorem test_g0_reads_zero : gAfter (.add ⟨0#3, 0#6, 7#6, 7#6⟩) (withRegs [] [(7, 1#32)]) 0#32 0 = 0#32 := by decide
-- Table 8-2: 1.0625 to e4m3, rounding to even, up and away; 5 to e2m1.
theorem test_narrows_to_e4m3 : gAfter (.cvt ⟨5#4, 0#3, 3#6, 8#6, 0#3, 0#4⟩) (withRegs [] [(8, 0x3f880000#32)]) 0#32 3 = 0x38#32 ∧
    gAfter (.cvt ⟨5#4, 0#3, 3#6, 8#6, 2#3, 0#4⟩) (withRegs [] [(8, 0x3f880000#32)]) 0#32 3 = 0x39#32 := by decide
theorem test_saturates_e4m3 : gAfter (.cvt ⟨5#4, 0#3, 3#6, 8#6, 0#3, 0#4⟩) (withRegs [] [(8, 0x43fa0000#32)]) 0#32 3 = 0x7e#32 ∧
    gAfter (.cvt ⟨8#4, 0#3, 3#6, 8#6, 2#3, 0#4⟩) (withRegs [] [(8, 0x40a00000#32)]) 0#32 3 = 7#32 := by decide
-- R97: one rounding in a fused multiply-add, 1.5 × 2 + 0.25; and a sum of opposite infinities.
theorem test_float_sums : gAfter (.fmaF32 ⟨0#3, 3#6, 7#6, 8#6⟩) (withRegs [] [(3, 0x3e800000#32), (7, 0x3fc00000#32), (8, 0x40000000#32)])
    0#32 3 = 0x40500000#32 ∧ gAfter (.addF32 ⟨0#3, 3#6, 7#6, 8#6⟩) (withRegs [] [(7, 0x7f800000#32), (8, 0xff800000#32)]) 0#32 3 =
      0x7fc00000#32 := by decide
-- R52: a false guard leaves the destination.
theorem test_false_guard : gAfter (.add ⟨1#3, 9#6, 7#6, 7#6⟩) (withRegs [] [(7, 1#32), (9, 5#32)]) 0#32 9 = 5#32 := by decide
-- R237: the mode and the LONG bit of cr.mode; R238: cr.vshare is not zero.
theorem test_mode_write : (tileOf (after (.wrcr ⟨7#4, 2#3⟩) (running (withRegs [(7#4, 3#64)] []) 0#32)) 0).task.rm = 3#3 := by decide
theorem test_vshare_not_zero : (tileOf (after (.wrcr ⟨7#4, 3#3⟩) (running (withRegs [(7#4, 0#64)] []) 0#32)) 0).vshare = 1#4 := by decide
-- R234: `brk` stops with INFO 0xFF, precisely at its bundle.
theorem test_brk : (match (tileOf (after (.brk ⟨0x12#10⟩) (running (withRegs [] []) 0#32)) 0).run with
    | .stopping i => (i.code, i.info, i.rpc) | _ => (.align, 0#8, 1#64)) = (Code.brk, 0xff#8, 0#64) := by decide
-- A word that the table places is the first that runs.
theorem test_first_step : (match step (State.reset.withFetchWord 32 0x880c0005) with
    | .next t => (tileOf t 0).task.a[3].val | _ => 0#64) = 5#64 := by decide

/-! ## Hypotheses that can be met: issue -/

/-- What stands in the way of an access or command is a finite check. -/
theorem mayGo_of {s : State} {g : BitVec 3}
    (h : holding s (curTask s) = false ∧ ((bindGuard s g).isBound = false ∨ heldCount s s.cur.tile < 64) ∧
      (curTile s).replay.length + inFlight s s.cur.tile < 256) : MayGo s g := ⟨h.1, h.2.1, h.2.2⟩

/-- The sources of an X instruction are at hand, its guard is true, and what is left satisfies a test. -/
def takesWith (s : State) (pg : BitVec 3) (a b : Operand) (q : State → Vec → Vec → Bool) : Bool :=
  match takeSources s a b with
  | .got s1 va vb => (curTask s1).getP pg && q s1 va vb
  | _ => false

theorem takes_of {s : State} {pg : BitVec 3} {a b : Operand} {q : State → Vec → Vec → Bool} (h : takesWith s pg a b q = true) :
    ∃ s1 va vb, Takes s s1 pg a b va vb ∧ q s1 va vb = true := by
  unfold takesWith at h
  split at h
  next s1 va vb e => exact ⟨s1, va, vb, ⟨e, (Bool.and_eq_true_iff.mp h).1⟩, (Bool.and_eq_true_iff.mp h).2⟩
  next => cases h

/-- Tile 0 of a plain launch runs a fresh task, and differs as `f` says. -/
def tileBut (f : Tile → Tile) : State :=
  let s := running Task.zero 0#32
  setTile s 0 (f (tileOf s 0))

/-- Tile 0 of a plain launch runs the task that `f` makes of a fresh one. -/
def taskBut (f : Task → Task) : State := running (f Task.zero) 0#32

/-- The guard slot 1 has a resolved generation with this value. -/
def slotIs (v : Bool) (k : Task) : Task := { k with gd := k.gd.set 1 ⟨1, [some v]⟩ }

/-- The guard slot 1 has a generation that is not resolved. -/
def slotOpen (k : Task) : Task := { k with gd := k.gd.set 1 ⟨1, [none]⟩ }

theorem test_meets_jumps : let s := running (withRegs [(1#4, 8#64), (2#4, 4#64)] []) 0#32
    ReadyA s [1#4, 2#4] ∧ FreeA s [15#4] ∧ (rdA s 1#4).toNat % 8 = 0 ∧ (rdA s 2#4).toNat % 8 ≠ 0 := by decide
theorem test_meets_compares : let s := running (withRegs [(1#4, 8#64), (2#4, 4#64)] []) 0#32
    ReadyA s [1#4, 2#4] ∧ rdA s 1#4 ≠ rdA s 2#4 ∧ (rdA s 2#4).toNat ≤ (rdA s 1#4).toNat := by decide
theorem test_meets_guard_branches : (newestGen (taskBut (slotIs true)) 1#3).2 = some true ∧
    (newestGen (taskBut (slotIs false)) 1#3).2 = some false ∧ ((0#3 : BitVec 3) ≠ 0#3 → False) := by decide
theorem test_meets_queue_branches : (curTask (taskBut fun k => { k with xq := [0#64] })).xq = [0#64] ∧
    (curTask (taskBut id)).xq = [] := by decide
theorem test_meets_loop : FreeA (taskBut id) [6#4] ∧ ReadyA (taskBut id) [6#4] ∧ (0#8).setWidth 32 + (0#32 : Word) = 0#32 ∧
    (1#8).setWidth 32 + (0#32 : Word) ≠ 0#32 := by decide
/-- A loop whose end bundle stands at 8. -/
def loopAt8 (v : Word) (on : Bool) : Loop := ⟨v, 0#64, 8#64, 3#32, on⟩

theorem test_meets_loop_ends :
    (∃ lc : Vector Loop 2, (lc[0].active && (8#64 : DWord) == lc[0].last) = true ∧ lc[0].val ≠ 1#32) ∧
    (∃ lc : Vector Loop 2, (lc[0].active && (8#64 : DWord) == lc[0].last) = true ∧ lc[0].val = 1#32 ∧
      (lc[1].active && (8#64 : DWord) == lc[1].last) = false) ∧
    (∃ lc : Vector Loop 2, (lc[1].active && (8#64 : DWord) == lc[1].last) = true ∧
      ((lc[0].active && (8#64 : DWord) == lc[0].last) = true → lc[0].val = 1#32) ∧ lc[1].val ≠ 1#32) ∧
    ∃ lc : Vector Loop 2, (lc[1].active && (8#64 : DWord) == lc[1].last) = true ∧
      ((lc[0].active && (8#64 : DWord) == lc[0].last) = true → lc[0].val = 1#32) ∧ lc[1].val = 1#32 :=
  ⟨⟨#v[loopAt8 2#32 true, loopAt8 2#32 false], by decide, by decide⟩, ⟨#v[loopAt8 1#32 true, loopAt8 2#32 false], by decide, by decide, by decide⟩,
    ⟨#v[loopAt8 1#32 true, loopAt8 2#32 true], by decide, fun _ => by decide, by decide⟩,
    ⟨#v[loopAt8 1#32 true, loopAt8 1#32 true], by decide, fun _ => by decide, by decide⟩⟩
theorem test_meets_arithmetic : let s := taskBut id
    ReadyA s [15#4, 0#4] ∧ FreeA s [0#4, 15#4] ∧ (0#4 : BitVec 4) = 0#4 ∧ (15#4 : BitVec 4) ≠ 0#4 := by decide
theorem test_meets_loads : let s := running (withRegs [(3#4, 32#64)] []) 0#32
    ReadyA s [3#4] ∧ MayGo s 0#3 ∧ (rdA s 3#4 + ((0#7).signExtend 64 + s.cur.ext.signExtend 64) * BitVec.ofNat 64 (widthBytes 4#3)).toNat %
      widthBytes 4#3 = 0 ∧ FreeA s [5#4] ∧ ((curTask s).lq 0#1).length < 8 ∧ ((curTask s).lq 1#1).length < 8 :=
  ⟨by decide, mayGo_of (by decide), by decide, by decide, by decide, by decide⟩
theorem test_meets_misaligned : let s := running (withRegs [(3#4, 2#64)] []) 0#32
    ReadyA s [3#4, 5#4, 6#4] ∧ FreeA s [5#4] ∧ MayGo s 0#3 ∧ (rdA s 3#4).toNat % widthBytes 2#3 ≠ 0 ∧ (rdA s 3#4).toNat % 4 ≠ 0 :=
  ⟨by decide, by decide, mayGo_of (by decide), by decide, by decide⟩
theorem test_meets_stores : (let s := taskBut (slotIs false);
      ReadyA s [3#4, 5#4] ∧ MayGo s 1#3 ∧ bindGuard s 1#3 = .discarded ∧ (5#5 : BitVec 5) ≠ 16#5) ∧
    (let s := taskBut fun k => slotOpen { k with sq := [7#256] };
      MayGo s 1#3 ∧ bindGuard s 1#3 ≠ .discarded ∧ (curTask s).sq = [7#256]) ∧ bindGuard (taskBut id) 0#3 = .free :=
  ⟨⟨by decide, mayGo_of (by decide), by decide, by decide⟩, ⟨mayGo_of (by decide), by decide, by decide⟩, by decide⟩
theorem test_meets_atomics : (let s := taskBut (slotIs false);
      ReadyA s [3#4, 5#4, 6#4] ∧ MayGo s 1#3 ∧ (rdA s 3#4).toNat % 8 = 0 ∧ bindGuard s 1#3 = .discarded ∧
        ((curTask s).lq 1#1).length < 8) ∧
    (let s := taskBut id;
      MayGo s 0#3 ∧ bindGuard s 0#3 ≠ .discarded ∧ ((curTask s).lq 0#1).length < 8) :=
  ⟨⟨by decide, mayGo_of (by decide), by decide, by decide, by decide⟩, ⟨mayGo_of (by decide), by decide, by decide⟩⟩
-- The execute side: scalar, immediate, vector, long and absent operands; destinations with and without room.
theorem test_meets_scalar_forms : ∃ s1 va vb, Takes (running (withRegs [] [(47, 3#32)]) 0#32) s1 0#3 (.field .scalar 47#6) (.field .scalar 0#6) va vb ∧
    roomScalar s1 52#6 = true := takes_of (q := fun s1 _ _ => roomScalar s1 52#6) (by decide)
theorem test_meets_one_operand_forms : ∃ s1 va vb, Takes (taskBut id) s1 0#3 (.field .scalar 63#6) .absent va vb ∧ roomScalar s1 50#6 = true :=
  takes_of (q := fun s1 _ _ => roomScalar s1 50#6) (by decide)
theorem test_meets_immediate_forms : ∃ s1 va vb, Takes (taskBut id) s1 0#3 (.field .scalar 5#6) (.imm ((0x7f#7).signExtend 32)) va vb ∧
    (roomScalar s1 51#6 && vb == ((0x7f#7).signExtend 32 : Word).setWidth 256) = true :=
  takes_of (q := fun s1 _ vb => roomScalar s1 51#6 && vb == ((0x7f#7).signExtend 32 : Word).setWidth 256) (by decide)
theorem test_meets_li : ∃ s1 va vb, Takes (taskBut id) s1 0#3 .absent (.imm ((0x40#7).signExtend 32)) va vb ∧
    (roomScalar s1 63#6 && vb == ((0x40#7).signExtend 32 : Word).setWidth 256) = true :=
  takes_of (q := fun s1 _ vb => roomScalar s1 63#6 && vb == ((0x40#7).signExtend 32 : Word).setWidth 256) (by decide)
theorem test_meets_compare_of_nan : ∃ s1 va vb, Takes (running (withRegs [] [(1, 0x7fc00000#32)]) 0#32) s1 0#3 (.field .scalar 1#6)
    (.field .scalar 2#6) va vb ∧ ((f32 (va.setWidth 32)).isNan && !(f32 (vb.setWidth 32)).isNan) = true :=
  takes_of (q := fun _ va vb => (f32 (va.setWidth 32)).isNan && !(f32 (vb.setWidth 32)).isNan) (by decide)
theorem test_meets_compares_of_numbers : ∃ s1 va vb, Takes (taskBut id) s1 0#3 (.field .scalar 1#6) (.field .scalar 2#6) va vb ∧
    (!(f32 (va.setWidth 32)).isNan && !(f32 (vb.setWidth 32)).isNan) = true :=
  takes_of (q := fun _ va vb => !(f32 (va.setWidth 32)).isNan && !(f32 (vb.setWidth 32)).isNan) (by decide)
theorem test_meets_plog : ∃ s1 va vb, Takes (taskBut id) s1 0#3 .absent .absent va vb ∧ (fun _ _ _ => true : State → Vec → Vec → Bool) s1 va vb = true :=
  takes_of (q := fun _ _ _ => true) (by decide)
theorem test_meets_sel : ∃ s1 va vb, Takes (taskBut id) s1 0#3 (.field .scalar 1#6) (.field .scalar 2#6) va vb ∧
    ((curTask s1).getP 0#3 && !(curTask s1).getP 1#3 && roomScalar s1 5#6) = true :=
  takes_of (q := fun s1 _ _ => (curTask s1).getP 0#3 && !(curTask s1).getP 1#3 && roomScalar s1 5#6) (by decide)
theorem test_meets_gset : oldestGen (curTask (taskBut slotOpen)).gd[(1#3 : BitVec 3).toFin] = some 1 ∧
    oldestGen (curTask (taskBut id)).gd[(1#3 : BitVec 3).toFin] = none := by decide
theorem test_meets_vector_forms : ∃ s1 va vb, Takes (taskBut id) s1 0#3 (.field .vec 15#6) (.field .vec 0#6) va vb ∧
    (roomVector s1 51#6 && !(curTask (taskBut id)).long) = true :=
  takes_of (q := fun s1 _ _ => roomVector s1 51#6 && !(curTask (taskBut id)).long) (by decide)
theorem test_meets_vector_moves : ∃ s1 va vb, Takes (taskBut id) s1 0#3 (.field .vecAcc 63#6) (.field .vec 0#6) va vb ∧ roomVector s1 15#6 = true :=
  takes_of (q := fun s1 _ _ => roomVector s1 15#6) (by decide)
theorem test_meets_vector_reductions : ∃ s1 va vb, Takes (taskBut id) s1 0#3 (.field .vec 3#6) .absent va vb ∧ roomVector s1 15#6 = true :=
  takes_of (q := fun s1 _ _ => roomVector s1 15#6) (by decide)
theorem test_meets_broadcast : ∃ s1 va vb, Takes (taskBut id) s1 0#3 (.field .vecAcc 63#6) .absent va vb ∧ roomVector s1 15#6 = true :=
  takes_of (q := fun s1 _ _ => roomVector s1 15#6) (by decide)
theorem test_meets_queue_reduction : ∃ s1 va vb,
    Takes (running { Task.zero with lq0 := [⟨0, .data 1#256⟩, ⟨1, .data 2#256⟩] } 2#32) s1 0#3 .absent (.field .vreg 62#6) va vb ∧
      ((laneOf vb 0).toNat - (curTask s1).redq.toNat == 2 &&
        ((curTask s1).lq 0#1).map (·.fill) == [1#256, 2#256].map LqFill.data ++ (((curTask s1).lq 0#1).drop 2).map (·.fill)) = true :=
  takes_of (q := fun s1 _ vb => (laneOf vb 0).toNat - (curTask s1).redq.toNat == 2 &&
    ((curTask s1).lq 0#1).map (·.fill) == [1#256, 2#256].map LqFill.data ++ (((curTask s1).lq 0#1).drop 2).map (·.fill)) (by decide)
theorem test_meets_ring_reduction : ∃ s1 va vb,
    Takes { tileBut (fun tl => { tl with ri := [5#32] }) with
      cur := { (taskBut id).cur with ext := 1#32 } } s1 0#3 .absent (.field .vreg 62#6) va vb ∧
      ((laneOf vb 0).toNat - (curTask s1).redq.toNat == 1 && (curTile s1).ri.take 1 == [5#32]) = true :=
  takes_of (q := fun s1 _ vb => (laneOf vb 0).toNat - (curTask s1).redq.toNat == 1 && (curTile s1).ri.take 1 == [5#32]) (by decide)
theorem test_meets_long_forms : ∃ s1 va vb, Takes (taskBut fun k => { k with long := true }) s1 0#3 (.field .long 7#6) (.field .long 0#6) va vb ∧
    ((curTile s1).longq.length < 8 : Bool) = true :=
  takes_of (q := fun s1 _ _ => decide ((curTile s1).longq.length < 8)) (by decide)
theorem test_meets_long_inserts : ∃ s1 va vb, Takes (taskBut fun k => { k with long := true }) s1 0#3 (.field .scalar 7#6) (.field .scalar 0#6) va vb ∧
    ((curTile s1).longq.length < 8 : Bool) = true :=
  takes_of (q := fun s1 _ _ => decide ((curTile s1).longq.length < 8)) (by decide)
theorem test_meets_long_answers : (∃ s1 va vb, Takes (tileBut fun tl => { tl with task := { tl.task with long := true }, longWait := .back 5#32 }) s1 0#3
      .absent (.field .scalar 0#6) va vb ∧ (decide ((curTile s1).longWait = .back 5#32) && roomScalar s1 5#6) = true) ∧
    ∃ s1 va vb, Takes (tileBut fun tl => { tl with task := { tl.task with long := true }, longWait := .back 5#32 }) s1 0#3 .absent .absent va vb ∧
      (decide ((curTile s1).longWait = .back 5#32) && roomScalar s1 5#6) = true :=
  ⟨takes_of (q := fun s1 _ _ => decide ((curTile s1).longWait = .back 5#32) && roomScalar s1 5#6) (by decide),
    takes_of (q := fun s1 _ _ => decide ((curTile s1).longWait = .back 5#32) && roomScalar s1 5#6) (by decide)⟩
theorem test_meets_modes : (curTask (taskBut id)).getP 0#3 = true ∧ (curTile (taskBut id)).longq = [] ∧
    (curTask (taskBut id)).long ≠ decide ((1#1 : BitVec 1) = 1#1) ∧ (curTask (taskBut fun k => { k with long := true })).long = true := by decide

theorem unitGoes_of {s : State} {t : Nat} {chain : Bool}
    (h : unitReady s t chain = true ∧ turnOf s t chain = true ∧ (chain = true → chainAwaits s t = none) ∧ (bindUnit s t).isSome = true) :
    ∃ s1, UnitGoes s t chain s1 := ⟨_, h.1, h.2.1, h.2.2.1, (Option.some_get h.2.2.2).symm⟩

theorem test_meets_quad_unit : (∃ s1, UnitGoes (tileBut fun tl => { tl with longq := [⟨.waddF32 ⟨0#3, 1#6, 2#6, 3#6⟩, 0#32, 0#32, 0#3⟩] }) 0 false s1) ∧ (tileOf (tileBut fun tl => { tl with longq := [⟨.waddF32 ⟨0#3, 1#6, 2#6, 3#6⟩, 0#32, 0#32, 0#3⟩] }) 0).longq =
    [⟨.waddF32 ⟨0#3, 1#6, 2#6, 3#6⟩, 0#32, 0#32, 0#3⟩] := ⟨unitGoes_of (by decide), by decide⟩
theorem test_meets_operand_sources : let s := tileBut fun tl => { tl with
      task := { tl.task with lq0 := [⟨0, .data 1#256⟩], lq1 := [⟨0, .data 1#256⟩] }, ri := [1#32], ef := [2#32],
      e := Vector.replicate 8 (some 3#32) }
    (curTask s).taken = [] ∧ s.cur.ha = false ∧ (curTask s).lq0 = [⟨0, .data 1#256⟩] ∧ (curTask s).lq1 = [⟨0, .data 1#256⟩] ∧
      (curTile s).ri = [1#32] ∧ (curTile s).ef = [2#32] ∧ (curTile s).e[0] = some 3#32 ∧ (curTile s).e[7] = some 3#32 ∧
      (curTile (taskBut id)).ri = [] ∧ (curTask (taskBut id)).lq0 = [] := by decide
theorem test_meets_poisoned_source : (curTask (taskBut fun k => { k with lq0 := [⟨0, .poisoned .xlate 8#64⟩] })).lq0 =
    [⟨0, .poisoned .xlate 8#64⟩] := by decide
theorem test_meets_full_destination : ∃ s1 va vb, Takes (taskBut fun k => { k with xq := [0#64, 0#64, 0#64, 0#64] }) s1 0#3 (.field .scalar 1#6)
    (.field .scalar 2#6) va vb ∧ (!roomScalar s1 52#6) = true := takes_of (q := fun s1 _ _ => !roomScalar s1 52#6) (by decide)
theorem test_meets_false_guard : (match takeSources (taskBut id) (.field .scalar 1#6) (.field .scalar 2#6) with
      | .got s1 _ _ => !(curTask s1).getP 1#3 | _ => false) = true ∧
    (match takeSources (taskBut id) (.field .vec 1#6) (.field .vec 2#6) with
      | .got s1 _ _ => !(curTask s1).getP 1#3 | _ => false) = true ∧
    (match takeSources (taskBut fun k => { k with long := true }) (.field .long 1#6) (.field .long 2#6) with
      | .got s1 _ _ => !(curTask s1).getP 1#3 | _ => false) = true ∧
    (match takeSources (taskBut id) (.field .scalar 1#6) (.imm 5#32) with
      | .got s1 _ _ => !(curTask s1).getP 1#3 | _ => false) = true := by decide

/-! ## Hypotheses that can be met: tasks, messages, synchronisation, requests -/

/-- A record whose fields are all zero. -/
def blankRec : Rec := ⟨0#64, 0#64, 0#64, 0#64, 0#64, 0#64, 0#32, 0#32, 0#32, 0#32⟩

/-- Tile 0 as `f` makes it, in a launch whose card names a spill region at 0x10000. -/
def spillBut (f : Tile → Tile) : State :=
  let s := tileBut f
  setLaunch s 0 { plainLaunch with card := 0x10000#1024 <<< (768 : Nat) }

/-- Tile 0 with a full deque. -/
def fullDeque (tl : Tile) : Tile := { tl with deque := List.replicate 16 blankRec }

theorem test_meets_spawn : let s := taskBut (slotIs false)
    cohortOf s s.cur.tile = some (cohortKey 0 0 false, plainCohort, 0) ∧
      slabRoom s (decide (16 ≤ (curTile s).deque.length)) = none ∧ ReadyA s [5#4, 2#4, 3#4, 4#4] ∧
      bindGuard s 0#3 = .free ∧ bindGuard s 1#3 = .discarded ∧ (bindGuard (taskBut slotOpen) 1#3).isBound = true ∧
      (placeRec s blankRec 0).isSome = true ∧ (placeRec (tileBut fullDeque) blankRec 0).isNone = true ∧
      slabRoom (tileBut fullDeque) (decide (16 ≤ (curTile (tileBut fullDeque)).deque.length)) = none := by decide
theorem test_meets_placements : (curTile (taskBut id)).deque.length < 16 ∧ spillSlab (spillBut fullDeque) 0 = some 0x10000 ∧
    16 ≤ (curTile (spillBut fullDeque)).deque.length ∧
    freePlace (curTile (spillBut fun tl => { fullDeque tl with spill := List.replicate 63 blankRec, slots := List.range 63 })) = some 63 ∧
    (let full (tl : Tile) : Tile := { fullDeque tl with spill := List.replicate 64 blankRec, slots := List.range 64 };
     spillSlab (spillBut full) 0 = some 0x10000 ∧ freePlace (curTile (spillBut full)) = none ∧
      smFind 62 (curTile (spillBut full)).reserved = none ∧
      (smFind 63 (curTile (spillBut fun tl => { full tl with reserved := [(63, blankRec)] })).reserved).isSome = true) ∧
    spillSlab (tileBut fullDeque) 0 = none := by decide
theorem test_meets_records : Task.zero.depth < 64 ∧ { Task.zero with depth := 63 }.depth < 64 ∧
    0x01fffffffffffff8#64 &&& 0x01fffffffffffff8#64 = 0x01fffffffffffff8#64 := by decide
theorem test_meets_suspensions : let s := taskBut id
    MaySuspend s ∧ slabRoom s (residentPlace s s.cur.tile).isSome = none ∧
      slabRoom s (decide (16 ≤ (curTile s).deque.length)) = none ∧ (placeDeque s blankRec).isSome = true ∧
      MaySuspend (tileBut fullDeque) ∧ (placeDeque (tileBut fullDeque) blankRec).isNone = true ∧
      slabRoom (tileBut fullDeque) (decide (16 ≤ (curTile (tileBut fullDeque)).deque.length)) = none ∧
      cohortOf s s.cur.tile = some (cohortKey 0 0 false, plainCohort, 0) ∧
      ReadyA s [2#4, 3#4] ∧ holding s (curTask s) = false ∧ (rdA s 2#4).toNat % 4 = 0 :=
  ⟨⟨by decide, by decide, by decide⟩, by decide, by decide, by decide, ⟨by decide, by decide, by decide⟩, by decide, by decide, by decide,
    by decide, by decide, by decide⟩
-- R40: a ninth resident record takes the lowest free place of the general spill.
theorem test_meets_ninth_resident : let s := spillBut fun tl => { tl with resident := List.replicate 8 ⟨blankRec, .msg, false, 0, none, none⟩ }
    MaySuspend s ∧ residentPlace s s.cur.tile = some 0 ∧ slabRoom s (residentPlace s s.cur.tile).isSome = none :=
  ⟨⟨by decide, by decide, by decide⟩, by decide, by decide⟩
theorem test_meets_join : let s := taskBut id
    let a := { newAccess s .load .sp (rdA s 2#4) 4 with id := s.nextId }
    mayPerform s a = true ∧ reachNow s a = .at (.sp 0 0) ∧ (performAt s a (.sp 0 0)).1 = .value 0#256 := by decide
theorem test_meets_barrier_wait : let b (phase : Word) := barAt (tileBut fun tl => { tl with nbar := tl.nbar.set 0 { NBar.zero with phase := phase } }) 0 0
    sameCohort (taskBut id) 0 0 = true ∧ (((b 5#32).phase - 5#32).toNat = 0) ∧ (2 ^ 31 < ((b 5#32).phase - 6#32).toNat) ∧
      0 < ((b 5#32).phase - 4#32).toNat ∧ ((b 0x80000000#32).phase - 0#32).toNat ≤ 2 ^ 31 := by decide
theorem test_meets_version_wait : let s (v : DWord) := running (withRegs [(3#4, v)] []) 0#32
    let a (v : DWord) := { newAccess (s v) (.ldv ((rdA (s v) 3#4).extractLsb' 32 8)) .pr (rdA (s v) 2#4) 4 with id := (s v).nextId, dest := .a 3#4 }
    ReadyA (s 0#64) [2#4, 3#4] ∧ mayPerform (s 0#64) (a 0#64) = true ∧ reach (s 0#64) (a 0#64) = .at (.sp 0 0) ∧
      stillWaits (s 0#64) (a 0#64) (.sp 0 0) = false ∧ (performAt (s 0#64) (a 0#64) (.sp 0 0)).1 = .value 0#256 ∧
      stillWaits (s 0x100000000#64) (a 0x100000000#64) (.sp 0 0) = true ∧ mayPerform (s 0x100000000#64) (a 0x100000000#64) = true ∧
      reach (s 0x100000000#64) (a 0x100000000#64) = .at (.sp 0 0) := by decide
theorem test_meets_synchronisation : let s := taskBut (slotIs false)
    ReadyA s [2#4, 3#4] ∧ FreeA s [6#4] ∧ MayGo s 1#3 ∧ MayGo s 0#3 ∧ (rdA s 2#4).toNat % 4 = 0 ∧ reportable s s.cur.tile = [] ∧
      bindGuard s 1#3 = .discarded ∧ bindGuard s 0#3 ≠ .discarded :=
  ⟨by decide, by decide, mayGo_of (by decide), mayGo_of (by decide), by decide, by decide, by decide, by decide⟩
theorem test_meets_messages : let s := running { withRegs [(7#4, 0xf0002#64), (8#4, 0x10000#64)] [] with xq := [5#64] } 0#32
    ReadyA s [5#4, 6#4, 7#4] ∧ MayGo s 0#3 ∧ (rdA s 6#4).toNat % 4 = 0 ∧ payloadBlocked s (rdA s 6#4) 256 = false ∧
      payloadFault s (rdA s 6#4) 256 = none ∧ payloadFault s (rdA s 6#4) 0 = none ∧ sendTarget ((rdA s 5#4).setWidth 20) = some false ∧
      sendTarget ((rdA s 7#4).setWidth 20) = some true ∧ sendTarget ((rdA s 8#4).setWidth 20) = none ∧
      putReach s.cur.tile ((rdA s 5#4).toNat % 65536) = true ∧ putReach s.cur.tile 255 = false ∧ (curTask s).xq = [5#64] ∧
      bindGuard s 0#3 ≠ .discarded ∧ bindGuard (taskBut (slotIs false)) 1#3 = .discarded :=
  ⟨by decide, mayGo_of (by decide), by decide, by decide, by decide, by decide, by decide, by decide, by decide, by decide, by decide, by decide,
    by decide, by decide⟩
theorem test_meets_barrier_init : let s := running (withRegs [(5#4, 1#64)] []) 0#32
    ReadyA s [5#4, 6#4] ∧ holding s (curTask s) = false ∧ (rdA s 5#4).toNat % 65536 ≠ 0 ∧ (rdA s 6#4).toNat % 65536 = 0 ∧
      ownBarrierBusy s 31 = false := by decide
theorem test_meets_requests : let s := taskBut id
    ReadyA s [1#4, 2#4] ∧ (curTask s).xinstr = [] ∧
      (curTask (taskBut fun k => { k with xinstr := [⟨.plog ⟨0#3, 1#3, 2#3, 3#3, 0#4⟩, 0#32, false, false, 0#64⟩] })).xinstr ≠ [] := by decide
theorem test_meets_precise_traps : let s := { taskBut id with cur := { (taskBut id).cur with pushed := true, opened := 7 } }
    s.cur.pushed = true ∧ s.cur.opened = (7#3 : BitVec 3).toNat ∧ (7#3 : BitVec 3) ≠ 0#3 ∧ (taskBut id).cur.pushed = false := by decide
theorem test_meets_halt : let s := taskBut id
    cohortOf s s.cur.tile = some (cohortKey 0 0 false, plainCohort, 0) ∧ plainCohort.status = .resident ∧
      recordsFull s s.cur.tile = false ∧ s.cur.tile ∈ cohortTiles plainCohort ∧ cohortOf State.reset 0 = none ∧
      (let st (x : CohortStatus) : State := { taskBut id with cohorts := [(cohortKey 0 0 false, { plainCohort with status := x })] };
       (∀ x ∈ [CohortStatus.halting false, .halting true, .halted],
          cohortOf (st x) 0 = some (cohortKey 0 0 false, { plainCohort with status := x }, 0)) ∧
        CohortStatus.halted ≠ .resident ∧ CohortStatus.halted ≠ .halting false) := by decide
theorem test_meets_halt_of_full_queue : let r : TrapRecord := ⟨0, 0, false, false, true, 0, 0#8, .brk, 0#64, 0#64, 0#64, 0#64, 0#64, 0#64, 0#64⟩
    recordsFull (tileBut fun tl => { tl with records := List.replicate 17 r }) 0 = true ∧
      recordsFull (tileBut fun tl => { tl with records := List.replicate 16 r }) 0 = false := by decide
theorem test_meets_control_registers : let s := running (withRegs [(1#4, 4#64), (2#4, 5#64), (3#4, 16#64)] []) 0#32
    FreeA s [5#4] ∧ earlierX s = false ∧ ReadyA s [1#4, 2#4, 3#4] ∧ (curTask s).xinstr = [] ∧ (rdA s 1#4).toNat % 8 < 5 ∧
      5 ≤ (rdA s 2#4).toNat % 8 ∧ (rdA s 1#4).toNat % 16 ≠ 0 ∧ (rdA s 3#4).toNat % 16 = 0 := by decide

/-! ## Hypotheses that can be met: tensors, the matrix array, copies, chains, engines -/

/-- A scratchpad tensor of this format, shape and base, in packed rows of 64 bytes. -/
def spTensor (format rows cols base : Nat) : Desc := ⟨cols, rows, 0, format, .sp, base, 64, 0⟩

/-- A command of tile 0's task with this body, these tensors and these register values. -/
def command (g : Guard) (body : Instr) (descs : List Desc) (regs : List DWord) : Cmd :=
  { id := 0, issued := 0, act := 0, gtid := 0#64, pc := 0#64, guard := g, body, descs, regs }

/-- Tile 0 with a fresh task and these tensor entries from 0 on. -/
def entries (ds : List TEntry) : State :=
  tileBut fun tl => { tl with tt := (ds.zipIdx).foldl (fun tt e => if h : e.2 < 64 then tt.set e.2 e.1 else tt) tl.tt }

/-- Tile 0's matrix queue holds this command. -/
def arrayWith (c : Cmd) (k : Task) : State := tileBut fun tl => { tl with matq := [c], task := k }

/-- Tile 0's stream engine holds this copy. -/
def copying (c : Copy) : State := tileBut fun tl => { tl with copies := [c] }

/-- A copy of this command, neither charged nor followed. -/
def plainCopy (c : Cmd) : Copy := { cmd := c, charge := none, left := 0, got := 0, ended := [], took := [], follow := none, landed := false }

/-- Tile 0 as `f` makes it, in region 1 of a tenant whose first 256 KiB of gl are mapped. -/
def mapped (f : Tile → Tile) : State :=
  setDie { tileBut f with
    regions := [(1, ⟨0, 0, 1, 1, 0, 0#256⟩)], tenants := [(0, ⟨0x1000, 0, 0, 0, []⟩)]
    edge := memWrite (memWrite [] 0x100a [0x04]) 0x101f [0xf0] } 0
    { Die.blank with tlb := [⟨0, 0, 0x40000, 0, true, true, true, 0#2, 0⟩] }

theorem arrayGoes_of {s : State} {t : Nat} {c : Cmd} {r : List Cmd}
    (h : (tileOf s t).halt ≠ .preempt true ∧ (tileOf s t).matq = c :: r ∧ (tileOf s t).forwarding = none ∧ c.guard = .free ∧
      pushSeen s t c = true) : ArrayGoes s t c r := ⟨h.1, h.2.1, h.2.2.1, h.2.2.2.1, h.2.2.2.2⟩

theorem test_meets_tensor_entries : let s := running (withRegs [(3#4, 32#64)] []) 0#32
    ReadyA s [3#4] ∧ MayGo s 0#3 ∧ (rdA s 3#4).toNat % 32 = 0 ∧ (entryAt s 63#6).isPending = false ∧ holding s (curTask s) = false ∧
      ∀ n : BitVec 6, (entryAt s n).isPending = false :=
  ⟨by decide, mayGo_of (by decide), by decide, by decide, by decide, by decide⟩
theorem test_meets_matrix_commands : let s := entries [.valid (spTensor 2 32 16 0), .valid (spTensor 2 32 16 2048), .valid (spTensor 0 32 32 0),
      .valid (spTensor 0x14 32 32 0), .valid (spTensor 8 32 64 0)]
    (curTile s).matq.length < 16 ∧ MayGo s 0#3 ∧ ReadyA s [6#4] ∧ entryAt s 0#6 = .valid (spTensor 2 32 16 0) ∧
      entryAt s 2#6 = .valid (spTensor 0 32 32 0) ∧ pairShape 2 2 = some (16, 5) ∧ pairShape 0 2 = none ∧
      (rdA s 6#4).toNat % 2 ^ 32 % 16 = 0 ∧ fp32Class 2 = false ∧ blDepth 1 (spTensor 2 32 16 0) ≤ (fmt 2).slabK ∧
      inputOnly 0x14 = false ∧ entryAt s 3#6 = .valid (spTensor 0x14 32 32 0) ∧
      (let s := running (withRegs [(6#4, 8#64)] []) 0#32; (rdA s 6#4).toNat % 2 ^ 32 % 16 ≠ 0) :=
  ⟨by decide, mayGo_of (by decide), by decide, by decide, by decide, by decide, by decide, by decide, by decide, by decide, by decide,
    by decide, by decide⟩
theorem test_meets_undefined_tensors : let s := entries [.invalid, .poisoned .xlate 8#64]
    MayGo s 0#3 ∧ entryAt s 0#6 = .invalid ∧ entryAt s 1#6 = .poisoned .xlate 8#64 ∧ (entryAt s 0#6).isPending = false :=
  ⟨mayGo_of (by decide), by decide, by decide, by decide⟩
theorem test_meets_matrix_clear : ∃ c, ArrayGoes (arrayWith c Task.zero) 0 c [] ∧ c.body = .mmz ⟨0#3, 3#6⟩ :=
  ⟨command .free (.mmz ⟨0#3, 3#6⟩) [] [], arrayGoes_of (by decide), rfl⟩
theorem test_meets_matrix_load : let c := command .free (.mld ⟨0#3, 0#6, 3#6⟩) [spTensor 0 1 1 0] []
    ArrayGoes (arrayWith c Task.zero) 0 c [] ∧ (engRows (engStart (clearWaits (arrayWith c Task.zero) 0 [8]) 0 c) (spTensor 0 1 1 0) 0 32 32).2.clean :=
  ⟨arrayGoes_of (by decide), by decide, by decide⟩
theorem test_meets_slab_load : let d := spTensor 2 32 16 0
    let c := command .free (.mldBl ⟨0#3, 0#6, 1#6, 6#6⟩) [d] [0#64]
    ArrayGoes (arrayWith c Task.zero) 0 c [] ∧ (tileOf (arrayWith c Task.zero) 0).task.bl = none ∧
      (engRows (engHead (engStart (clearWaits (arrayWith c Task.zero) 0 [8]) 0 c) d).2 d 0 (blDepth 1 d) 32).2.clean :=
  ⟨arrayGoes_of (by decide), by decide, by decide, by decide⟩
theorem test_meets_matrix_store : let d := spTensor 0 1 1 0
    let f : FMst := ⟨0#3, 0#6, 3#6, 0#1, 0#2, 0#3⟩
    let c := command .free (.mst f) [d] [0#64, 0#64, 0#64]
    ArrayGoes (arrayWith c Task.zero) 0 c [] ∧ engAwaitsHost (engStart (clearWaits (arrayWith c Task.zero) 0 [8]) 0 c) d = none ∧
      (mstRows (engStart (clearWaits (arrayWith c Task.zero) 0 [8]) 0 c) (accOf Task.zero 3) d f (decodeF fF32 0) 0 1 0 0#32).clean :=
  ⟨arrayGoes_of (by decide), by decide, by decide, by decide⟩
theorem test_meets_waiting_commands : (tileOf (arrayWith (command .discarded (.mmz ⟨0#3, 3#6⟩) [] []) Task.zero) 0).matq =
      [command .discarded (.mmz ⟨0#3, 3#6⟩) [] []] ∧ (command (.bound 1 2) (.mmz ⟨0#3, 3#6⟩) [] []).guard.isBound = true ∧
    (tileOf (arrayWith (command .discarded (.mmz ⟨0#3, 3#6⟩) [] []) Task.zero) 0).forwarding = none ∧
    (tileOf (arrayWith (command .discarded (.mmz ⟨0#3, 3#6⟩) [] []) Task.zero) 0).halt ≠ .preempt true ∧
    (tileOf (tileBut fun tl => { tl with halt := .preempt true }) 0).halt = .preempt true := by decide
theorem test_meets_slab_sums : let a := spTensor 2 32 16 0
    let c := command .free (.mma ⟨0#3, 0#6, 1#6, 3#2, 6#4⟩) [a, a] [0#64]
    let s := setCluster (arrayWith c Task.zero) 0 { Cluster.blank with tokens := 4 }
    ArrayGoes s 0 c [] ∧ (quadAt s (quadOf 0)).fid = 0 ∧ burstNeed s (clusterOf 0) ≤ (clusterAt s (clusterOf 0)).tokens ∧
      (engRows (engRows (engHead (engHead (engStart (tokensHeld (clearWaits s 0 [8]) 0).2 0 c) a).2 a).2 a 0 16 32).2 a 0 16 32).2.clean :=
  ⟨arrayGoes_of (by decide), by decide, by decide, by decide, by decide⟩
theorem test_meets_buffered_slabs : let a := spTensor 2 32 16 0
    let c := command .free (.mmaBl ⟨0#3, 0#6, 3#2⟩) [a] []
    let s (depth : Nat) := setCluster (arrayWith c { Task.zero with bl := some ⟨a, 0, depth, []⟩ }) 0 { Cluster.blank with tokens := 4 }
    ArrayGoes (s 16) 0 c [] ∧ burstNeed (s 16) 0 ≤ (clusterAt (s 16) 0).tokens ∧
      (engRows (engHead (engStart (tokensHeld (clearWaits (s 16) 0 [8]) 0).2 0 c) a).2 a 0 16 32).2.clean ∧ ArrayGoes (s 8) 0 c [] ∧
      taskStopped (s 8) 0 c = false ∧ (tileOf (s 8) 0).replay.length < 256 :=
  ⟨arrayGoes_of (by decide), by decide, ⟨by decide, by decide⟩, arrayGoes_of (by decide), by decide, by decide⟩
theorem test_meets_ringway : let b : Slab := ⟨spTensor 2 32 16 0, 0, 16, []⟩
    let c := command .free (.mmaR ⟨0#3, 0#6, 2#6, 0#2⟩) [spTensor 2 32 16 0] []
    let s := tileBut fun tl => { tl with matq := [c], forwarding := some (b, 0) }
    (tileOf s 0).matq = [c] ∧ (tileOf s 0).halt ≠ .preempt true ∧ (tileOf s 0).forwarding = some (b, 0) ∧ sameCohort s 0 0 = true ∧ (tileOf s 0).run ≠ .idle ∧
      (tileOf s 0).ringNet = none ∧ (tileOf s 0).task.ring = none := by decide
theorem test_meets_ringway_landing : let b : Slab := ⟨spTensor 2 32 16 0, 0, 16, []⟩
    let s := tileBut fun tl => { tl with ringNet := some b }
    (tileOf s 0).ringNet = some b ∧ (tileOf s 0).task.ring = none ∧ (tileOf s 0).run ≠ .idle ∧ (tileOf s 0).task.bl = none ∧
      (tileOf (tileBut fun tl => { tl with run := .idle }) 0).run = .idle := by decide
theorem test_meets_power_tokens : let a := spTensor 2 32 16 0
    let c := command .free (.mma ⟨0#3, 0#6, 1#6, 3#2, 6#4⟩) [a, a] [0#64]
    let s := arrayWith c Task.zero
    ArrayGoes s 0 c [] ∧ (clusterAt s 0).tokens < burstNeed s 0 ∧ (clusterAt s 0).claim = none ∧
      oldestClaim (setCluster s 0 { Cluster.blank with claim := some 0 }) 0 = some 0 ∧
      (clusterAt (setCluster (taskBut id) 0 { Cluster.blank with burst := true }) 0).burst = true :=
  ⟨arrayGoes_of (by decide), by decide, by decide, by decide, by decide⟩
theorem test_meets_no_matrix_work : ∀ q, q < 64 → ∀ i, i < 4 → mmaAtHead (taskBut id) (tileAt q i) = false := by decide
theorem test_meets_copies : let s := entries [.valid (spTensor 2 2 4 0), .valid (spTensor 2 2 4 2048), .valid (spTensor 2 4 2 4096),
      .valid (spTensor 0xa 3 4 8192), .valid (spTensor 0 1 2 8192)]
    copiesInFlight (curTile s) < 1024 ∧ MayGo s 0#3 ∧ entryAt s 0#6 = .valid (spTensor 2 2 4 0) ∧ entryAt s 1#6 = .valid (spTensor 2 2 4 2048) ∧
      overlaps 0 (spTensor 2 2 4 2048) (tensorRanges (spTensor 2 2 4 2048)) (spTensor 2 2 4 0) [memoryOf 0 (spTensor 2 2 4 0)] = false ∧
      overlaps 0 (spTensor 2 4 2 4096) (tensorRanges (spTensor 2 4 2 4096)) (spTensor 2 2 4 0) [memoryOf 0 (spTensor 2 2 4 0)] = false ∧
      transposable 2 = true ∧ ¬ ((2 : Nat) = 4 ∧ (2 : Nat) = 2) ∧ ReadyA s [5#4] :=
  ⟨by decide, mayGo_of (by decide), by decide, by decide, by decide, by decide, by decide, by decide, by decide⟩
theorem test_meets_indexed_copies : indexedInvalid 0 (spTensor 2 2 4 0) (spTensor 2 2 4 2048) (spTensor 0x1b 1 2 8192) 2 = false := by decide
theorem test_meets_multicast : let s := running (withRegs [(5#4, 0x01010000#64)] []) 0#32
    ReadyA s [5#4] ∧ (rectangle 0 (rdA s 5#4)).isSome = true := by decide
theorem test_meets_subscription : let s := running (withRegs [(5#4, 0x800000000#64)] []) 0#32
    (rdA s 5#4).toNat / 2 ^ 32 = 8 ∧ 8 ≤ rowSpan (spTensor 2 2 4 0) := by decide
theorem test_meets_follow_ons : followBody 0x20c1050e#32 = some (.mma ⟨0#3, 8#6, 10#6, 0#2, 7#4⟩) ∧ followBody 0x20c02001#32 =
    some (.mmaBl ⟨0#3, 1#6, 0#2⟩) ∧ followBody 0x21002101#32 = some (.mmaR ⟨0#3, 1#6, 2#6, 0#2⟩) ∧ followBody 0#32 = none := by decide
theorem test_meets_copy_completion : let d := spTensor 2 1 4 0
    let r := spTensor 2 1 4 2048
    let c := plainCopy (command .free (.cpy ⟨0#3, 0#6, 1#6, 0#1⟩) [d, r] [])
    let s := copying c
    (tileOf s 0).copies[0]? = some c ∧ noticed (tileOf s 0) c.cmd.id = false ∧ copyMay (tileOf s 0) 0 0 c = true ∧
      pushSeen s 0 c.cmd = true ∧ isStrm c.cmd.body = false ∧
      copyAwaitsHost s 0 c = none ∧ (runCopy (engStart s 0 c.cmd) c.cmd).clean ∧ memWf (tileOf s 0).sp = true ∧ s.damage = [] ∧
      (tileOf s 0).guards = 0#3072 ∧ (fmt d.format).scale = .none ∧ d.base + rowBytes 2 4 ≤ r.base ∧ r.base + rowBytes 2 4 ≤ spBytes :=
  ⟨by decide, by decide, by decide, by decide, by decide, by decide, ⟨by decide, by decide⟩, by decide, by decide, by decide, by decide,
    by decide, by decide⟩
-- R62: the notice of a multicast waits behind a result at the tile's input.
theorem test_meets_multicast_notice : let d := spTensor 2 1 4 0
    let c := plainCopy (command .free (.cpyM ⟨0#3, 0#6, 1#6, 5#6, 0#1⟩) [d, spTensor 2 1 4 2048] [0#64])
    let s := tileBut fun tl => { tl with copies := [c], efWait := [.word 5#32] }
    (tileOf s 0).copies[0]? = some c ∧ noticed (tileOf s 0) c.cmd.id = false ∧ copyMay (tileOf s 0) 0 0 c = true ∧
      pushSeen s 0 c.cmd = true ∧ isStrm c.cmd.body = false ∧ isMulticast c.cmd.body = true ∧ copyAwaitsHost s 0 c = none ∧
      (runCopy (engStart s 0 c.cmd) c.cmd).clean ∧ (tileOf (runCopy (engStart s 0 c.cmd) c.cmd).s 0).efWait ≠ [] :=
  ⟨by decide, by decide, by decide, by decide, by decide, by decide, by decide, ⟨by decide, by decide⟩, by decide⟩
theorem test_meets_copies_put_off : let c (g : Guard) := plainCopy (command g (.cpy ⟨0#3, 0#6, 1#6, 0#1⟩) [spTensor 2 1 4 0, spTensor 2 1 4 2048] [])
    (tileOf (copying (c .discarded)) 0).copies[0]? = some (c .discarded) ∧ (c (.bound 1 2)).cmd.guard.isBound = true ∧
      (c .discarded).landed = false := by decide
theorem test_meets_follow_on_pushes : let f := command .free (.mmaBl ⟨0#3, 1#6, 0#2⟩) [spTensor 2 32 16 0] []
    followMay (taskBut id) 0 f = true ∧ followMay (tileBut fun tl => { tl with matq := List.replicate 16 f }) 0 f = false := by decide
theorem test_meets_stream : let c := plainCopy (command .free (.strm ⟨0#3, 0#6, 5#6, 0#1⟩) [spTensor 2 2 4 0] [0x800000000#64])
    let s := { copying c with streamTable := 0x1000, edge := memWrite [] 0x1000 ([1, 0, 0, 0, 0, 0, 0, 0x80] ++ [0, 0, 0, 0, 0, 0, 0, 0] ++ [7]) }
    (tileOf s 0).copies[0]? = some c ∧ streamStops (tileOf s 0) = false ∧ streamStops { tileOf s 0 with halt := .preempt true } = true ∧
      (tileOf s 0).copies = [c] ∧ ({ s with streamQ := [⟨5, 0, [1#8], false, [(0, 1)]⟩] }).streamQ[0]? = some ⟨5, 0, [1#8], false, [(0, 1)]⟩ ∧
      copyMay (tileOf s 0) 0 0 c = true ∧ streamGranted s (strmStream c) (tagOf s 0) = true ∧
      (grantAt s (strmStream c)).prods.contains 7 = true ∧ 7 / 2 ^ 30 ≠ 1 ∧ lostProducer s 7 = false ∧ noticed (tileOf s 0) c.cmd.id = false ∧
      lostProducer { s with lostModules := [0] } 0x80000000 = true ∧ c.got + [0#8, 1#8].length ≤ strmCount c ∧
      (landStream (engStart s 0 c.cmd) (spTensor 2 2 4 0) c.got [0#8, 1#8]).clean ∧ pushSeen s 0 c.cmd = true ∧
      strmCount { c with got := 8 } = 8 :=
  ⟨by decide, by decide, by decide, by decide, by decide, by decide, by decide, by decide, by decide, by decide, by decide, by decide, by decide,
    ⟨by decide, by decide⟩, by decide, by decide⟩
theorem test_meets_streamer : let bytes : List Byte := [0, 0, 0, 0, 9]
    let m := { newMessage (taskBut id) 4 0xf0002#20 .free (.streamer bytes 0#32 0#64) with src := 0 }
    let s := { taskBut id with
      net := [m], streamTable := 0x1000
      edge := memWrite [] 0x1000 ([1, 0, 0, 0, 0, 0, 0, 0x80] ++ [0, 0, 0, 0, 0, 0, 0, 0] ++ [0, 0, 0, 0x40]) }
    msgOf s m.id = some m ∧ msgMay s m = true ∧ earlierDone s m.src m.gtid m.id 5#3 = true ∧ streamerExists m.dst = true ∧
      granted s m.tag (m.dst.extractLsb' 0 8).toNat = true ∧ streamGranted s (leNat (bytes.take 4)) m.tag = true ∧
      (grantAt s (leNat (bytes.take 4))).prods.contains (tileProducer m.src) = true ∧
      streamGranted (taskBut id) (leNat (bytes.take 4)) m.tag = false ∧ granted (taskBut id) 1 2 = false ∧
      gtidStopped s m.src m.gtid = false ∧ framed s m.gtid = false ∧ (tileOf s m.src).replay.length < 256 := by decide
theorem test_meets_drains : let e : ReplayEntry := ⟨0#64, 8#64, 0#4, 0#8, 0, 0#5, 2#3, .gl, 0#8, 1#8, .xlate, 0#64, 0#256, 0#64, 0#3, none⟩
    let a := newAccess (taskBut id) .store .sp 0#64 4
    holding (taskBut id) Task.zero = false ∧ drainWaits (taskBut id) 0 .sp = false ∧ reportable (taskBut id) 0 = [] ∧
      drainWaits { taskBut id with accs := [a] } 0 .sp = true ∧ reportable (tileBut fun tl => { tl with replay := [e] }) 0 = [e] := by decide
theorem test_meets_chains : let s := entries [.valid (spTensor 0 2 4 0), .valid (spTensor 0 2 4 2048), .valid (spTensor 0 2 4 4096)]
    MayGo s 0#3 ∧ entryAt s 0#6 = .valid (spTensor 0 2 4 0) ∧ entryAt s 2#6 = .valid (spTensor 0 2 4 4096) ∧
      chainSteps false [0xc0, 0, 0, 0, 0, 0, 0, 0] ≠ none ∧ chainSteps false [0xff, 0, 0, 0, 0, 0, 0, 0] = none ∧ inputOnly 0 = false ∧
      (curTile s).chainq.length < 16 :=
  ⟨mayGo_of (by decide), by decide, by decide, by decide, by decide, by decide, by decide⟩
theorem test_meets_chain_runs : let d := spTensor 0 1 1 0
    let c := command .free (.chain ⟨0#3, 0#6, 1#6, 0#6, 0#1⟩) [d, spTensor 0 1 1 2048] [0xc0#64, 0#64, 0#64, 0#64, 0#64]
    let s := tileBut fun tl => { tl with chainq := [c] }
    (tileOf s 0).chainq = [c] ∧ (∃ s1, UnitGoes s 0 true s1 ∧ d.rows * d.cols ≤ (runChain (chainStart s1 0 c) c 0).1 ∧
      (runChain (chainStart (setTile s1 0 { tileOf s1 0 with lastChain := true }) 0 c) c 0).2.clean) :=
  ⟨by decide, ⟨_, ⟨by decide, by decide, by decide, rfl⟩, by decide, ⟨by decide, by decide⟩⟩⟩
-- R277: a chain of more than 128 elements is carried out in units; a discarded one leaves, a held one stays.
theorem test_meets_chain_units : let d := spTensor 0 2 100 0
    let c (g : Guard) := command g (.chain ⟨0#3, 0#6, 1#6, 0#6, 0#1⟩) [d, spTensor 0 2 100 8192] [0xc0#64, 0#64, 0#64, 0#64, 0#64]
    let s := tileBut fun tl => { tl with chainq := [c .free] }
    (runChain (chainStart s 0 (c .free)) (c .free) 0).1 < d.rows * d.cols ∧
      (tileOf (tileBut fun tl => { tl with chainq := [c .discarded] }) 0).chainq = [c .discarded] ∧ (c (.bound 1 2)).guard.isBound = true := by
  decide
theorem test_meets_engine_messages : let s := entries [.valid (spTensor 0 2 4 0), .valid (spTensor 2 2 4 2048)]
    MayGo s 0#3 ∧ entryAt s 0#6 = .valid (spTensor 0 2 4 0) ∧ entryAt s 1#6 = .valid (spTensor 2 2 4 2048) ∧ holding s (curTask s) = false ∧
      ReadyA s [5#4, 6#4, 9#4] ∧ engGoTarget 0x10000#20 = true ∧ engGoTarget 0#20 = false ∧ rowBytes 2 4 ≤ 2048 ∧
      cohortOf s s.cur.tile = some (cohortKey 0 0 false, plainCohort, 0) ∧ (0 : Nat) / 2 ^ 16 < cohortTasks plainCohort ∧
      bindGuard s 0#3 ≠ .discarded :=
  ⟨mayGo_of (by decide), by decide, by decide, by decide, by decide, by decide, by decide, by decide, by decide, by decide, by decide⟩
theorem test_meets_keys : let d := spTensor 0 1 2 0
    let c := command .free (.ksend ⟨0#3, 0#6, 6#6, 7#6, 0#1⟩) [d] [0#64, 0#64]
    let m := newMessage (taskBut id) 5 0x30000#20 .free (.ksend c)
    let s (b : Option (Desc × Option Nat)) := { tileBut fun tl => { tl with bins := b } with net := [m] }
    let p := ksendPayload (engStart (dropMsg (s none) m.id) m.src c) d (ksendRow c)
    msgOf (s none) m.id = some m ∧ msgMay (s none) m = true ∧ pushSeen (s none) m.src c = true ∧ p.2.clean ∧
      (ksendBin c < (spTensor 0 1 2 4096).rows) ∧
      (binAdd p.2 0 (rowAddr (spTensor 0 1 2 4096) 0) [0#32, 0#32]).clean ∧
      (binAppend p.2 0 (rowAddr (spTensor 0 1 2 4096) 0) 1 64 p.1).clean ∧ (tileOf (s none) 0).bins = none :=
  ⟨by decide, by decide, by decide, ⟨by decide, by decide⟩, by decide, ⟨by decide, by decide⟩, ⟨by decide, by decide⟩, by decide⟩
theorem test_meets_engine_requests : let m (dst : BitVec 20) (op k1 : Word) := newMessage (taskBut id) 2 dst .free (.engGo op k1 0#32 0#32 true)
    let s (m : Msg) := { taskBut id with net := [m] }
    ([(0x10000#20, 0xc0#32), (0x20000#20, 0xc8#32), (0x30000#20, 0xd1#32), (0x40000#20, 0xd8#32), (0x50000#20, 0xe0#32),
        (0xa0000#20, 0xf0#32), (0xf000b#20, 0xf0#32), (0xf0002#20, 0xf8#32)].all fun e =>
      msgOf (s (m e.1 e.2 0#32)) 0 == some (m e.1 e.2 0#32) && msgMay (s (m e.1 e.2 0#32)) (m e.1 e.2 0#32) &&
        engGoRefused (s (m e.1 e.2 0#32)) (m e.1 e.2 0#32) == none && acceptsOp e.1 e.2.toNat) = true ∧
      acceptsOp 0x10000#20 0x80 = false ∧ streamGranted (taskBut id) 0 0 = false ∧ cohortOf (taskBut id) 0 ≠ none := by decide
theorem test_meets_probe : (tlbFind (mapped id) (dieOf 0) (tagOf (mapped id) 0) 0#64).isSome = true ∧ dieOf 0 = 0 := by decide
theorem test_meets_granted_stream : let s := { taskBut id with streamTable := 0x1000, edge := memWrite [] 0x1007 [0x80] }
    streamGranted s 0 0 = true ∧ ∀ p ∈ (grantAt s 0).prods, p / 2 ^ 30 = 1 := by decide
theorem test_meets_replies : (tileOf (tileBut fun tl => { tl with efWait := [.word 5#32] }) 0).efWait = [.word 5#32] ∧
    (tileOf (tileBut fun tl => { tl with efWait := [.word 5#32] }) 0).ef.length < 16 ∧
    16 ≤ (tileOf (tileBut fun tl => { tl with efWait := [.word 5#32], ef := List.replicate 16 0#32 }) 0).ef.length ∧
    (tileOf (tileBut fun tl => { tl with efWait := [.notice 0 .sp] }) 0).efWait = [.notice 0 .sp] := by decide
/-- A participant's `coll.red` stands at its engine, in group 0 of this entry. -/
def colling (entry : List Byte) : State :=
  let c := command .free (.collRed ⟨0#3, 0#6, 1#6, 7#6⟩) [spTensor 0 1 1 0, spTensor 0 1 1 2048] [0#64]
  { taskBut id with
    net := [newMessage (taskBut id) 2 0xa0000#20 .free (.coll c)], collTable := 0x1000, edge := memWrite (memWrite [] 0x1000 entry) 0x2000 [7] }

theorem test_meets_collectives : let c := command .free (.collRed ⟨0#3, 0#6, 1#6, 7#6⟩) [spTensor 0 1 1 0, spTensor 0 1 1 2048] [0#64]
    let m := newMessage (taskBut id) 2 0xa0000#20 .free (.coll c)
    let s := dropColls (colling []) 0
    let s' := dropColls (colling [0, 0, 0, 0, 0, 0, 0, 0x80]) 0
    collsOf s 0 = [(m, c)] ∧ groupGranted s 0 m.tag = false ∧ taskStopped s m.src c = false ∧ (tileOf s m.src).replay.length < 256 ∧
      collsOf s' 0 = [(m, c)] ∧ groupGranted s' 0 m.tag = true ∧ collField c 16 8 < groupParts s' 0 ∧ firstOf (collsOf s' 0) = [(m, c)] ∧
      groupLost s' 0 = false ∧ groupPeers s' 0 = 0 ∧ groupParts s' 0 = 1 ∧ roundAwaits s' [(m, c)] = none ∧
      (∃ xs s1, readColls [(m, c)] s' = some (xs, false, s1) ∧
        (writeColls (combine (collField c 24 8) (groupTree s' 0) (s1.freeIdx + 3) 1 [combine (collField c 24 8) true s1.freeIdx 1 xs]) [(m, c)]
          { s1 with freeIdx := s1.freeIdx + 5 }).isSome = true) :=
  ⟨by decide, by decide, by decide, by decide, by decide, by decide, by decide, by decide, by decide, by decide, by decide, by decide, ⟨_, _, rfl, rfl⟩⟩
-- R314, R316: a group with one peer module; its round waits for the peer's partial, and fails where the peer is lost.
theorem test_meets_peer_rounds : let c := command .free (.collRed ⟨0#3, 0#6, 1#6, 7#6⟩) [spTensor 0 1 1 0, spTensor 0 1 1 2048] [0#64]
    let m := newMessage (taskBut id) 2 0xa0000#20 .free (.coll c)
    let s := dropColls (colling [1, 0, 0, 0, 0, 1, 0, 0x80, 0, 0x20]) 0
    firstOf (collsOf s 0) = [(m, c)] ∧ groupLost s 0 = false ∧ [Partial.mk 1 [0#32]].length = groupPeers s 0 ∧ 1 + 1 = groupParts s 0 ∧
      ([] : List Partial).length ≠ groupPeers s 0 ∧ roundAwaits s [(m, c)] = none ∧ (readColls [(m, c)] s).isSome = true ∧
      groupLost { s with spans := [(7, ⟨0, false⟩)] } 0 = true ∧
      (failColls 0x04#8 [(m, c)] { s with spans := [(7, ⟨0, false⟩)] }).isSome = true := by decide
/-! ## Hypotheses that can be met: accesses at their homes, results, faults, fetch -/

/-- The save area of a plain cohort. -/
def savedArea : Area :=
  { key := cohortKey 0 0 false, cohort := { plainCohort with status := .halting false }, tiles := [(0, tileOf (taskBut id) 0)]
    ql := [], accs := [], msgs := [], sums := [] }

/-- Tile 0's task has sent this access: its operation, space, address and width. -/
def sentBy (s : State) (op : AccOp) (space : Space) (ea : DWord) (n : Nat) : Access := newAccess s op space ea n

/-- Tile 0 as `f` makes it, with one access on its way. -/
def sending (f : Tile → Tile) (op : AccOp) (space : Space) (ea : DWord) (n : Nat) : State :=
  { mapped f with accs := [sentBy (mapped f) op space ea n] }

theorem performs_of {s : State} {a : Access} {p : Place}
    (h : s.accs.find? (fun b => b.id == a.id) = some a ∧ mayPerform s a = true ∧ a.guard = .free ∧ reach s a = .at p ∧
      guardTouched s 0 0 a.n = false ∧ damaged s p a.n = false ∧ badVersion s 0 0 = false ∧ waitsForHost s a p = none ∧ hostAtomic a p = false ∧
      portBusy s a p = false ∧ replicaOf s a.tile a.ea = none) (h' : p = .sp 0 0 ∨ p = .gl (.edge 0x80) 0#2) : Performs s a p := by
  obtain ⟨h1, h2, h3, h4, h5, h6, h6', h7, h8, h9, h10⟩ := h
  rcases h' with rfl | rfl
  · exact ⟨h1, h2, h3, h4, by simp, (fun t o e => by cases e; exact h5), h6, (fun t o e => by cases e; exact h6'), h7, h8, h9, h10⟩
  · exact ⟨h1, h2, h3, h4, by simp, (fun t o e => by cases e), h6, (fun t o e => by cases e), h7, h8, h9, h10⟩

theorem test_meets_load_home : (let s := sending id .load .sp 0#64 32;
      s.memsOk = true ∧ Performs s (sentBy (mapped id) .load .sp 0#64 32) (.sp 0 0)) ∧
    Performs (sending id .touch .gl 0x80#64 4) (sentBy (mapped id) .touch .gl 0x80#64 4) (.gl (.edge 0x80) 0#2) :=
  ⟨⟨by decide, performs_of (by decide) (.inl rfl)⟩, performs_of (by decide) (.inr rfl)⟩
theorem test_meets_store_home : (sending id .store .gl 0x80#64 8).memsOk = true ∧
    Performs (sending id .store .gl 0x80#64 8) (sentBy (mapped id) .store .gl 0x80#64 8) (.gl (.edge 0x80) 0#2) :=
  ⟨by decide, performs_of (by decide) (.inr rfl)⟩
theorem test_meets_atomic_home : Performs (sending id (.atom 11#4) .gl 0x80#64 8) (sentBy (mapped id) (.atom 11#4) .gl 0x80#64 8) (.gl (.edge 0x80) 0#2) :=
  performs_of (by decide) (.inr rfl)
theorem test_meets_cas_home : let a := sentBy (mapped id) (.cas 5#4) .sp 0#64 4
    Performs (sending id (.cas 5#4) .sp 0#64 4) a (.sp 0 0) ∧ leNat ((List.range 4).map fun j => byteAt (sending id (.cas 5#4) .sp 0#64 4)
      (placeByte (.sp 0 0) j)) = a.data.toNat % 2 ^ (8 * 4) ∧
    leNat ((List.range 4).map fun j => byteAt (sending (fun tl => { tl with sp := [(0, 1)] }) (.cas 5#4) .sp 0#64 4)
      (placeByte (.sp 0 0) j)) ≠ a.data.toNat % 2 ^ (8 * 4) := ⟨performs_of (by decide) (.inl rfl), by decide, by decide⟩
theorem test_meets_versions : Performs (sending id .stv .pr 0#64 4) (sentBy (mapped id) .stv .pr 0#64 4) (.sp 0 0) ∧
    Performs (sending id .vrcl .pr 0#64 4) (sentBy (mapped id) .vrcl .pr 0#64 4) (.sp 0 0) ∧
    Performs (sending id (.ldv 0#8) .pr 0#64 4) (sentBy (mapped id) (.ldv 0#8) .pr 0#64 4) (.sp 0 0) ∧ ((0#8 : Byte) - 0#8).toNat < 128 ∧
    128 ≤ ((1#8 : Byte) - 2#8).toNat ∧ (sending (fun tl => { tl with ver := [(0, 1)] }) .stv .pr 0#64 4).memsOk = true ∧
    byteAt (sending (fun tl => { tl with ver := [(0, 1)] }) .stv .pr 0#64 4) (.version 0 0) = 1#8 :=
  ⟨performs_of (by decide) (.inl rfl), performs_of (by decide) (.inl rfl), performs_of (by decide) (.inl rfl), by decide, by decide, by decide,
    by decide⟩
theorem test_meets_join_counters : Performs (sending id .jdec .sp 0#64 4) (sentBy (mapped id) .jdec .sp 0#64 4) (.sp 0 0) ∧
    leNat ((List.range 4).map fun j => byteAt (sending (fun tl => { tl with sp := [(0, 1)] }) .jdec .sp 0#64 4) (placeByte (.sp 0 0) j)) = 1 ∧
    cohortOf (sending id .jdec .sp 0#64 4) 0 = some (cohortKey 0 0 false, plainCohort, 0) :=
  ⟨performs_of (by decide) (.inl rfl), by decide, by decide⟩
theorem test_meets_wakes : let m := newMessage (taskBut id) 5 0#20 .free (.wake .sp 8#64)
    let r : Resident := ⟨blankRec, .join .sp 8#64, false, 0, none, none⟩
    let s := { tileBut fun tl => { tl with resident := [r] } with net := [m] }
    msgOf s m.id = some m ∧ canonAddr 0 .sp 8#64 = (.pr, 8#64) ∧ (tileOf s 0).resident[0]? = some r ∧
      (let a := { rereadAccess 0 r .sp 8#64 with id := s.nextId };
       reach s a = .at (.sp 0 8) ∧ rereadMay s a = true ∧ (performAt s a (.sp 0 8)).1 = .value 0#256 ∧
        rereadMay { s with accs := [newAccess s .store .sp 8#64 4] } { a with id := 1 } = false) := by decide
theorem test_meets_barriers : let s (arr exp : BitVec 16) (pend : BitVec 56) := tileBut fun tl => { tl with
      nbar := tl.nbar.set 31 { NBar.zero with arr := arr, exp := exp, pend := pend } }
    Performs (sending id (.arrive 31) .pr 0#64 4) (sentBy (mapped id) (.arrive 31) .pr 0#64 4) (.sp 0 0) ∧
      (barAt (s 0 2 0) 0 31).arr.toNat + 1 < (barAt (s 0 2 0) 0 31).exp.toNat ∧
      (barAt (s 1 2 0) 0 31).arr.toNat + 1 = (barAt (s 1 2 0) 0 31).exp.toNat ∧ (barAt (s 1 2 0) 0 31).pend = 0#56 ∧
      (barAt (s 0 2 1) 0 31).pend + 1#56 ≠ 0#56 :=
  ⟨performs_of (by decide) (.inl rfl), by decide, by decide, by decide, by decide⟩
theorem test_meets_faults : let s (space : Space) (ea : DWord) := sending id .load space ea 4
    (∀ e ∈ [(Space.sp, 0x30000#64), (.ql, 0x100000#64), (.gl, 0x200000000000000#64), (.pr, 0x100000000#64)],
      (s e.1 e.2).accs.find? (fun b => b.id == 0) = some (sentBy (mapped id) .load e.1 e.2 4) ∧
        mayPerform (s e.1 e.2) (sentBy (mapped id) .load e.1 e.2 4) = true ∧ replicaOf (s e.1 e.2) 0 e.2 = none) ∧
      sameCohort (s .pr 0x100000000#64) 0 1 = false := by decide
theorem test_meets_results : let a := { sentBy (mapped id) .load .sp 0#64 4 with dest := .a 15#4, res := some (.value 7#256) }
    let s := { mapped fun tl => { tl with task := { tl.task with
      a := tl.task.a.set 15 ⟨0#64, .pending 0⟩, lq0 := [⟨0, .waiting 0⟩], lq1 := [⟨0, .waiting 0⟩] } } with accs := [a] }
    s.accs.find? (fun b => b.id == a.id) = some a ∧ (tileOf s a.tile).task.act = a.act ∧
      (tileOf s a.tile).task.a[(15#4 : BitVec 4).toFin].st = .pending a.id ∧ (tileOf s a.tile).run = .running ∧
      (tileOf s a.tile).task.gtid = a.gtid ∧ chan5 a = false ∧ savedWith s a = none := by decide
-- R135: a fault that comes back after its task has suspended is logged where the task stands; R279: or in its save area.
theorem test_meets_late_results : let a := { sentBy (mapped id) .load .gl 0#64 4 with gtid := 7#64, act := 9, res := some (.fault .xlate) }
    let s := { mapped fun tl => { tl with deque := [{ blankRec with gtid := 7#64 }] } with accs := [a] }
    let s' := { mapped id with accs := [a], areas := [(0x100000, { savedArea with tiles := [(0, { Tile.idle with task := { Task.zero with gtid := 7#64 }, run := .running })] })] }
    (tileOf s a.tile).task.act ≠ a.act ∧ taskTile s a.tile a.gtid = some 0 ∧ savedWith s a = none ∧ (savedWith s' a).isSome = true := by decide
theorem test_meets_descriptors : let field (v : Vec) (lo len : Nat) : Nat := v.toNat / 2 ^ lo % 2 ^ len
    let v : Vec := BitVec.ofNat 256 (2 + 2 * 2 ^ 32 + 4 * 2 ^ 48 + 64 * 2 ^ 128)
    let a := { sentBy (mapped id) .tdef .sp 0#64 32 with dest := .tensor 63#6, res := some (.value v) }
    ({ mapped id with accs := [a] }).accs.find? (fun b => b.tile == a.tile && b.op == AccOp.tdef && b.dest == Dest.tensor (BitVec.ofNat 6 63) && b.res.isSome) =
      some a ∧ field v 0 5 < 28 ∧ field v 5 19 = 0 ∧ field v 160 32 = 0 ∧ field v 32 16 ≠ 0 ∧ field v 48 16 ≠ 0 ∧ field v 24 8 = 0 ∧
      field v 64 62 % 4 = 0 ∧ field v 128 32 % 4 = 0 ∧ (fmt 2).scale = .none ∧ rowBytes 2 (field v 48 16) ≤ field v 128 32 ∧
      28 ≤ field 28#256 0 5 ∧ field 0#256 32 16 = 0 := by decide
theorem test_meets_plaza_accesses : (mapped id).memsOk = true ∧ (0 : Nat) + 64 ≤ 3 * 2 ^ 40 ∧ queuedAt (mapped id) 0 64 = false ∧
    heldLine (mapped id) 0 64 = none ∧ (mapped id).damage = [] ∧ (mapped id).homeQ = [] ∧ (coreAt (mapped id) 511).resv = none ∧
    (3 : Nat) < 4 ∧ 2 ^ 48 - 8 + 8 ≤ 2 ^ 48 := by decide
-- R257: an AMO, and a store-conditional whose reservation a store to the same bytes has ended.
theorem test_plaza_amo : (let t := after (.homeAccess (.plazaAmo 3 0x1008 0#4 false false 0x10#64)) (mapped id);
    (t.reply, memRead t.edge 0x1008 4)) = (⟨.done, [0, 0, 4, 0]⟩, [0x10, 0, 4, 0]) := by decide
theorem test_plaza_sc_fails : (let t := after (.homeAccess (.plazaLr 3 0x1008 false)) (mapped id);
    let u := after (.homeAccess (.plazaStore 4 0x100a [9])) t;
    let v := after (.homeAccess (.plazaSc 3 0x1008 false false 7#64)) u;
    (v.reply, memRead v.edge 0x1008 4)) = (⟨.done, [1, 0, 0, 0]⟩, [0, 0, 9, 0]) := by decide
-- R256: the write held behind a line is performed once the line has been given up.
theorem test_meets_home_order : let s := { taskBut id with
      ports := [(0, { Port.blank with cached := [64] })], homeQ := [⟨.port 0, 0x1000, [1, 2]⟩] }
    s.memsOk = true ∧ s.homeQ = [⟨.port 0, 0x1000, [1, 2]⟩] ∧ linesOf 0x1000 2 = [0x1000 / 64] ∧ hostHolds s 0x1000 = true := by decide
theorem test_held_write_drains : (let s := { taskBut id with ports := [(0, { Port.blank with cached := [64] })], homeQ := [⟨.port 0, 0x1000, [1, 2]⟩] };
    let t := after (.backInvalidationResponse 0x1000) s; (t.homeQ, memRead t.edge 0x1000 2)) = ([], [1, 2]) := by decide
theorem test_meets_fetch : (tileOf (mapped id) 0).run = .running ∧ (0#64 : DWord).toNat = lineOf (tileOf (mapped id) 0).task.pc ∧
    (tileOf (mapped id) 0).lines = [] ∧ (match fetchLine (mapped id) 0 0#64 with
      | some (.ok l, _) => l.base == 0
      | _ => false) = true ∧
    (match fetchLine { mapped id with damage := [.edge 0 1#32] } 0 0#64 with
      | some (.error c, _) => c == .dataError
      | _ => false) = true ∧
    (walk (mapped id) 1 0#64).isSome = true := by decide
theorem test_meets_full_replay_queue : let e : ReplayEntry := ⟨0#64, 8#64, 0#4, 0#8, 0, 0#5, 2#3, .gl, 0#8, 1#8, .xlate, 0#64, 0#256, 0#64, 0#3, none⟩
    let s := tileBut fun tl => { tl with replay := List.replicate 32 e }
    (tileOf s 0).run = .running ∧ 32 ≤ (tileOf s 0).replay.length ∧ reportable s 0 = e :: List.replicate 31 e ∧ s.accs = [] ∧ s.net = [] ∧
      haltAllows (tileOf s 0) = true ∧ haltAllows { tileOf s 0 with halt := .held false } = false ∧
      (let a := newAccess s .store .sp 0#64 4; sameTask s 0 (tileOf s 0).task.gtid a.tile a.gtid = true) := by
  decide


/-! ## Hypotheses that can be met: messages that arrive, the choice of a task, stealing -/

/-- A message of tile 0's task to tile 0, with this body. -/
def mailed (chan : Nat) (dst : BitVec 20) (g : Guard) (b : Body) : Msg := newMessage (mapped id) chan dst g b

/-- Tile 0 as `f` makes it, with one message on its way. -/
def mailing (f : Tile → Tile) (m : Msg) : State := { mapped f with net := [m] }

/-- An inbox entry of this order. -/
def inboxMsg (order : Nat) : InboxMsg := ⟨0, 4, order, false⟩

/-- A record that waits for a message, or, if `ready`, that has been given one. -/
def waiting (order : Nat) (ready : Bool) : Resident := ⟨blankRec, .msg, ready, order, none, none⟩

theorem test_meets_inbox : let m (g : Guard) (d : BitVec 20) := mailed 5 d g (.inbox [1#8, 2#8])
    let s := mailing id (m .free 0#20)
    let full := mailing (fun tl => { tl with inbox := Vector.replicate 8 (some (inboxMsg 1)) }) (m .free 0#20)
    s.memsOk = true ∧ msgOf s 0 = some (m .free 0#20) ∧ (m .discarded 0#20).guard = .discarded ∧ (m (.bound 1 2) 0#20).guard.isBound = true ∧
      msgMay s (m .free 0#20) = true ∧ earlierDone s (m .free 0#20).src (m .free 0#20).gtid 0 5#3 = true ∧
      placedAway s 0 0 = false ∧ (tileOf s 0).halt ≠ .migrate ∧
      placedAway { setLaunch s 0 { plainLaunch with card := 3#1024 } with
        cohorts := [(cohortKey 0 0 false, { plainCohort with status := .saved 0#64 false })] } 0 0 = true ∧
 kerbTile s (m .free 0#20).tag 0 = true ∧
      kerbTile s (m .free 0#20).tag 0xffff = false ∧ cohortOf s 0 = some (cohortKey 0 0 false, plainCohort, 0) ∧
      cohortOf s 1 = none ∧ plainCohort.launch = (m .free 0#20).launch ∧ plainCohort.launch ≠ 7 ∧ plainCohort.status = .resident ∧
      (tileOf s 0).inbox[0] = none ∧ (∀ n : Fin 8, (tileOf full 0).inbox[n] ≠ none) ∧
      cohortOf { s with cohorts := [(cohortKey 0 0 false, { plainCohort with status := .halted })] } 0 =
        some (cohortKey 0 0 false, { plainCohort with status := .halted }, 0) := by decide
-- R224: what stands at a full inbox holds back what comes later on channel 5, of any sender.
theorem test_meets_stuck_message : let m := mailed 5 0#20 .free (.inbox [1#8])
    let s := mailing (fun tl => { tl with stuck := some 0 }) m
    inputBusy s 0 7 = true ∧ inputBusy s 0 0 = false ∧ inputBusy (mapped id) 0 7 = false ∧ unitNamed 0#20 = (0, 0) := by decide
-- R187: an engine's message for a task's command that is refused.
theorem test_meets_engine_refusal : outsideRegions 0x60000#20 = true ∧ framed (taskBut id) 0#64 = false ∧
    (dieAt (taskBut id) 0).mailbox.length < 256 ∧ taskTile (taskBut id) 0 0#64 = some 0 := by decide
theorem test_meets_last_inbox_slot : let tl := tileOf (tileBut fun tl => { tl with
      inbox := #v[some (inboxMsg 1), some (inboxMsg 2), some (inboxMsg 3), some (inboxMsg 4), some (inboxMsg 5), some (inboxMsg 6), some (inboxMsg 7), none] }) 0
    tl.inbox[7] = none ∧ ∀ n : Fin 8, n < 7 → tl.inbox[n] ≠ none := by decide
theorem test_meets_message_given : ∃ (tl : Tile) (n : Fin 8), tl.inbox[n] = some (inboxMsg 0) ∧ (inboxMsg 0).consumed = false ∧
    (∀ (n' : Fin 8) (m' : InboxMsg), n' ≠ n → tl.inbox[n'] = some m' → m'.consumed = false → (inboxMsg 0).order < m'.order) ∧
    tl.resident = [] ++ waiting 1 false :: [waiting 2 false] ∧ waitsMsg (waiting 1 false) = true ∧
    ∀ x ∈ [] ++ [waiting 2 false], waitsMsg x = true → (waiting 1 false).order < x.order := by
  refine ⟨{ tileOf (taskBut id) 0 with
    inbox := (Vector.replicate 8 none).set 7 (some (inboxMsg 0)), resident := [waiting 1 false, waiting 2 false] }, 7, by decide, by decide, ?_,
    rfl, by decide, by decide⟩
  intro n' m' h1 h2
  have : ∀ n' : Fin 8, n' ≠ 7 → ((Vector.replicate 8 none).set 7 (some (inboxMsg 0)) : Vector (Option InboxMsg) 8)[n'] = none := by decide
  rw [this n' h1] at h2
  cases h2
theorem test_meets_put : let m (g : Guard) (d : BitVec 20) := mailed 5 d g (.put 7 9#32)
    let s := mailing id (m .free 0#20)
    msgOf s 0 = some (m .free 0#20) ∧ msgMay s (m .free 0#20) = true ∧ sameCohort s 0 0 = true ∧ sameCohort s 0 1 = false ∧
      takesWords s 0 = true ∧ (tileOf s 0).e[(7 : Fin 8)] = none ∧
      (tileOf (mailing (fun tl => { tl with e := Vector.replicate 8 (some 1#32) }) (m .free 0#20)) 0).e[(7 : Fin 8)] ≠ none ∧
      takesWords (mailing (fun tl => { tl with closed := true }) (m .free 0#20)) 0 = false := by decide
theorem test_meets_ring_value : let s := tileBut fun tl => { tl with riNet := [(7, 5#32)] }
    (tileOf s 0).riNet = [(7, 5#32)] ∧ takesWords s 0 = true ∧ (tileOf s 0).ri.length < 4 ∧ 4 ≤ [1#32, 2#32, 3#32, 4#32].length ∧
      sentBefore s 0 (ringPredecessor s 0) 7 = false ∧ takesWords (tileBut fun tl => { tl with closed := true }) 0 = false ∧
      (let m := newMessage s 5 0#20 .free (.put 7 9#32); ringPredecessor s 0 = 0 ∧ sentBefore { s with net := [m] } 0 0 7 = true) := by decide

/-- Tile 0 with no task, as `f` makes it. -/
def idleBut (f : Tile → Tile) : State := tileBut fun tl => f { tl with run := .idle }

theorem test_meets_select : freeToRun (taskBut id) 0 = false ∧ freeToRun (idleBut id) 0 = true ∧ answered (idleBut id) 0 = none ∧
    blankRec.bad = false ∧ (tileOf (idleBut fun tl => { tl with unplaced := some blankRec }) 0).unplaced = some blankRec ∧
    (tileOf (idleBut fun tl => { tl with reserved := [(3, blankRec)] }) 0).reserved = [] ++ [(3, blankRec)] ∧
    (tileOf (idleBut id) 0).unplaced = none ∧ (tileOf (idleBut id) 0).reserved = [] ∧ (tileOf (idleBut id) 0).overflow = [] ∧
    (tileOf (idleBut fun tl => { tl with resident := [waiting 4 true, waiting 3 true] }) 0).resident =
      [waiting 4 true] ++ waiting 3 true :: [] ∧ (∀ x ∈ [waiting 4 true] ++ [], x.ready = true → (waiting 3 true).order < x.order) ∧
    (∀ x ∈ (tileOf (idleBut id) 0).resident, x.ready = false) ∧
    (tileOf (idleBut fun tl => { tl with deque := [blankRec] }) 0).deque = [] ++ [blankRec] ∧
    (tileOf (idleBut fun tl => { tl with spill := [blankRec] }) 0).spill = [] ++ [blankRec] ∧
    { blankRec with pcw := 0xffffffffffffffff#64 }.bad = true := by decide

/-- A frame of tile 0's task at address 0x10000 of the panel, in the state that it was written from. -/
def frameOf (r : List ReplayEntry) (a : Option FrameAnswer) : Frame :=
  { tile := 0
    trap := { code := .brk, xside := false, precise := true, info := 0xff#8, pc := 0#64, apc := 0#64, arg0 := 0#64, arg1 := 0#64,
              arg2 := 0#64, rpc := 8#64, xpushed := false }
    task := Task.zero, replay := r, held := [], heldMsgs := [], matq := [], copies := [], chainq := [], vshare := 1#4, crc := 0#32, crcOk := true, answer := a }

/-- Tile 0 is idle and a frame of its task stands at 0x10000, and in edge memory there. -/
def inFrame (a : Option FrameAnswer) : State :=
  { putRegion (idleBut id) 0x10000 frameSize (frameImage (frameOf [] a)) with frames := [(0x10000, frameOf [] a)] }

theorem test_meets_answered : answered (inFrame (some (.go true true))) 0 = some (0x10000#64, frameOf [] (some (.go true true)), true, true) ∧
    regionHeld (inFrame (some (.go true true))) 0x10000 frameSize = none ∧ freeToRun (inFrame (some (.go true true))) 0 = true := by decide
theorem test_meets_sound_frame : frameSpoilt (inFrame (some (.go true true))) 0x10000#64 (frameOf [] (some (.go true true))) = false := by decide +kernel
theorem test_meets_changed_frame : frameSpoilt { inFrame none with edge := memWrite (inFrame none).edge 0x10000 [1] } 0x10000#64 (frameOf [] none) = true := by decide +kernel
theorem test_meets_held_frame : (regionHeld { inFrame none with ports := [(0, { Port.blank with cached := [0x10000 / 64 + 1023] })] } 0x10000 frameSize).isSome = true := by
  decide

/-- Two teams of one task, on quads 0 and 1: tile 0 is idle, and tile 2 is as `f` makes it. -/
def twoTiles (f : Tile → Tile) : State :=
  let s := setCohort (setQuad (idleBut id) 1 { quadAt (idleBut id) 1 with team := some (cohortKey 0 0 false, 1) })
    (cohortKey 0 0 false) { plainCohort with quads := [0, 1], live := 2 }
  setTile s 2 (f (tileOf (taskBut id) 0))

theorem test_meets_steals : let s := twoTiles fun tl => { tl with deque := [blankRec, blankRec] }
    let s' := twoTiles fun tl => { tl with spill := [blankRec] }
    freeToRun s 0 = true ∧ noSteal s 0 = false ∧ nothingOwn s 0 = true ∧ (victims s 0).find? (fun u => stealable s u) = some 2 ∧
      sentBefore s 2 0 s.nextId = false ∧ wordAhead s 0 2 s.nextId = false ∧ (tileOf s 0).replay = [] ∧ (tileOf s 2).replay = [] ∧
      (tileOf s 2).spill = [] ∧ (tileOf s 2).deque = blankRec :: [blankRec] ∧ (victims s' 0).find? (fun u => stealable s' u) = some 2 ∧
      (tileOf s' 2).spill = [blankRec] ∧ (victims (twoTiles id) 0).find? (fun u => stealable (twoTiles id) u) = none ∧
      freeToRun (twoTiles id) 0 = true ∧ noSteal (twoTiles id) 0 = false ∧ nothingOwn (twoTiles id) 0 = true := by decide
theorem test_meets_landing : (tileOf (idleBut fun tl => { tl with landing := some (2, 7, blankRec) }) 0).landing = some (2, 7, blankRec) ∧
    (blankRec.setTransit false).bad = false ∧
    (let s := idleBut fun tl => { tl with landing := some (2, 7, blankRec) };
     freeToRun (setTile s 0 { tileOf s 0 with landing := none }) 0 = true ∧ (sentBefore s 0 2 7 || wordAhead s 2 0 7) = false ∧
      (let m := { newMessage s 5 0#20 .free (.put 7 9#32) with src := 2 }; sentBefore { s with net := [m] } 0 2 7 = true)) ∧
    (let s := tileBut fun tl => { tl with landing := some (2, 7, blankRec), halt := .held false };
     freeToRun (setTile s 0 { tileOf s 0 with landing := none }) 0 = false ∧ haltAllows (tileOf s 0) = false) := by decide

-- R17: a message of tag 0 to a reserved selector, and its record; the premises of that clause hold at reset.
theorem meets_stray_message : (dieAt State.reset 0).mailbox.length < 256 ∧ ((0x60000#20).extractLsb' 16 4).toNat = 6 := by decide

/-! ## Hypotheses that can be met: frames, resolutions, the panel's registers, sessions and samples -/

/-- Tile 0 has stopped on the trap of `frameOf`, with one frame address in the pool of its die. -/
def stopped (fp : List DWord) (f : Tile → Tile) : State :=
  setDie (tileBut fun tl => f { tl with run := .stopping (frameOf [] none).trap }) 0 { Die.blank with fp := fp }

theorem test_meets_frame_write : let i := (frameOf [] none).trap
    let s := stopped [0x10000#64] id
    (tileOf s 0).run = .stopping i ∧ (dieAt s (dieOf 0)).fp = 0x10000#64 :: [] ∧ frameReady s 0 i = true ∧ recordsFull s 0 = false ∧
      (dieAt (stopped [] id) (dieOf 0)).fp = [] ∧ regionHeld s (0x10000#64 : DWord).toNat 0x10000 = none ∧ s.memsOk = true ∧
      (regionHeld { s with ports := [(0, { Port.blank with cached := [0x10000 / 64] })] } (0x10000#64 : DWord).toNat 0x10000).isSome = true := by decide
theorem test_meets_frame_image : ∀ c ∈ frameImage (frameOf [] none), c.1 < 0x10000 := by decide +kernel
theorem test_meets_records_full : let r : TrapRecord := ⟨0, 0, false, false, true, 0, 0#8, .brk, 0#64, 0#64, 0#64, 0#64, 0#64, 0#64, 0#64⟩
    let s := stopped [0x10000#64] fun tl => { tl with records := List.replicate 17 r }
    recordsFull s 0 = true ∧ (tileOf s 0).records = r :: List.replicate 16 r ∧ (dieAt s (dieOf 0)).mailbox.length < 256 ∧
      256 ≤ (List.replicate 256 r).length ∧
      frameReady (stopped [] fun tl => { tl with replay := [], longq := [⟨.waddF32 ⟨0#3, 1#6, 2#6, 3#6⟩, 0#32, 0#32, 0#3⟩] }) 0
        (frameOf [] none).trap = false := by decide

/-- Die 0's RESOLVE0 names the frame at 0x10000 and tile 0. -/
def resolving (s : State) : State := setDie s 0 { dieAt s 0 with resolve0 := 0x10000#64 }

theorem test_meets_resolutions_of_frames : let s := resolving (inFrame none)
    targetOf (inFrame none) 0 = .nothing ∧ targetOf s 0 = .frame 0x10000#64 (frameOf [] none) ∧ frameInPlace s (frameOf [] none) = true ∧
      cohortOf s 0 = some (cohortKey 0 0 false, plainCohort, 0) ∧ (frameOf [] none).copies = [] ∧
      smFind (launchOf s 0) s.launches = some plainLaunch ∧ plainLaunch.failed = none ∧
      frameInPlace { s with cohorts := [(cohortKey 0 0 false, { plainCohort with status := .saved 0#64 false })] } (frameOf [] none) = false := by
  decide
theorem test_meets_resolutions_of_halts : let c := { plainCohort with status := .halted }
    let s (f : Tile → Tile) := { tileBut f with cohorts := [(cohortKey 0 0 false, c)] }
    let c' := { plainCohort with status := .stranded true }
    (tileOf (s id) 0).halt ≠ .migrate ∧ (tileOf (s fun tl => { tl with halt := .migrate }) 0).halt = .migrate ∧ targetOf (s id) 0 = .halted 0 (cohortKey 0 0 false) c ∧ (tileOf (s id) 0).run = .running ∧ (tileOf (s fun tl => { tl with run := .idle }) 0).run ≠ .running ∧
      smFind c.launch (s id).launches = some plainLaunch ∧ c.status = .halted ∧
      targetOf { tileBut id with cohorts := [(cohortKey 0 0 false, c')] } 0 = .halted 0 (cohortKey 0 0 false) c' ∧ c'.status ≠ .halted := by decide
theorem test_meets_frames_resume : let e (action : BitVec 4) : ReplayEntry :=
      ⟨0#64, 8#64, action, 0#8, 0, 15#5, 2#3, .gl, 0#8, 1#8, .xlate, 0#64, 0#256, 0#64, 0#3, some .load⟩
    let s := taskBut fun k => k.putA 15#4 ⟨0#64, .poisoned .xlate 8#64⟩
    let b : Slab := ⟨spTensor 2 32 16 0, 0, 16, []⟩
    let held : State := taskBut fun k => { k with ring := some b }
    (tileOf (taskBut id) 0).task.ring = none ∧ (tileOf held 0).task.ring = some b ∧ (frameOf [] none).task.ring = none ∧
      (frameOf [] none).task.bl = none ∧ { Task.zero with bl := some b }.bl ≠ none ∧ { Task.zero with ring := some b }.ring ≠ none ∧
    (frameOf [] none).replay = [] ∧ (e 2#4).kind ≠ 10#8 ∧ (15#4 : BitVec 4) ≠ 0#4 ∧ (e 2#4).dest = (15#4 : BitVec 4).setWidth 5 ∧
      (e 2#4).action = 2#4 ∧ (e 2#4).kind ≠ 7#8 ∧ (tileOf s 0).task.a[(15#4 : BitVec 4).toFin].st = .poisoned (e 2#4).code (e 2#4).ea ∧
      (tileOf (taskBut id) 0).task.a[(15#4 : BitVec 4).toFin].st ≠ .poisoned (e 2#4).code (e 2#4).ea ∧ (e 3#4).action ≠ 1#4 ∧
      (e 3#4).action ≠ 2#4 ∧ (e 1#4).action = 1#4 ∧ (e 1#4).what = some .load := by decide
theorem test_meets_frame_edits : (frameOf [] none).crcOk = true ∧ (15#4 : BitVec 4) ≠ 0#4 ∧ (47#6 : BitVec 6) ≠ 0#6 ∧ (47#6 : BitVec 6).toNat < 48 := by
  decide
theorem test_meets_panel_block : let w : BlockAccess := ⟨0, false, 63, 8, 0x10000#64⟩
    let r : TrapRecord := ⟨0, 0, false, false, true, 0, 0#8, .brk, 0#64, 0#64, 0#64, 0#64, 0#64, 0#64, 0#64⟩
    let s := taskBut id
    w.guest = false ∧ w.width = 8 ∧ w.val.toNat % 65536 = 0 ∧ w.val.toNat < 3 * 2 ^ 40 ∧ (dieAt s 63).fp.length < (dieAt s 63).fpsize.toNat ∧
      (dieAt (setDie s 63 { Die.blank with fp := List.replicate 8 0#64 }) 63).fpsize.toNat ≤ 8 ∧ (1#64 : DWord).toNat % 65536 ≠ 0 ∧
      3 * 2 ^ 40 ≤ (0x30000000000#64 : DWord).toNat ∧ (dieAt (setDie s 63 { Die.blank with mailbox := [r] }) 63).mailbox = r :: [] ∧
      (dieAt s 63).mailbox = [] ∧ (coreAt s 0).accValid = false ∧
      (coreAt (setCore s 0 { coreAt s 0 with accValid := true }) 0).accValid = true := by decide
theorem test_meets_register_reads : let r (off width : Nat) (g : Bool) : CfgRead := ⟨511, g, off, width⟩
    (63 : Nat) < 64 ∧ (r (0x1000 + 4 * 63) 4 false).off = 0x1000 + 4 * 63 ∧ (16383 : Nat) < 16384 ∧
      (r (0x10000 + 4 * 16383) 4 false).off = 0x10000 + 4 * 16383 ∧ (r 0x140 32 false).width = 32 ∧ (r 0 8 true).guest = true ∧
      0x10000 + 4 * 16383 < 0x30000 ∧ 0x30000 + 8 * 511 < 0x200000 ∧ 0x200000 + 0x40 * 63 + 0x28 < 0x201000 ∧ 0x800000 + 0x1000 * 63 + 0x100 < 0x1000000 ∧
      0x1000000 + 0x1000 * 255 + 0x100 + 8 * 15 < 0x1100000 ∧ 0x40 + 4 * 15 < 0x100 ∧ (511 : Nat) < 512 ∧ (255 : Nat) < 256 := by decide
theorem test_meets_register_writes : let w (off width : Nat) (v : DWord) : CfgWrite := ⟨0, false, off, width, v⟩
    let s := taskBut id
    (63 : Nat) < 64 ∧ (w (0x800000 + 0x1000 * 63 + 0x60) 8 5#64).off = 0x800000 + 0x1000 * 63 + 0x60 ∧ (0x30000000000#64 : DWord).toNat % 4096 = 0 ∧
      (0x2fffffff000#64 : DWord).toNat < 3 * 2 ^ 40 ∧ (dieAt s 63).fp = [] ∧ (dieAt (stopped [0#64] id) 0).fp ≠ [] ∧
      (65536#64 : DWord) = BitVec.ofNat 64 (2 ^ 16) ∧ (∀ n, 3 ≤ n → n ≤ 16 → (7#64 : DWord).toNat ≠ 2 ^ n) ∧ 0x140 ≤ (w 0x15f 8 0#64).off ∧
      (w 0x15f 8 0#64).off < 0x160 ∧ (w (0x1000000 + 0x1000 * 255 + 0x40 + 4 * 15) 4 0x11#64).off = 0x1000000 + 0x1000 * 255 + 0x40 + 4 * 15 ∧
      (sessionAt s 255).open_ = false ∧ 0x1100000 ≤ (w 0x1100000 8 0#64).off :=
  ⟨by decide, by decide, by decide, by decide, by decide, by decide, by decide,
    (fun n h1 h2 => by rcases Nat.exists_eq_add_of_le h1 with ⟨k, rfl⟩; have := Nat.pow_le_pow_right (n := 2) (by decide) h1; intro h; simp at h; omega),
    by decide, by decide, by decide, by decide, by decide⟩
theorem test_meets_sessions : let s := setSession (taskBut id) 1 { sessionAt (taskBut id) 1 with open_ := true }
    let k := coreAt (taskBut id) 0
    let s' := setCore (taskBut id) 0 { k with shValid := true, shTag := 255#8, shSlot := 15#4 }
    (sessionAt s 1).open_ = true ∧ (sessionAt (taskBut id) 1).open_ = false ∧ (coreAt s' 0).shValid = true ∧ (coreAt s' 0).shTag.toNat = 255 ∧
      (coreAt s' 0).shSlot.toNat = 15 ∧ k.shValid = false ∧ (dieAt s 0).ring.on = 0#2 ∧ (3#64 : DWord).setWidth 2 ≠ 0#2 ∧
      tagOf (mapped id) 0 = 1 ∧ tagOf (mapped id) 65535 ≠ 1 := by decide
theorem test_meets_ring_records : let s := setRing (taskBut id) (.die 0) ⟨0x1000#64, 0x100#64, 0xf0#64, 0#64, 0#32, 0#32, 3#2⟩
    s.memsOk = true ∧ (255 : Nat) < 256 ∧ ([] : List Byte).length < 2 ^ 20 ∧
      ((ringOf s (.die 0)).widx - (ringOf s (.die 0)).ridx).toNat + 16 ≤ (ringOf s (.die 0)).size.toNat ∧
      (ringOf s (.die 0)).widx.toNat % (ringOf s (.die 0)).size.toNat + 16 ≤ (ringOf s (.die 0)).size.toNat ∧
      (ringOf (taskBut id) (.die 0)).size.toNat < ((ringOf (taskBut id) (.die 0)).widx - (ringOf (taskBut id) (.die 0)).ridx).toNat + 16 := by
  decide
theorem test_meets_pulse : let s := setDie (taskBut id) 0 { Die.blank with ring := { Die.blank.ring with on := 3#2 } }
    let s' := { s with pulse := ⟨0#64, [clusterOf 0]⟩ }
    s.pulse.todo = [] ∧ s'.pulse.todo ≠ [] ∧ clusterOf 0 ∈ s'.pulse.todo ∧ s'.pulse.tick.toNat ≤ s'.clk ∧ (tileOf s' 0).latch = none ∧
      clusterOf 0 ∉ s.pulse.todo ∧ s'.clk < (1#64 : DWord).toNat + s'.clk ∧ (dieAt s (dieOfCluster 0)).ring.on.getLsbD 1 = true ∧ (quadAt s 0).droopAt = none ∧
      (dieAt (taskBut id) (dieOfCluster 0)).ring.on.getLsbD 1 = false := by decide
theorem test_meets_marks : let line : FetchLine := ⟨0, memWrite [] 0 [5, 0, 0x0c, 0x88, 0, 0, 0, 0]⟩
    let se : Session := { sessionAt (taskBut id) 0 with open_ := true, sper := 31#5 }
    let m : Mark := ⟨0#64, 0#64, false, false, true, 0, 0, 0, false, 0⟩
    let s := setSession (tileBut fun tl => { tl with lines := [line] }) 0 se
    let s' := tileBut fun tl => { tl with mark := some m }
    (sessionAt s (tagOf s 0)).open_ = true ∧ (sessionAt s (tagOf s 0)).sper ≠ 0#5 ∧ (tileOf s 0).gap = 0 ∧ (tileOf s 0).mark = none ∧
      (tileOf s 0).run = .running ∧ (tileOf s 0).halt = .none ∧ (tileOf s 0).task.xpushed = false ∧ (nextBundle s 0).isSome = true ∧
      (tileOf s' 0).mark = some m ∧ m.out = true ∧ markWaits (tileOf s' 0).task m = false ∧ markTrapped s' 0 m = false := by decide

/-! ## Hypotheses that can be met: pre-emption, migration, power -/

/-- A plain cohort of this status and the state of its saving: its tile is as `f` makes it. -/
def cohorted (st : CohortStatus) (f : Tile → Tile) : State :=
  { tileBut f with cohorts := [(cohortKey 0 0 false, { plainCohort with status := st })] }

/-- A request descriptor at 0x100 that names launch 0 and one save area, at 0x100000, in the table at 0x200. -/
def asked (s : State) : State :=
  { s with edge := memWrite (memWrite (memWrite (memWrite s.edge 0x100 [1]) 0x109 [2]) 0x110 [1]) 0x202 [0x10] }

theorem test_meets_preempts : let w (v : DWord) : BlockAccess := ⟨0, false, 0, 8, v⟩
    let s := asked (cohorted .resident id)
    (w 0#64).guest = false ∧ (w 0#64).width = 8 ∧ descriptorOk s 1#64 true = false ∧ descriptorOk s 1#64 false = false ∧ descriptorOk s 0x100#64 true = true ∧
      preemptSet s (memDWord s.edge 0x100) = [cohortKey 0 0 false] ∧ smFind (cohortKey 0 0 false) s.cohorts = some plainCohort ∧
      plainCohort.status = .resident ∧
      preemptSet (asked (cohorted .halted id)) (memDWord s.edge 0x100) = [cohortKey 0 0 false] := by decide
theorem test_meets_preemption_halts : let c := { plainCohort with status := .halting false }
    let s (f : Tile → Tile) := cohorted (.halting false) f
    cohortOf (s id) 0 = some (cohortKey 0 0 false, c, 0) ∧ (tileOf (s id) 0).halt = .none ∧
      (let x := s fun tl => { tl with halt := .preempt false }; tileStill x (cohortKeeps x c) 0 = true) ∧
      (let x := s fun tl => { tl with halt := .preempt false, landing := some (2, 7, blankRec) }; tileStill x (cohortKeeps x c) 0 = false) ∧
      (tileOf (s fun tl => { tl with halt := .preempt true }) 0).halt = .preempt true ∧ (tileOf (s fun tl => { tl with halt := .migrate }) 0).halt = .migrate ∧
      allHalted (s id) c = false ∧ allHalted (s fun tl => { tl with halt := .preempt true }) c = true ∧ othersWait (s id) c = false ∧
      cohortOf (taskBut id) 0 = some (cohortKey 0 0 false, plainCohort, 0) ∧ plainCohort.status = .resident := by decide
theorem test_meets_saves : let s := cohorted (.halting false) fun tl => { tl with halt := .preempt true }
    let c := { plainCohort with status := .halting false }
    let r : Request := ⟨0x100#64, false, 0x200#64, 1, [cohortKey 0 0 false, 99], [cohortKey 0 0 false], 0, 0, false⟩
    let s1 := { asked s with requests := [r] }
    (allHalted s1 c = true ∧ ∀ t ∈ cohortTiles c, tileStill s1 (cohortKeeps s1 c) t = true) ∧
      ¬ (allHalted (cohorted (.halting false) id) c = true) ∧ smFind (cohortKey 0 0 false) s1.cohorts = some c ∧ c.status = .halting false ∧
      s1.requests.find? (fun r => !r.restore && r.order.contains (cohortKey 0 0 false)) = some r ∧
      areaFor s1 r c (r.order.idxOf (cohortKey 0 0 false)) = some 0x100000#64 ∧ areaFor s1 { r with count := 0 } c 0 = none ∧
      regionHeld s1 (0x100000#64 : DWord).toNat (areaSize c) = none ∧ s1.memsOk = true ∧ (∃ k ∈ r.todo, k ≠ cohortKey 0 0 false) ∧
      (regionHeld { s1 with ports := [(0, { Port.blank with cached := [0x100000 / 64] })] } (0x100000#64 : DWord).toNat (areaSize c)).isSome = true := by decide
theorem test_meets_area_image : ∀ x ∈ areaImage (cohorted (.halting false) fun tl => { tl with halt := .preempt true })
    { savedArea with cohort := { plainCohort with status := .halting false } }, x.1 < areaSize plainCohort := by decide +kernel

/-- A plain cohort has been saved at 0x100000, and a restore of it has been asked for. -/
def saved : State :=
  let s := { setQuad (idleBut id) 0 { quadAt (idleBut id) 0 with team := none } with
    cohorts := [(cohortKey 0 0 false, { plainCohort with status := .saved 0x100000#64 false, restoreAsked := some 0x100#64 })]
    areas := [(0x100000, savedArea)] }
  asked s

theorem test_meets_restores : let s := saved
    let c := { plainCohort with status := .saved 0x100000#64 false, restoreAsked := some 0x100#64 }
    let a := savedArea
    descriptorOk s 0x100#64 false = true ∧ s.areas = [(0x100000, a)] ∧ a.key = cohortKey 0 0 false ∧ smFind (cohortKey 0 0 false) s.cohorts = some c ∧
      tableNames s.edge (requestAt s 0x100#64 true []).table.toNat (requestAt s 0x100#64 true []).count 0x100000 = true ∧
      c.status = .saved 0x100000#64 false ∧ cohortPlaced s c = false ∧ { c with restoreAsked := none }.restoreAsked = none ∧
      quadsFree s c = true ∧ smFind (0x100000#64 : DWord).toNat s.areas = some a ∧
      a.cohort = { c with status := a.cohort.status, restoreAsked := a.cohort.restoreAsked, waiting := a.cohort.waiting } ∧
      smSorted s.areas = true ∧ c.waiting = [] ∧ s.frames = [] ∧ ((areaNow s 0x100000 a).tiles.map (·.1)).Nodup ∧ (cohortQuads c).Nodup ∧
      s.damage = [] ∧ hostPending s (0x100000#64 : DWord).toNat = false ∧ quadsFree (taskBut id) plainCohort = false := by decide
theorem test_meets_held_restore : let a := { sentBy (mapped id) .load .gl 0x1000#64 4 with tile := 0, gtid := 7#64 }
    let s := { saved with
      accs := [a]
      areas := [(0x100000, { savedArea with tiles := [(0, { Tile.idle with task := { Task.zero with gtid := 7#64 }, run := .running })] })] }
    hostPending s (0x100000#64 : DWord).toNat = true := by decide

/-- Physical quad 0 of cluster 0 is this hot, and its spares are cool if `cool`. -/
def heated (t : Int) (cool : Bool) : State :=
  let z : Sensor := ⟨t, 1, 0, false⟩
  let y : Sensor := ⟨if cool then 40 else 90, 1, 0, false⟩
  let s := setPQuad (taskBut id) (pquadOf (taskBut id) 0) { pquadAt (taskBut id) 0 with t0 := z, t1 := z }
  (upFrom 64 8).foldl (fun s p => setPQuad s p { pquadAt s p with t0 := y, t1 := y }) s

theorem test_meets_migrations : let s := heated 100 true
    hottest (pquadAt s (pquadOf s 0)) = some 100 ∧ (quadAt s 0).team = some (cohortKey 0 0 false, 0) ∧
      smFind (cohortKey 0 0 false) s.cohorts = some plainCohort ∧ mayMigrate s plainCohort = true ∧
      (∀ i, i < 4 → (tileOf s (tileAt 0 i)).halt = .none ∨ (tileOf s (tileAt 0 i)).halt = .held false) ∧ coolSpare s (0 / 64) = some 64 ∧ coolSpare (heated 100 false) (0 / 64) = none ∧
      hottest (pquadAt (heated 95 true) (pquadOf (heated 95 true) 0)) = some 95 := by decide
theorem test_meets_migration_ends : let s := setQuad (taskBut id) 0 { quadAt (taskBut id) 0 with target := some 64 }
    let c := plainCohort
    (quadAt s 0).target = some 64 ∧ cohortOfQuad s 0 = some (cohortKey 0 0 false, c) ∧ c.waiting = [] ∧ s.frames = [] ∧
      (∀ i, i < 4 → readyToMove s (cohortKeeps s c) (tileAt 0 i) = true) ∧
      (let s := taskBut fun k => { k with xinstr := [⟨.add ⟨0#3, 9#6, 7#6, 7#6⟩, 0#32, false, false, 0#64⟩] };
       readyToMove s (cohortKeeps s c) (tileAt 0 0) = false) := by decide
theorem test_meets_migrating_quad : let s := mailing (fun tl => { tl with halt := .migrate }) (newMessage (taskBut id) 5 0#20 .free (.put 7 9#32))
    let m := { newMessage (taskBut id) 5 0#20 .free (.put 7 9#32) with src := 4 }
    let a := { newAccess (taskBut id) .store .pr 0#64 4 with tile := 4 }
    (tileOf s 0).halt = .migrate ∧ unitNamed m.dst = (0, 0) ∧ (65536 ≤ m.src ∨ quadOf m.src ≠ quadOf 0) ∧ chan5 a = true ∧ prTile a.ea = 0 ∧
      quadOf a.tile ≠ quadOf 0 := by decide
theorem test_meets_operating_points : let s := taskBut id
    let s' := setQuad s 0 { quadAt s 0 with changing := some 3 }
    (quadAt s' 0).changing = some 3 ∧ (quadAt s 0).changing = none ∧
      (pquadAt (setPQuad s (pquadOf s 0) { pquadAt s 0 with fallback := true }) (pquadOf s 0)).fallback = true ∧
      smFind (cohortKey 0 0 false) s.cohorts = some plainCohort ∧ (smFind 0 (mapped id).tenants).isSome = true ∧
      (20000 :: s.mgmt.power).length < 100 ∧ 100 ≤ (20000 :: List.replicate 99 20000).length ∧
      1850000 < ((20000 :: List.replicate 99 20000).take 100).foldl (· + ·) 0 ∧
      ((2 :: List.replicate 99 2).take 100).foldl (· + ·) 0 ≤ 1850000 ∧
      (clusterAt (setCluster s 255 { clusterAt s 255 with grant := true }) 255).grant = true := by decide
theorem test_meets_module_reset : ({ taskBut id with mgmt := { (taskBut id).mgmt with undervolt := true } }).mgmt.undervolt = true := by decide
theorem test_meets_sensor_samples : let x : Sensor := ⟨40, 63, 2, false⟩
    x.bad = false ∧ x.same = 63 ∧ x.last = 40 ∧ x.differ = 2 ∧ 24 < (2 * (60 : Int) - 80).natAbs ∧ ((-20 : Int) ≤ -20 ∧ (-20 : Int) ≤ 150 ∧ x.last ≠ -20) ∧
      ((151 : Int) < -20 ∨ (150 : Int) < 151) := by decide
theorem test_meets_sensor_steps : let s := heated 40 true
    let med := median2 ((around s 0).flatMap fun x => allThermal (pquadAt s x))
    let new (t : Int) : PQuad := { pquadAt s 0 with
      t0 := sampleSensor (pquadAt s 0).t0 t (-20) 150 med, t1 := sampleSensor (pquadAt s 0).t1 t (-20) 150 med
      amp := sampleSensor (pquadAt s 0).amp 5 0 40 none }
    hottest (new 50) = some 50 ∧ hottest (new 106) = some 106 ∧ hottest (new 116) = some 116 ∧
      ([(new 50).t0, (new 50).t1, (new 50).amp].filter (·.bad)).length = 0 ∧
      ([(new 151).t0, (new 151).t1, (new 151).amp].filter (·.bad)).length = 2 ∧
      (pquadAt (setPQuad s 0 { pquadAt s 0 with limit := some 105 }) 0).limit = some 105 := by decide

/-- A state in which virtual state 0 of tile 0's cohort stands at P0. -/
def boosted : State :=
  let s := mapped id
  { s with tenants := [(0, ⟨0x1000, 0, 0, 0, [0]⟩)] }

theorem test_meets_boosts : let s := boosted
    wantsBoost s 0 = true ∧ (clusterAt s 0).boostClaim = none ∧ (clusterAt s 0).permits ≠ 0 ∧
      (∀ x ∈ clustersOfDie (dieOfCluster 0), x ≠ 0 → (clusterAt s x).boostClaim = none ∧ (clusterAt s x).grant = false) ∧
      0 ∈ clustersOfDie (dieOfCluster 0) ∧ (clusterAt s 0).grant = false ∧ wantsBoost (taskBut id) 0 = false ∧
      aboveNominal s 0 = false ∧ aboveNominal (setQuad s 63 { quadAt s 63 with point := 1 }) 0 = true ∧
      (clusterAt (setCluster s 0 { clusterAt s 0 with boostClaim := some 0, falling := true, permits := 0 }) 0).permits ≤ 1 := by decide

/-! ## Hypotheses that can be met: submission, admission, dispatch, retirement -/

/-- A card of kind GRID with one cohort of one task, these bits of its first doubleword besides. -/
def gridCard (bits : Nat) : BitVec 1024 := BitVec.ofNat 1024 (bits + 1)

/-- A launch of this card in region 1, with ticket 0 to be drawn on die `k`. -/
def ticketed (card : BitVec 1024) (k : Nat) : Launch := { plainLaunch with card, tag := 1, tickets := [(2 * k, ⟨0, 1⟩)] }

/-- Quad 0 is free, region 1 holds cluster 0, and this launch is admitted. -/
def open1 (l : Launch) : State :=
  let s := idleBut id
  { setQuad s 0 { quadAt s 0 with team := none, valid := true } with
    launches := [(0, l)], cohorts := [], regions := [(1, ⟨0, 0, 1, 1, 0, 0#256⟩)] }

theorem test_meets_submissions : let w : SlotWrite := ⟨3, 3, 128 * 31, true, List.replicate 128 0#8⟩
    let s := { taskBut id with pages := [(3 * 16384 + 3, ⟨1, false, false⟩)], mgmt := { (taskBut id).mgmt with step := 6 } }
    (w.whole = true ∧ w.bytes.length = 128 ∧ w.off % 128 = 0 ∧ w.off < 4096) ∧ pageOpen s (slotPage w) = true ∧
      (streamAt s (streamKey (slotPage w) (w.off / 128))).queue.length < 256 ∧ pageOpen (taskBut id) (slotPage w) = false ∧
      256 ≤ (List.replicate 256 (0#1024)).length ∧ ¬ (4096 : Nat) < 4096 := by decide
theorem test_meets_admissions : let p : Page := ⟨1, false, false⟩
    let s (c : BitVec 1024) := setStream { taskBut id with pages := [(3, p)] } (streamKey 3 31)
      { streamAt (taskBut id) 0 with queue := [c] }
    (streamAt (s (gridCard 0)) (streamKey 3 31)).queue = gridCard 0 :: [] ∧ smFind 3 (s (gridCard 0)).pages = some p ∧
      freeNumber (s (gridCard 0)) ≠ none ∧ refusal (s (gridCard 0)) p (gridCard 0) = none ∧
      refusal (s (gridCard 0)) p (gridCard (40 * 2 ^ 24)) = some (.privilege, 0) ∧
      invalidField (s (gridCard 0)) 1 0#1024 = some 0 ∧ invalidField (s (gridCard 0)) 1 (gridCard (2 ^ (64 + 127))) = none ∧
      ¬ (40 ≤ cardPrio (gridCard (2 ^ (64 + 127))) ∧ p.system = false) ∧ (gridCard (2 ^ (64 + 127))).getLsbD (64 + 127) = true := by decide
theorem test_meets_draws : let l := ticketed (gridCard 0) 0
    let s := open1 l
    chooseLaunch s 0 = some (0, l) ∧ cardKind l.card = 1 ∧ wokenTicket l 0 = none ∧ runWithTickets l (dieOfCluster 0) = some false ∧
      (∀ x ∈ clustersOfDie (dieOfCluster 0), x < 0 → (chooseLaunch s x).map (·.1) ≠ some 0) ∧
      smFind (2 * dieOfCluster 0 + 0) l.tickets = some ⟨0, 1⟩ ∧
      eligible { l with tickets := smSet (2 * dieOfCluster 0) ⟨1, 1⟩ l.tickets } 0 false = true ∧ chooseLaunch (taskBut id) 0 = none := by decide

theorem test_meets_lower_clusters : let l := ticketed (gridCard 0) 0
    let two (l : Launch) : State := let s := open1 l; { setQuad s 64 { quadAt s 64 with team := none, valid := true } with
      regions := [(1, ⟨0, 0, 2, 1, 0, 0#256⟩)] }
    let b := { plainLaunch with card := gridCard (1 + 8 <<< (8 * 0x30 + 32)), tag := 1 }
    chooseLaunch (two l) 1 = some (0, l) ∧ chooseLaunch (two l) 0 = some (0, l) ∧ cardKind l.card = 1 ∧ 0 ∈ clustersOfDie (dieOfCluster 1) ∧
      chooseLaunch (two b) 1 = some (0, b) ∧ chooseLaunch (two b) 0 = some (0, b) ∧ cardKind b.card = 2 := by decide
theorem test_meets_placed : let l := { plainLaunch with card := gridCard 2, tag := 1 }
    let s := open1 l
    let more := ((freeQuads s 0 (levelOf l)).filter fun q => !l.placed.contains q).take (placedNeeds s 0 l 0 - reservedIn s l 0)
    chooseLaunch s 0 = some (0, l) ∧ cardKind l.card = 3 ∧ more = [0] ∧ placedReady s 0 { l with placed := l.placed ++ more } = true ∧
      placedGroup s 0 { l with placed := l.placed ++ more } = [(0, false, 0)] := by decide
theorem test_meets_placed_waits : let l := { plainLaunch with card := gridCard (2 + 1 <<< (8 * 0x30 + 16)), tag := 1 }
    let s := open1 l
    let more := ((freeQuads s 0 (levelOf l)).filter fun q => !l.placed.contains q).take (placedNeeds s 0 l 0 - reservedIn s l 0)
    chooseLaunch s 0 = some (0, l) ∧ more = [0] ∧ placedReady s 0 { l with placed := l.placed ++ more } = false := by decide

/-- A GRID card of two cohorts in the last dimension, of which each depends on the one before it. -/
def chainCard : BitVec 1024 := gridCard ((2 ^ 40) <<< (8 * 0x28) + (2 ^ 48 + 15 * 2 ^ 8) <<< (8 * 0x48))

theorem test_meets_parking : let l := { ticketed chainCard 0 with tickets := [(0, ⟨1, 2⟩)] }
    let s := open1 l
    chooseLaunch s 0 = some (0, l) ∧ cardKind l.card = 1 ∧ wokenTicket l 0 = none ∧ runWithTickets l (dieOfCluster 0) = some false ∧
      smFind (2 * dieOfCluster 0 + 0) l.tickets = some ⟨1, 2⟩ ∧ eligible { l with tickets := smSet 0 ⟨2, 2⟩ l.tickets } 1 false = false := by decide
theorem test_meets_batches : let l := { plainLaunch with card := gridCard (1 + 8 <<< (8 * 0x30 + 32)), tag := 1 }
    let s := open1 l
    let l' := { l with batchQuads := [0] }
    let s' := open1 l'
    chooseLaunch s 0 = some (0, l) ∧ cardKind l.card = 2 ∧ freeQuads s 0 (levelOf l) = 0 :: [] ∧ batchOf s' (quadOf 0) = some (0, l') ∧ qidx 0 = 0 ∧
      (quadAt s' (quadOf 0)).team = none ∧ (tileOf s' 0).chunk = none ∧ cardReplica l'.card = false ∧ cardRecords l'.card - l'.batchNext ≠ 0 ∧
      mayClaim s' (quadOf 0) = true ∧ (∀ q ∈ l'.batchQuads, q < quadOf 0 → mayClaim s' q = false) ∧
      (let s2 := open1 { l with batchQuads := [0, 1] }; batchOf s2 (quadOf (tileAt 1 0)) = some (0, { l with batchQuads := [0, 1] }) ∧ quadOf (tileAt 1 0) = 1 ∧ 0 ∈ [0, 1] ∧ mayClaim s2 0 = true) ∧
      (∀ x < 0, x < 256 → (chooseLaunch s x).map (·.1) ≠ some 0) ∧ l'.ended = false ∧ cardRecords l'.card - 1 = 0 := by decide
theorem test_meets_ticket_steals : let l := ticketed (gridCard 0) 1
    let s := open1 l
    smFind 0 s.launches = some l ∧ mayDispatch s l = true ∧ tagOfCluster s 0 = l.tag ∧ cardKind l.card = 1 ∧ cardNoDieSteal l.card = false ∧
      cardReplica l.card = false ∧ runWithTickets l (dieOfCluster 0) = none ∧ mayDraw l 0 = true ∧ wokenTicket l 0 = none ∧
      cardT l.card ≤ (freeQuads s 0 (levelOf l)).length ∧ (∀ e ∈ topLaunches s 0, levelOf e.2 ≤ levelOf l) ∧
      richestDie l = some (2, ⟨0, 1⟩) ∧ cardNoDieSteal (gridCard 256) = true := by decide
theorem test_meets_replica_steals : let l := ticketed (gridCard (2 ^ 34)) 1
    let s := open1 l
    let l1 := { l with tickets := [(2, ⟨4, 5⟩)] }
    ([l, l1].all fun l => cardReplica l.card && !cardNoDieSteal l.card && mayDispatch (open1 l) l && (runWithTickets l (dieOfCluster 0)).isNone &&
      mayDraw l 0 && (wokenTicket l 0).isNone && cardT l.card ≤ (freeQuads (open1 l) 0 (levelOf l)).length &&
      (topLaunches (open1 l) 0).all fun e => levelOf e.2 ≤ levelOf l) = true ∧
      richestDie l = some (2, ⟨0, 1⟩) ∧ dieOfTicket s l 0 true = some (dieOfCluster 0) ∧
      richestDie l1 = some (2, ⟨4, 5⟩) ∧ dieOfTicket (open1 l1) l1 4 true ≠ some (dieOfCluster 0) := by decide
theorem test_meets_cohort_starts : (255 : Nat) < 256 ∧ (∀ q ∈ [64 * 255, 64 * 255 + 63], 64 * 255 ≤ q ∧ q < 64 * 255 + 64) ∧
    [64 * 255, 64 * 255 + 63].Nodup ∧ cardS (gridCard (3 <<< (8 * 0x30 + 6))) ≤ 4 ∧ cardKind (gridCard (3 <<< (8 * 0x30 + 6))) = 1 := by decide
theorem test_meets_retirements : let c := { plainCohort with live := 0 }
    let s := { idleBut id with cohorts := [(cohortKey 0 0 false, c)] }
    let s' := { s with launches := [(0, { plainLaunch with ended := true })] }
    smFind (cohortKey 0 0 false) s.cohorts = some c ∧ launchGoes s c.launch = true ∧ mayRetire s c = true ∧ mayRetire (taskBut id) plainCohort = false ∧
      smFind c.launch s.launches = some plainLaunch ∧ cardKind plainLaunch.card ≠ 2 ∧ smSorted s.cohorts = true ∧ c.runB = false ∧
      launchGoes s' c.launch = false ∧ s'.requests = [] ∧ c.status = .resident ∧ smFind c.launch s'.launches = some { plainLaunch with ended := true } := by
  decide
theorem test_meets_completions : let l := { plainLaunch with ended := true }
    let s := { taskBut id with launches := [(0, l)], cohorts := [] }
    cardCompl l.card = 0#64 ∧
      (let c := BitVec.ofNat 1024 (1 + 0x1000 <<< (8 * 0x50))
       let s1 := { mapped id with ports := [(0, { Port.blank with cached := [0x1000 / 64] })] }
       cardCompl c = 0x1000#64 ∧ (virtualHeld s1 1 0x1000#64 32).isSome = true ∧ virtualHeld (mapped id) 1 0x1000#64 32 = none) ∧
      smFind 0 s.launches = some l ∧ smSorted s.launches = true ∧ launchDone s 0 l = true ∧ (∀ p ∈ s.ports, p.2.unflushed = []) ∧
      launchDone (taskBut id) 0 plainLaunch = false ∧ plainLaunch.dispatched = true ∧ plainLaunch.ended = false ∧
      deadlineOf s { plainLaunch with watched := deadlineOf s plainLaunch } ≤ deadlineOf s plainLaunch ∧ plainLaunch.failed = none ∧
      plainLaunch.watched < deadlineOf (mapped id) { plainLaunch with card := gridCard (1 <<< 40) } ∧
      cardPrio (ticketed (gridCard 0) 0).card < 40 ∧ hasDispatchable (open1 (ticketed (gridCard 0) 0)) 0 (ticketed (gridCard 0) 0) = true ∧
      40 ≤ cardPrio (gridCard (40 * 2 ^ 24)) := by decide

/-! ## Hypotheses that can be met: hosts, links, the boot, the step itself -/

/-- Port 3 shows the first 64 KiB of edge memory, and the boot has passed step 4. -/
def windowed : State :=
  let s := { taskBut id with mgmt := { (taskBut id).mgmt with step := 5 } }
  setPort s 3 { portAt s 3 with bar4base := 0, bar4size := 0x10000 }

theorem test_meets_host_accesses : let s := windowed
    let fits (o n : Nat) : Prop := 0 < n ∧ o + n ≤ (portAt s 3).bar4size ∧ (portAt s 3).bar4base + o + n ≤ 3 * 2 ^ 40 ∧ o / 4096 = (o + n - 1) / 4096
    s.memsOk = true ∧ s.damage = [] ∧ 4 ≤ s.mgmt.step ∧ s.mgmt.recovery = false ∧ fits 0xff8 8 ∧ fits 0xfffc 4 ∧ (taskBut id).mgmt.step < 4 ∧
      (bar4Span (.read 3 0xffc 8)).2.1 / 4096 ≠ ((bar4Span (.read 3 0xffc 8)).2.1 + 8 - 1) / 4096 ∧
      (bar4Span (.read 3 0x10000 0)).2.2 = 0 ∧ 512 < (List.replicate 513 0#8).length ∧ (portAt s 3).bar4size < 0x10000 + 1 ∧
      3 * 2 ^ 40 < (portAt s 3).bar4base + 3 * 2 ^ 40 + 1 ∧
      ({ s with mgmt := { s.mgmt with recovery := true } }).mgmt.recovery = true ∧ ({ s with mgmt := { s.mgmt with step := 3 } }).mgmt.step = 3 ∧
      2 ^ 26 - 4096 + 128 ≤ 2 ^ 26 ∧ smFind (3 * 16384 + (2 ^ 26 - 4096) / 4096) s.pages = none ∧
      heldLine s 0xff8 8 = none ∧ queuedAt s 0xff8 8 = false ∧ queuedAt { s with homeQ := [⟨.port 3, 0xff8, [7#8]⟩] } 0xff8 8 = true ∧
      (heldLine (setPort s 3 { portAt s 3 with cached := [0xff8 / 64] }) 0xff8 8).isSome = true ∧
      smFind 7 (portAt (setPort s 3 { portAt s 3 with msix := [(7, ⟨1, true, true⟩)] }) 3).msix =
        some ⟨1, true, true⟩ := by decide
theorem test_meets_link_faults : let s := taskBut id
    (31 : Nat) < 32 ∧ 4 < (spanAt s 31).lanes ∧ (spanAt s 31).lanes ≤ (spanAt s 31).lanes ∧ 3 < 4 ∧ (spanAt { s with spans := [(31, ⟨4, true⟩)] } 31).retraining = true ∧
      (spanAt s 31).retraining = false ∧ linkWidth (linkAt s 0).lanes ((linkAt s 0).bad ||| 1#16) < (linkAt s 0).lanes ∧
      (linkAt s 0).lanes ≤ linkWidth (linkAt s 0).lanes ((linkAt s 0).bad ||| 0#16) ∧ (linkAt s 0).closed = false ∧ 65535 < 65536 ∧ 65535 ∉ s.lostModules ∧
      65535 ∈ ({ s with lostModules := [65535] }).lostModules ∧
      (linkAt { s with links := [(0, ⟨1#16, 8, true⟩)] } 0).closed = true ∧ (0x101#16 : BitVec 16).toNat % 256 ≠ 0 ∧ (0x101#16 : BitVec 16).toNat / 256 ≠ 0 := by
  decide

/-- The module before its boot, with an image in each slot, of which the first is active. -/
def imaged : State :=
  let img (v : Nat) : Image := ⟨[], v, []⟩
  { State.reset with mgmt := { State.reset.mgmt with slotA := some ⟨img 1, false⟩, slotB := some ⟨img 2, true⟩, activeA := true } }

-- Whether a signature is good is a free value: where it is, the active slot is booted.
theorem test_meets_boot_slot (h : Config.imageSignatureOk [] [] = true) : bootSlot imaged.mgmt = some true := by
  have e : slotRuns imaged.mgmt imaged.mgmt.slotA = true := by rw [← h]; exact (Bool.true_and _).symm
  exact if_pos e
theorem test_meets_boots : let r (n : Nat) : BootReport := ⟨12000, [⟨true, 0, 2 ^ 39⟩], upFrom 0 n, [(0, [3])]⟩
    let s := { imaged with mgmt := { imaged.mgmt with step := 3 } }
    (r 72).input = 12000 ∧ (10999 < 11000 ∨ 13000 < 10999) ∧ s.mgmt.step = 3 ∧ s.mgmt.recovery = false ∧
      (r 72).ports[0]? = some ⟨true, 0, 2 ^ 39⟩ ∧ 3 ∈ badOf (r 72) 0 ((clustersOfDie (dieOfCluster 0)).idxOf 0) ∧ imaged.mgmt.step = 0 ∧ imaged.mgmt.recovery = false ∧ bootSlot State.reset.mgmt = none ∧ (passingSites (r 1)).length < 64 ∧
      (let sites := passingSites (r 64); 64 ≤ sites.length ∧ sites[63]? = some 63) ∧
      0 ∉ badOf (r 72) 0 ((clustersOfDie (dieOfCluster 0)).idxOf 0) := by decide
theorem test_meets_health : let s := { imaged with mgmt := { imaged.mgmt with running := some true, step := 5 } }
    s.mgmt.running = some true ∧ (if true = true then s.mgmt.slotA else s.mgmt.slotB) = some ⟨⟨[], 1, []⟩, false⟩ ∧ s.mgmt.step = 5 ∧
      s.mgmt.recovery = false ∧ s.mgmt.confirmed = false ∧ s.mgmt.keyIndex < 2 ^ 20 ∧ State.reset.mgmt.running = none ∧
      slotRuns { s.mgmt with minVersion := 3 } (some ⟨⟨[], 1, []⟩, false⟩) = false := by decide

/-- The access side of tile 0 has the next turn, at these words. -/
def atWords (w0 w1 : Word) (f : Tile → Tile) : State :=
  { tileBut fun tl => f { tl with lines := [⟨0, memWrite [] 0 (leBytes w0.toNat 4 ++ leBytes w1.toNat 4)⟩] } with
    agenda := [⟨0, .access 0⟩] }

theorem test_meets_bundle_steps : let s (w0 w1 : Word) := atWords w0 w1 id
    let fetched (w0 w1 : Word) : Prop := fetchBundle (tileOf (s w0 w1) 0) 0#64 = .words w0 w1
    let pre (s0 : State) : Prop :=
      let s := clearWaits (passTime { s0 with agenda := [] } 0) 0 [3, 4]
      s0.agenda = [⟨0, .access 0⟩] ∧ mayIssue s 0 = true ∧ (tileOf s 0).task.stepping ≠ .issued ∧ (tileOf s 0).halt = .none
    pre (s 0#32 0#32) ∧ pre (s 0xc200a3fc#32 0x12345678#32) ∧ breakAt (passTime { s 0#32 0#32 with agenda := [] } 0) 0 = none ∧
      breakAt (setLaunch (taskBut id) 0 { plainLaunch with brks := plainLaunch.brks.set 15 ⟨true, 0#64, 0#64, 0#64⟩ }) 0 = some 15 ∧
      fetchBundle (tileOf (taskBut id) 0) 0#64 = .missing ∧
      fetchBundle (tileOf (tileBut fun tl => { tl with badFetch := some (tl.task.act, 0, .xlate) }) 0) 0#64 = .bad .xlate ∧
      (let s1 := clearWaits (passTime { atWords 0#32 0#32 fun tl => { tl with task := { tl.task with stepping := .issued } } with agenda := [] } 0) 0 [3, 4]
       (tileOf s1 0).task.stepping = .issued ∧ mayIssue s1 0 = true ∧ (tileOf s1 0).halt = .none ∧ breakAt s1 0 = none ∧
        (tileOf s1 0).task.xinstr = [] ∧ fetchBundle (tileOf s1 0) 0#64 = .words 0#32 0#32) ∧
      mayIssue (clearWaits (passTime (tileBut fun tl => { tl with run := .idle }) 0) 0 [3, 4]) 0 = false ∧
      (tileOf (taskBut id) 0).halt ≠ .held true ∧
      fetched 0x40000000#32 0#32 ∧ fetched 0x880cc000#32 0x00010000#32 ∧ fetched 0#32 0x8ec12624#32 ∧ fetched 0xc200a3fc#32 0x12345678#32 ∧
      (tileOf (s 0#32 0#32) 0).task.xpushed = false ∧ (tileOf (s 0#32 0#32) 0).task.slip < 16 ∧
      opensSlot (.fmaF32 ⟨0#3, 9#6, 12#6, 18#6⟩) = 0 ∧ opensSlot (.gset ⟨0#3, 7#3, 3#3, 0#1⟩) = 7 ∧ unresolved (Task.zero.gd[7]) < 8 := by decide
theorem test_meets_queue_steps : let x : XEntry := ⟨.add ⟨0#3, 9#6, 7#6, 7#6⟩, 0#32, false, false, 0#64⟩
    let s := { taskBut fun k => { k with xinstr := [x] } with agenda := [⟨0, .execute 0⟩] }
    let s1 := clearWaits (passTime { s with agenda := [] } 0) 0 [5]
    s.agenda = ⟨0, .execute 0⟩ :: [] ∧ (tileOf s1 0).task.xinstr = x :: [] ∧ (tileOf s1 0).run = .running ∧ (tileOf s1 0).halt = .none ∧
      replaying s1 0 = false ∧ replaying { s1 with accs := [{ sentBy s1 .load .sp 0#64 4 with again := true }] } 0 = true ∧
      (tileOf (taskBut id) 0).task.xinstr = [] ∧ isA .nopA = true ∧ isX x.x = true ∧ isA .lifetimeCommit = false ∧ isX .lifetimeCommit = false ∧
      eventOk .lifetimeCommit = true ∧ eventOk (.taskSelect 65536) = false := by decide
theorem test_meets_queue_step_results : let x : XEntry := ⟨.add ⟨0#3, 9#6, 7#6, 7#6⟩, 0#32, false, false, 0#64⟩
    let s := running { Task.zero with xinstr := [x] } 0#32
    (tileOf (after x.x s) 0).task.xinstr.length ≠ 0 + 1 ∧
      (let y : Instr := .add ⟨0#3, 9#6, 49#6, 7#6⟩
       let s := running { Task.zero with xinstr := [{ x with x := y }] } 0#32
       (tileOf (after y s) 0).task.xinstr.length = 0 + 1) := by decide
theorem test_meets_round_trip : (Bundle.paired true false (.stPr ⟨2#3, 2#3, 6#4, 16#5, 0#3, 1#7⟩) (.cmpF32 ⟨0#3, 2#3, 2#3, 9#6, 49#6⟩)).WellFormed ∧
    (Bundle.loneX (.mulF32 ⟨0#3, 4#6, 7#6, 62#6⟩) 0x3f000000#32).WellFormed ∧ (Bundle.loneA (.bltu ⟨3#4, 4#4, 0x7fd#11⟩) 0#32).WellFormed :=
  ⟨(by decide : bundleOk _ = true), (by decide : bundleOk _ = true), (by decide : bundleOk _ = true)⟩
theorem test_meets_instruction_frames : mayCharge (.casSp ⟨0#3, 2#4, 9#4, 8#4, 0#3, 1#1, 2#2⟩) = false ∧ isA (.casSp ⟨0#3, 2#4, 9#4, 8#4, 0#3, 1#1, 2#2⟩) = true ∧
    (tileOf (taskBut id) 0).run ≠ .idle ∧ 1 ≠ ringSuccessor (taskBut id) 0 ∧ State.reset.memsOk = true := by decide

/-! ### Wennu (R87 to R94) -/

/-- What a line of Wennu is read against here: no symbols, at address 0. -/
def asmAt (pair : Bool) : AsmEnv := { syms := [], entries := [], settled := true, pair := pair, here := 0#64 }

/-- Whether a line makes these two words. -/
def makes (pair : Bool) (line : String) (w0 w1 : Word) : Bool :=
  match lex line with
  | .ok ts =>
    match assembleBundle (asmAt pair) ts with
    | .ok w => w == (w0, w1)
    | .error _ => false
  | .error _ => false

/-- Whether a line is in error, and how. -/
def errs (pair : Bool) (line : String) (e : AsmFail) : Bool :=
  match lex line with
  | .ok ts =>
    match assembleBundle (asmAt pair) ts with
    | .ok _ => false
    | .error f => f == e
  | .error f => f == e

-- Table 5-2.
theorem test_wennu_paired : makes false "ld.sp.w32 lq0, [a2+16] || fma.f32 g6, lq0, g12" 0x0c814004#32 0x0ec0d818#32 := by decide
theorem test_wennu_extended : makes true "add g5, g7, 0x1234_5678" 0xc200a3fc#32 0x12345678#32 &&
    makes true "aaddi a3, a3, 0x1_0000" 0x880cc000#32 0x00010000#32 := by decide
-- R88: a held operand has no place in a lone bundle; R90: an offset is a multiple of the width.
theorem test_wennu_errors : errs false "mul.f32 g6, lq0, g2^" .lone && errs false "ld.sp.w32 lq0, [a1+2]" .alignment &&
    errs false "aaddi a3, a3, 0x1_0000 || nop" .lone && errs false "add g5, g7, 1 << 33" .range := by decide

/-- The image of the fragment of R94. -/
def fragment : List String :=
  [".text 0x0000_4000_0000_0000", ".pair on", ".task scale", "ld.sp.w32 lq0, [a1+0] // alone on its line", "|| mul.f32 g6, lq0, g2^",
    ".data", ".team 4", ".cohort 2", ".card c0", "kind = GRID", "grid = 8, 8", "entry = scale", "fidelity = f2",
    "deps = (-1, 0, 0), (0, -1, 0)", ".end"]

/-- The bytes of an image from an offset on, as a number. -/
def imageAt (r : Except (Nat × AsmFail) AsmImage) (off n : Nat) : Nat :=
  match r with
  | .ok i => leNat ((i.bytes.drop off).take n)
  | .error _ => 0

-- R94: two paired bundles, and a card at the next 128-byte boundary.
theorem test_wennu_fragment : (match assemble fragment with
    | .ok i => i.origin == 0x400000000000#64 && i.bytes.length == 256
    | .error _ => false) &&
    imageAt (assemble fragment) 0 16 == 0x4e80d804 * 2 ^ 96 + 0x0c80c000 &&
    imageAt (assemble fragment) 128 8 == 0x80000001 && imageAt (assemble fragment) 152 8 == 0x400000000000 &&
    imageAt (assemble fragment) 168 16 == 0xc1 * 2 ^ 64 + 0x700007 && imageAt (assemble fragment) 200 8 == 0x2 * 2 ^ 48 + 0xf000f := by decide

/-! ## Further clauses at their boundaries: each of their hypotheses met -/

-- O10: an access that arrives at a barrier, a message, a command of each queue and a copy wait on one generation.
theorem test_meets_held_commands : let g : Guard := .bound 1 1
    let c := command g (.mmz ⟨0#3, 3#6⟩) [] []
    let a := { newAccess (taskBut id) (.arrive 31) .pr 0#64 4 with guard := g }
    let m := { newMessage (taskBut id) 5 0#20 g (.put 7 9#32) with act := 0 }
    let s := { tileBut fun tl => { tl with task := slotOpen tl.task, matq := [c], chainq := [c], copies := [plainCopy c] } with
      accs := [a], net := [m] }
    oldestGen (curTask s).gd[(1#3 : BitVec 3).toFin] = some 1 ∧ (1#3 : BitVec 3).toNat = 1 ∧ a ∈ s.accs ∧ a.act = (curTask s).act ∧
      a.guard = g ∧ m ∈ s.net ∧ m.act = (curTask s).act ∧ m.guard = g ∧ c ∈ (curTile s).matq ∧ c.act = (curTask s).act ∧ c.guard = g ∧
      c ∈ (curTile s).chainq ∧ plainCopy c ∈ (curTile s).copies ∧ (plainCopy c).cmd.guard = g := by decide
-- O13: `wext` and `wred` send theirs with room in the quad unit's queue, and wait with none, or while theirs is out.
theorem test_meets_long_sends : let s (n : Nat) (w : LongWait) := tileBut fun tl => { tl with
      task := { tl.task with long := true }, longq := List.replicate n ⟨.waddF32 ⟨0#3, 1#6, 2#6, 3#6⟩, 0#32, 0#32, 0#3⟩, longWait := w }
    let q (w : LongWait) (full : Bool) (s1 : State) (_ _ : Vec) : Bool :=
      decide ((curTile s1).longWait = w) && decide (8 ≤ (curTile s1).longq.length) == full
    [((7, LongWait.none), false), ((8, .none), true), ((7, .sent), false)].all (fun e =>
      takesWith (s e.1.1 e.1.2) 0#3 .absent (.field .scalar 0#6) (q e.1.2 e.2) &&
        takesWith (s e.1.1 e.1.2) 0#3 .absent .absent (q e.1.2 e.2)) = true := by decide
-- O19: `sys` at the end bundle of an active loop (log 12).
theorem test_meets_sys_at_loop_end : let s := taskBut fun k => { k with lc := k.lc.set 0 ⟨2#32, 0#64, 0#64, 3#32, true⟩ }
    (curTask s).xinstr = [] ∧ ReadyA s [1#4, 2#4] ∧ (curTask s).lc[0].active = true ∧ (curTask s).lc[0].last = s.cur.pc := by decide
-- O17: a payload at the end of the scratchpad, or in a guarded granule.
theorem test_meets_payload_faults : let s := running (withRegs [(6#4, 0x2fffc#64)] []) 0#32
    let s' := tileBut fun tl => { tl with guards := 1#3072 }
    ReadyA s [5#4, 6#4] ∧ MayGo s 0#3 ∧ (rdA s 6#4).toNat % 4 = 0 ∧ payloadBlocked s (rdA s 6#4) 8 = false ∧
      payloadFault s (rdA s 6#4) 8 = some .xlate ∧ sendTarget ((rdA s 5#4).setWidth 20) ≠ none ∧ bindGuard s 0#3 ≠ .discarded ∧
      payloadFault s' (rdA s' 6#4) 8 = some .guardTouch :=
  ⟨by decide, mayGo_of (by decide), by decide, by decide, by decide, by decide, by decide, by decide⟩
-- O15: a run at depth 63 whose reserved slot is filled has no place for a second record.
theorem test_meets_depth_63 : let s := spillBut fun tl => { fullDeque tl with
      spill := List.replicate 64 blankRec, slots := List.range 64, reserved := [(63, blankRec)], task := { tl.task with filled63 := true } }
    let s' := spillBut fun tl => { fullDeque tl with
      spill := List.replicate 64 blankRec, slots := List.range 64, reserved := [(63, blankRec)] }
    16 ≤ (curTile s).deque.length ∧ freePlace (curTile s) = none ∧ (curTile s).task.filled63 = true ∧
      (smFind 63 (curTile s).reserved).isSome = true ∧ spillSlab s s.cur.tile = some 0x10000 ∧
      (curTile s').task.filled63 = false ∧ (placeRec s blankRec 63).isNone = true ∧ (placeRec s' blankRec 63).isSome = true := by decide
-- O21: of four named entries the third is invalid; without it the second, poisoned, is the first that counts.
theorem test_meets_named_entries : let s := running (withRegs [(6#4, 0#64)] []) 0#32
    let i : Instr := .cpyG ⟨0#3, 0#6, 1#6, 2#6, 0#1⟩
    ∃ slot regs ts, namesEntries s i = some (slot, regs, ts) ∧ MayGo s slot ∧ ReadyA s regs ∧ ts = [0#6] ++ 1#6 :: [2#6] ∧
      (∀ n ∈ ts, (entryAt s n).isPending = false) ∧
      (let v := TEntry.valid (spTensor 0 2 4 0)
       let x := entries [v, .poisoned .xlate 8#64, .poisoned .align 9#64]
       let y := entries [v, v, .invalid]
       (∀ n ∈ ts, (entryAt x n).isPending = false) ∧ (∀ m ∈ ts, entryAt x m ≠ .invalid) ∧
        (∀ m ∈ [0#6], (match entryAt x m with | .poisoned _ _ => true | _ => false) = false) ∧ entryAt x 1#6 = .poisoned .xlate 8#64 ∧
        ∃ n ∈ ts, entryAt y n = .invalid) :=
  ⟨_, _, _, rfl, mayGo_of (by decide), by decide, by decide, by decide, by decide, by decide, by decide, by decide, by decide⟩
-- O22: formats, spaces and depths that the array does not take; an index of `mld.bl` that is no multiple of its depth.
theorem test_meets_refused_matrix_commands : let gl := { spTensor 2 32 16 0 with space := .gl }
    let s := entries [.valid (spTensor 2 32 16 0), .valid gl, .valid (spTensor 0 32 32 0), .valid (spTensor 0x16 32 32 0)]
    let s' := running (withRegs [(6#4, 8#64)] []) 0#32
    (curTile s).matq.length < 16 ∧ MayGo s 0#3 ∧ ReadyA s [6#4] ∧ entryAt s 1#6 = .valid gl ∧ gl.space ≠ .sp ∧
      entryAt s 2#6 = .valid (spTensor 0 32 32 0) ∧ pairShape 0 2 = none ∧ (spTensor 2 32 16 0).format ≠ 0 ∧
      (rdA s 6#4).toNat % 2 ^ 32 % blDepth 1 (spTensor 2 32 16 0) = 0 ∧ fp32Class (spTensor 0 32 32 0).format = true ∧
      inputOnly 0x16 = true ∧ entryAt s 3#6 = .valid (spTensor 0x16 32 32 0) ∧ (1#2 : BitVec 2) ≠ 0#2 ∧ (2 : Nat) ≠ 0x14 ∧ (2 : Nat) ≠ 0x15 ∧
      (rdA s' 6#4).toNat % 2 ^ 32 % blDepth 1 (spTensor 2 32 16 0) ≠ 0 :=
  ⟨by decide, mayGo_of (by decide), by decide, by decide, by decide, by decide, by decide, by decide, by decide, by decide, by decide, by decide,
    by decide, by decide, by decide, by decide⟩
-- O23: `mma.r` with its slab, and a slab of the wrong depth whose task stands on the tile.
theorem test_meets_ringway_products : let a := spTensor 2 32 16 0
    let c := command .free (.mmaR ⟨0#3, 0#6, 2#6, 0#2⟩) [a] []
    let s (depth : Nat) := setCluster (arrayWith c { Task.zero with bl := some ⟨a, 0, depth, []⟩ }) 0 { Cluster.blank with tokens := 4 }
    ArrayGoes (s 16) 0 c [] ∧ (quadAt (s 16) (quadOf 0)).fid = 0 ∧ burstNeed (s 16) 0 ≤ (clusterAt (s 16) 0).tokens ∧
      pairShape 2 2 = some (16, 5) ∧
      (engRows (engHead (engStart (tokensHeld (clearWaits (s 16) 0 [8]) 0).2 0 c) a).2 a 0 16 32).2.clean ∧ ArrayGoes (s 8) 0 c [] ∧
      taskStopped (s 8) 0 c = false ∧ taskHere (s 8) 0 c.gtid = true ∧ smFind (launchOf (s 8) 0) (s 8).launches = some plainLaunch ∧
      plainLaunch.failed = none :=
  ⟨arrayGoes_of (by decide), by decide, by decide, by decide, ⟨by decide, by decide⟩, arrayGoes_of (by decide), by decide, by decide, by decide,
    by decide⟩
-- O24: a burst whose last `mma` ran 2,500 clk ago, and one of 2,499.
theorem test_meets_bursts : let s (clk : Nat) := { setCluster (taskBut id) 0 { Cluster.blank with burst := true, ran := 100, tokens := 4 } with clk := clk }
    (clusterAt (s 2600) 0).burst = true ∧ (clusterAt (s 2600) 0).ran + 2500 ≤ (s 2600).clk ∧
      (s 2599).clk < (clusterAt (s 2599) 0).ran + 2500 ∧ burstNeed (s 100) 0 ≤ (clusterAt (s 100) 0).tokens ∧
      (clusterAt (taskBut id) 0).burst = false := by decide
-- O26: a follow-on that has landed waits with the queue full, and is dropped once its task is gone; two rows that move.
theorem test_meets_follow_ons_that_wait : let f := command .free (.mmaBl ⟨0#3, 1#6, 0#2⟩) [spTensor 2 32 16 0] []
    let c := { plainCopy (command .free (.cpyMma ⟨0#3, 0#6, 1#6, 0#6, 0#1⟩) [spTensor 2 1 4 0, spTensor 2 1 4 2048] []) with
      follow := some f, landed := true }
    let s (n : Nat) (act : Nat) := tileBut fun tl => { tl with
      copies := [c], matq := List.replicate n f, task := { tl.task with act := act } }
    (tileOf (s 15 0) 0).copies[0]? = some c ∧ followMay (s 15 0) 0 f = true ∧ followMay (s 16 0) 0 f = false ∧
      followGone (s 16 0) 0 f = false ∧ followMay (s 0 7) 0 f = false ∧ followGone (s 0 7) 0 f = true := by decide
theorem test_meets_two_rows : let d := spTensor 2 2 4 0
    let r := spTensor 2 2 4 2048
    let c := plainCopy (command .free (.cpy ⟨0#3, 0#6, 1#6, 0#1⟩) [d, r] [])
    let s := copying c
    (tileOf s 0).copies[0]? = some c ∧ copyMay (tileOf s 0) 0 0 c = true ∧ pushSeen s 0 c.cmd = true ∧
      (runCopy (engStart s 0 c.cmd) c.cmd).clean ∧ s.damage = [] ∧ (fmt d.format).scale = .none ∧ d.rows = r.rows ∧ d.cols = r.cols ∧
      (∀ i, i < d.rows → rowAddr d i + rowBytes 2 4 ≤ spBytes ∧ rowAddr r i + rowBytes 2 4 ≤ spBytes) ∧
      (∀ i, i < d.rows → ∀ j, j < d.rows → rowAddr d i + rowBytes 2 4 ≤ rowAddr r j ∨ rowAddr r j + rowBytes 2 4 ≤ rowAddr d i) ∧
      (∀ j, j < d.rows → ∀ i, i < j → rowAddr d i + rowBytes 2 4 ≤ rowAddr d j) :=
  ⟨by decide, by decide, by decide, ⟨by decide, by decide⟩, by decide, by decide, by decide, by decide, by decide, by decide, by decide⟩
-- O27: charged subscriptions, the data and the token of a tile, and a push that comes before what its tile did.
theorem test_meets_tile_streams : let c := { plainCopy (command .free (.strm ⟨0#3, 0#6, 5#6, 1#1⟩) [spTensor 2 2 4 0] [0x800000000#64]) with
      charge := some 31, left := 12 }
    let it (n : Nat) : StreamItem := ⟨0, 0x40000000, [1#8, 2#8], true, [(0, n)]⟩
    let s (n : Nat) := { copying c with
      streamTable := 0x1000, streamQ := [it n]
      edge := memWrite [] 0x1000 ([1, 0, 0, 0, 0, 0, 0, 0x80] ++ [0, 0, 0, 0, 0, 0, 0, 0] ++ [0, 0, 0, 0x40]) }
    c.charge = some 31 ∧ c.left < chargeOf (spTensor 2 2 4 0) ∧ 0x40000000 / 2 ^ 30 = 1 ∧ (grantAt (s 0) 0).prods.contains 0x40000000 = true ∧
      c.ended.contains 0x40000000 = false ∧ lostProducer (s 0) 0x40000000 = false ∧ c.got < strmCount c ∧ pushSeen (s 0) 0 c.cmd = true ∧
      streamGranted (s 0) (strmStream c) (tagOf (s 0) 0) = true ∧ nextItem (s 0) 0 0 0x40000000 = some (0, it 0, 0) ∧
      0 < (it 0).bytes.length ∧ (landStream (engStart (s 0) 0 c.cmd) (spTensor 2 2 4 0) c.got [1#8, 2#8]).clean ∧
      nextItem (s 2) 0 0 0x40000000 = some (0, it 2, 2) ∧ (it 2).eos = true ∧ 2 = (it 2).bytes.length ∧ 0 ≠ (it 0).bytes.length ∧
      pushSeen { s 0 with accs := [newAccess (s 0) .store .sp 0#64 4] } 0 { c.cmd with issued := 9, id := 9 } = false ∧
      ({ c with took := [(0, 0)] }).took = [(0, 0)] ∧ (s 2).streamQ[0]? = some (it 2) :=
  ⟨by decide, by decide, by decide, by decide, by decide, by decide, by decide, by decide, by decide, by decide, by decide,
    ⟨by decide, by decide⟩, by decide, by decide, by decide, by decide, by decide, by decide, by decide⟩
-- O29: a `kbin` that comes after a store that is still out, and one that nothing precedes.
theorem test_meets_bins_seen : let k := { command .free (.kbinAdd ⟨0#6⟩) [spTensor 0 1 2 4096] [] with issued := 9, id := 9 }
    let s := tileBut fun tl => { tl with bins := some (spTensor 0 1 2 4096, none), binder := some k }
    binsSeen s 0 = true ∧ binsSeen { s with accs := [newAccess s .store .sp 0#64 4] } 0 = false := by decide
-- O30: an address that the TLB of the die does not hold: mapped, and not.
theorem test_meets_probe_misses : let s := setDie (mapped id) 0 Die.blank
    tlbFind s (dieOf 0) 1 0#64 = none ∧ (walk s 1 0#64).isSome = true ∧ tlbFind s (dieOf 0) 1 0x200000000000000#64 = none ∧
      walk s 1 0x200000000000000#64 = none := by decide

-- O34: the last arrival wakes a record that waits for the phase; a transaction that ends with all arrivals in completes a phase.
theorem test_meets_phase_wakes : let r : Resident := ⟨blankRec, .nbar 0 31 5#32, false, 0, none, none⟩
    let f (arr : BitVec 16) (tl : Tile) : Tile := { tl with
      nbar := tl.nbar.set 31 { NBar.zero with arr := arr, exp := 2, phase := 5#32, pend := 1#56 }, resident := [r] }
    let g (tl : Tile) : Tile := { f 1 tl with nbar := tl.nbar.set 31 { NBar.zero with arr := 1, exp := 2, phase := 5#32 } }
    Performs (sending g (.arrive 31) .pr 0#64 4) (sentBy (mapped id) (.arrive 31) .pr 0#64 4) (.sp 0 0) ∧
      (barAt (sending g (.arrive 31) .pr 0#64 4) 0 31).arr.toNat + 1 = (barAt (sending g (.arrive 31) .pr 0#64 4) 0 31).exp.toNat ∧
      (barAt (sending g (.arrive 31) .pr 0#64 4) 0 31).pend = 0#56 ∧
      r ∈ (tileOf (sending g (.arrive 31) .pr 0#64 4) 0).resident ∧ r.ready = false ∧ r.cause = .nbar 0 31 5#32 ∧
      0 ∈ cohortTiles plainCohort ∧ 1 ≤ ((5#32 : Word) + 1#32 - 5#32).toNat ∧ ((5#32 : Word) + 1#32 - 5#32).toNat ≤ 2 ^ 31 ∧
      Performs (sending (f 3) (.barTx 31 (-1)) .pr 0#64 4) (sentBy (mapped id) (.barTx 31 (-1)) .pr 0#64 4) (.sp 0 0) ∧
      (let b := barAt (sending (f 3) (.barTx 31 (-1)) .pr 0#64 4) 0 31
       b.pend + -1 = 0#56 ∧ b.exp.toNat ≤ b.arr.toNat ∧ b.arr.toNat < 2 * b.exp.toNat) ∧
      (let b := barAt (sending (f 1) (.barTx 31 (-1)) .pr 0#64 4) 0 31
       b.pend + -1 = 0#56 ∧ b.arr.toNat < b.exp.toNat) :=
  ⟨performs_of (by decide) (.inl rfl), by decide, by decide, by decide, by decide, by decide, by decide, by decide, by decide,
    performs_of (by decide) (.inl rfl), by decide, by decide⟩
-- O33: a counter that the read finds at 1.
theorem test_meets_reread_of_one : let r : Resident := ⟨blankRec, .join .sp 8#64, false, 0, none, none⟩
    let s := tileBut fun tl => { tl with resident := [r], sp := [(8, 1)] }
    let a := { rereadAccess 0 r .sp 8#64 with id := s.nextId }
    (tileOf s 0).resident[0]? = some r ∧ reach s a = .at (.sp 0 8) ∧ rereadMay s a = true ∧ (performAt s a (.sp 0 8)).1 ≠ .value 0#256 := by
  decide
-- O35: what returns for a saved task, with a line of its area at a host.
theorem test_meets_saved_results : let a := { sentBy (mapped id) .load .gl 0#64 4 with gtid := 7#64, act := 9, res := some (.value 5#256) }
    let t := { Tile.idle with task := { Task.zero with gtid := 7#64 }, run := .running }
    let s := { mapped id with accs := [a], areas := [(0x100000, { savedArea with tiles := [(0, t)] })] }
    savedWith s a = some (0x100000, { savedArea with tiles := [(0, t)] }) ∧ regionHeld s 0x100000 (areaSize savedArea.cohort) = none ∧
      (regionHeld { s with ports := [(0, { Port.blank with cached := [0x100000 / 64] })] } 0x100000 (areaSize savedArea.cohort)).isSome = true := by
  decide
-- O31: a store of part of a granule whose check fails.
theorem test_meets_bad_merges : let s := { mapped id with damage := [.edge 2 1#32] }
    s.memsOk = true ∧ queuedAt s 0x81 8 = false ∧ heldLine s 0x81 8 = none ∧ badMerge s 0x81 8 = true ∧ badMerge s 0x80 64 = false := by
  decide +kernel
-- O37: two writes of one port, of which the first waits for another line; a load of a line whose write is held.
theorem test_meets_writes_in_order : let s := { sending id .load .gl 0x80#64 8 with
      ports := [(0, { Port.blank with cached := [64] })], homeQ := [⟨.port 0, 0x1000, [1, 2]⟩, ⟨.port 0, 0x80, [3]⟩] }
    let a := sentBy (mapped id) .load .gl 0x80#64 8
    s.homeQ = [⟨.port 0, 0x1000, [1, 2]⟩, ⟨.port 0, 0x80, [3]⟩] ∧ 64 ∈ linesOf 0x1000 2 ∧ 64 ≠ 0x2000 / 64 ∧ hostHolds s (64 * 64) = true ∧
      s.accs.find? (fun b => b.id == a.id) = some a ∧ mayPerform s a = true ∧ a.guard = .free ∧ reach s a = .at (.gl (.edge 0x80) 0#2) ∧
      queuedAt s 0x80 a.n = true ∧ badMerge { s with homeQ := [⟨.port 0, 0x1000, [1, 2]⟩] } 0x1000 2 = false := by decide
-- O37 held against a run: the second write of the port stays behind the first.
theorem test_writes_stay_in_order : (let s := { mapped id with
      ports := [(0, { Port.blank with cached := [64] })], homeQ := [⟨.port 0, 0x1000, [1]⟩, ⟨.port 0, 0x80, [3]⟩] };
    let t := after (.backInvalidationResponse 0x2000) s
    let u := after (.backInvalidationResponse 0x1000) t
    (t.homeQ.length, memRead t.edge 0x80 1, u.homeQ.length, memRead u.edge 0x80 1)) = (2, [0], 0, [3]) := by decide

-- O38: a cohort that is halting still takes its messages; a Plaza core's message at a full inbox, and as it arrives.
theorem test_meets_plaza_messages : let m := { mailed 5 0#20 .free (.inbox [1#8]) with src := plazaSource }
    let s := mailing id m
    let full := mapped fun tl => { tl with inbox := Vector.replicate 8 (some (inboxMsg 1)) }
    takesInbox { plainCohort with status := .halting true } = true ∧ takesInbox { plainCohort with status := .halted } = false ∧
      (mailed 5 0#20 .free (.inbox [1#8])).src ≠ plazaSource ∧ msgOf s m.id = some m ∧ m.body = .inbox [1#8] ∧ m.src = plazaSource ∧
      m.guard = .free ∧ msgMay s m = true ∧ msgMay { mailing (fun tl => { tl with stuck := some 9 }) m with net := [m, { m with id := 9 }] } m = false ∧
      cohortOf s 0 = some (cohortKey 0 0 false, plainCohort, 0) ∧ cohortOf s 1 = none ∧ plainCohort.launch = m.launch ∧
      takesInbox plainCohort = true ∧ (tileOf s 0).halt ≠ .migrate ∧ (tileOf s 0).inbox[0] = none ∧
      inputBusy full 0 full.nextId = false ∧ (∀ n : Fin 8, (tileOf full 0).inbox[n] ≠ none) ∧ msgOf full full.nextId = none := by decide
-- O38: a victim whose only record is what its owner takes next; a thief whose victim is being moved.
theorem test_meets_owner_first : let s := twoTiles fun tl => { tl with run := .idle, deque := [blankRec] }
    let s' := twoTiles fun tl => { tl with deque := [blankRec], halt := .migrate }
    ownerTakes s 2 = true ∧ (victims s 0).find? (fun u => claimable s u) = none ∧ freeToRun s 0 = true ∧ noSteal s 0 = false ∧
      nothingOwn s 0 = true ∧ ownerTakes s' 2 = false ∧ moving s' 0 2 = true ∧ pathClear s' 0 2 s'.nextId = false := by decide
theorem test_meets_clear_path : let s := twoTiles fun tl => { tl with deque := [blankRec, blankRec] }
    let s' := setTile s 0 { tileOf s 0 with halt := .migrate, landing := some (2, 7, blankRec) }
    (victims s 0).find? (fun u => claimable s u) = some 2 ∧ pathClear s 0 2 s.nextId = true ∧
      pathClear { s with net := [{ newMessage s 5 2#20 .free (.put 7 9#32) with src := 0 }] } 0 2 9 = false ∧
      pathClear s 2 0 7 = true ∧ pathClear s' 2 0 7 = false := by decide

-- O39, O40, O41: the next entry of the pool's ring in edge memory, free to be written; waiting resolutions of every kind.
theorem test_meets_pool_entries : let s := resolving (inFrame none)
    s.memsOk = true ∧ homeLine s (poolEntry s 0) 8 = none ∧ badMerge s (poolEntry s 0) 8 = false ∧
      (dieAt s 0).fp.length < (dieAt s 0).fpsize.toNat ∧ targetOf s 0 = .frame 0x10000#64 (frameOf [] none) := by decide +kernel
theorem test_meets_waiting_resolutions : let r : Resolution := ⟨0, 0, false, []⟩
    ∃ p ∈ [(Instr.resume r, FrameAnswer.go false r.skipbp), (.step r, .go true r.skipbp), (.endTask r, .endTask), (.endLaunch r, .endLaunch)],
      p.1 = .endLaunch r := ⟨_, .tail _ (.tail _ (.tail _ (.head _))), rfl⟩
theorem test_meets_damaged_frames : let s := { inFrame none with damage := [.edge (0x10000 / 64 + 1023) 1#32] }
    0x10000 / 64 ≤ 0x10000 / 64 + 1023 ∧ 0x10000 / 64 + 1023 ≤ (0x10000 + 0xffff) / 64 ∧
      Damage.edge (0x10000 / 64 + 1023) 1#32 ∈ s.damage ∧ 1#32 ≠ crc32c (memRead s.edge (64 * (0x10000 / 64 + 1023)) 64) := by decide +kernel
-- O41: a pool that holds a frame, and the offsets of a total, of PULSE, and of the registers of a session at the ends of their ranges.
theorem test_meets_totals : let w (off width : Nat) (g : Bool) : CfgWrite := ⟨0, g, off, width, 5#64⟩
    let s := setSession (taskBut id) 255 { sessionAt (taskBut id) 255 with open_ := true }
    (dieAt (stopped [0#64] id) 0).fp ≠ [] ∧ (w 0x201000 4 false).off = 0x201000 ∧ (w 0x201000 4 false).width ≠ 8 ∧
      (w (0x1000000 + 0x1000 * 255 + 0x100 + 8 * 15) 8 true).guest = true ∧
      (w (0x1000000 + 0x1000 * 255 + 0x104 + 8 * 15) 4 false).off = 0x1000000 + 0x1000 * 255 + 0x104 + 8 * 15 ∧
      (w (0x1000000 + 0x1000 * 255 + 0x100 + 8 * 15) 4 false).width ≠ 8 ∧ (sessionAt s 255).open_ = true ∧
      (sessionAt (taskBut id) 255).open_ = false ∧ (sessionAt s 255).absent[(15 : Fin 16)] = false := by decide
-- O42: a record behind a pad at the end of its ring; one that a home holds; one with no room for it and its pad.
theorem test_meets_ring_ends : let g (w r : DWord) : Ring := ⟨0x1000#64, 0x100#64, w, r, 0#32, 0#32, 3#2⟩
    let s (w r : DWord) := setRing (taskBut id) (.die 0) (g w r)
    let held := { s 0xe0#64 0xe0#64 with ports := [(0, { Port.blank with cached := [0x10e0 / 64] })] }
    (ringOf (s 0xe0#64 0xe0#64) (.die 0)).size.toNat < 0xe0 + 64 ∧ 0 + (0x100 - 0xe0) + 64 ≤ 0x100 ∧
      homeHolds (s 0xe0#64 0xe0#64) (.ring (.die 0) 0xe0#64) (0x1000 + 0xe0) 16 = false ∧ badMerge (s 0xe0#64 0xe0#64) (0x1000 + 0xe0) 16 = false ∧
      homeHolds (s 0xe0#64 0xe0#64) (.ring (.die 0) 0xe0#64) 0x1000 64 = false ∧
      homeHolds held (.ring (.die 0) 0xe0#64) (0x1000 + 0xe0) 32 = true ∧
      ((0x1e0#64 : DWord) - 0x120#64).toNat + (0x100 - 0xe0) + 64 > 0x100 ∧ ((0x1e0#64 : DWord) - 0x120#64).toNat + 64 ≤ 0x100 := by decide
-- R330: with a host holding the line, WIDX as read stands before the record until the home has written it.
theorem test_held_record : (let s := { setRing (taskBut id) (.die 0) ⟨0x1000#64, 0x1000#64, 0x20#64, 0#64, 0#32, 0#32, 3#2⟩ with
      ports := [(0, { Port.blank with cached := [0x1020 / 64] })] };
    let t := ringPut s (.die 0) 5 (List.replicate 16 1#8) 0
    let u := after (.backInvalidationResponse 0x1000) t
    (widxOf t (.die 0), widxOf u (.die 0), memRead u.edge 0x1020 1)) = (0x20#64, 0x40#64, [5]) := by decide
-- O42: two droops of a quad within 1 µs.
theorem test_meets_droops : let s := { setQuad (taskBut id) 0 { quadAt (taskBut id) 0 with droopAt := some 100 } with clk := 1349 }
    (quadAt s 0).droopAt = some 100 ∧ s.clk < 100 + 1250 ∧ 30 ≤ 30 := by decide

/-- Launch 0 is PLACED and has two cohorts, each saved and asked for. -/
def placedSaved (both : Bool) : State :=
  let z : Cohort := { plainCohort with quads := [] }
  let c (i : Nat) : Cohort := { z with index := i, status := .saved (BitVec.ofNat 64 (0x100000 * (i + 1))) false,
                                       restoreAsked := if i == 0 || both then some 0x100#64 else none }
  let a (i : Nat) : Area := { savedArea with key := cohortKey 0 i false, cohort := { z with index := i, status := .halting false }, tiles := [] }
  { setLaunch (idleBut id) 0 { plainLaunch with card := 3#1024 } with
    cohorts := [(cohortKey 0 0 false, c 0), (cohortKey 0 1 false, c 1)], areas := [(0x100000, a 0), (0x200000, a 1)] }

-- O43: a PLACED launch of two cohorts: a request that names one takes both; they come back together, or not at all.
theorem test_meets_placed_groups : let s := placedSaved true
    let r := asked { setLaunch (taskBut id) 0 { plainLaunch with card := 3#1024 } with
      cohorts := [(cohortKey 0 0 false, plainCohort), (cohortKey 0 1 false, { plainCohort with index := 1, quads := [] })] }
    descriptorOk r 0x100#64 true = true ∧ preemptSet r (memDWord r.edge 0x100) = [cohortKey 0 0 false, cohortKey 0 1 false] ∧
      smSorted r.cohorts = true ∧ cohortPlaced r plainCohort = true ∧ mayTake r (cohortKey 0 0 false) plainCohort = true ∧
      (s.cohorts.all fun e => cohortPlaced s e.2 && mayRestore s e.2 && e.2.waiting.isEmpty && e.2.launch == 0) = true ∧
      smSorted s.cohorts = true ∧ smSorted s.areas = true ∧ s.frames = [] ∧ s.damage = [] ∧
      (s.cohorts.all fun e => s.areas.any fun a => a.2.key == e.1 && e.2.status == .saved (BitVec.ofNat 64 a.1) false) = true ∧
      (∃ e ∈ (placedSaved false).cohorts, mayRestore (placedSaved false) e.2 = false) := by decide
-- O43: what a restore reads of an area: the header names its cohort, and each tile stands in it once.
theorem test_meets_area_header : (memDWord saved.edge 0x100000).toNat = headerWord savedArea.cohort ∧
    (cohortTiles plainCohort).Nodup ∧ cohortTiles plainCohort = [0] := by decide
-- O44: a halted team above 95 °C; spares that are cool, and that are not.
theorem test_meets_halted_migrations : let s := setTile (heated 100 true) 0 { tileOf (heated 100 true) 0 with halt := .preempt true }
    (∀ i, i < 4 → (tileOf s (tileAt 0 i)).halt = .none ∨ (tileOf s (tileAt 0 i)).halt = .held false ∨
      (tileOf s (tileAt 0 i)).halt = .preempt true) ∧ (tileOf s 0).halt = .preempt true ∧ coolSpare s 0 = some 64 ∧
      64 ∈ sparesOf s 0 ∧ coolSpare (heated 100 false) 0 = none ∧ 64 ∈ sparesOf (heated 100 false) 0 ∧
      hottest (pquadAt (heated 100 false) (0 * 72 + 64)) = some 90 := by decide
-- O44: a quad held at 95 °C that then reads more than 105; the power cap with no grant left; a third boost.
theorem test_meets_held_limits : (pquadAt (setPQuad (taskBut id) 0 { pquadAt (taskBut id) 0 with limit := some 95 }) 0).limit = some 95 ∧
    min (105 : Int) ((some 95 : Option Int).getD 105) = 95 := by decide
theorem test_meets_power_cap : let s := setQuad (taskBut id) 63 { quadAt (taskBut id) 63 with point := 5 }
    100 ≤ (20000 :: List.replicate 99 20000).length ∧ 1850000 < ((20000 :: List.replicate 99 20000).take 100).foldl (· + ·) 0 ∧
      (clusterAt s 255).grant = false ∧ (quadAt s 63).point < 6 ∧ (hungriest s).isSome = true := by decide +kernel
theorem test_meets_full_boosts : let s := boosted
    let g (s : State) (c : Nat) := setCluster s c { clusterAt s c with grant := true, boostClaim := some 0 }
    let held (s : State) : Nat := ((clustersOfDie (dieOfCluster 0)).filter fun x => (clusterAt s x).grant).length
    let two := match clustersOfDie (dieOfCluster 0) with | _ :: b :: c :: _ => g (g s b) c | _ => s
    wantsBoost two 0 = true ∧ 2 ≤ held two ∧ held s < 2 ∧
      (let one := match clustersOfDie (dieOfCluster 0) with | _ :: b :: _ => g s b | _ => s
       held one < 2 ∧ ∀ x ∈ clustersOfDie (dieOfCluster 0), x ≠ 0 → (clusterAt one x).boostClaim = none ∨ (clusterAt one x).grant = true) := by
  decide

-- O46: a card whose home holds an earlier write of its port.
theorem test_meets_cards_behind : let x : State := { taskBut id with
      pages := [(3 * 16384 + 3, ⟨1, false, false⟩)], homeQ := [⟨.port 3, 0x1000, [1]⟩] }
    let s := setStream x (streamKey (3 * 16384 + 3) 31) { streamAt x 0 with queue := [gridCard 0] }
    (streamAt s (streamKey (3 * 16384 + 3) 31)).queue = gridCard 0 :: [] ∧ smFind (3 * 16384 + 3) s.pages = some ⟨1, false, false⟩ ∧
      freeNumber s ≠ none ∧ behind s (.port ((3 * 16384 + 3) / 16384)) = true ∧ behind s (.port (3 / 16384)) = false := by decide
-- O47: the launch whose turn it is may be one that only a steal from another die serves.
theorem test_meets_chosen_steals : let l := ticketed (gridCard 0) 1
    let r := ticketed (gridCard (2 ^ 34)) 1
    let r1 := { r with tickets := [(2, ⟨4, 5⟩)] }
    let n := ticketed (gridCard 256) 1
    chooseLaunch (open1 l) 0 = some (0, l) ∧ wokenTicket l 0 = none ∧ runWithTickets l (dieOfCluster 0) = none ∧
      richestDie l = some (2, ⟨0, 1⟩) ∧ canUse (open1 l) 0 0 l = true ∧ canUse (open1 r) 0 0 r = false ∧ (∀ e ∈ (open1 r).launches, e.1 = 0 → e.2 = r) ∧
      dieOfTicket (open1 r) r (1 - 1) (!(2 % 2 == 1)) = some (dieOfCluster 0) ∧ chooseLaunch (open1 r1) 0 = some (0, r1) ∧
      dieOfTicket (open1 r1) r1 (5 - 1) (!(2 % 2 == 1)) ≠ some (dieOfCluster 0) ∧ cardNoDieSteal n.card = true ∧
      chooseLaunch (open1 n) 0 = none ∧ chooseLaunch (open1 (ticketed (gridCard 256) 0)) 0 = some (0, ticketed (gridCard 256) 0) := by decide
-- O48: a cohort of a BATCH launch that has ended.
theorem test_meets_ended_batches : let l := { plainLaunch with card := gridCard (1 + 8 <<< (8 * 0x30 + 32)), ended := true, batchQuads := [0] }
    let s := { idleBut id with launches := [(0, l)], cohorts := [(cohortKey 0 0 false, plainCohort)] }
    smFind (cohortKey 0 0 false) s.cohorts = some plainCohort ∧ launchGoes s plainCohort.launch = false ∧ smSorted s.cohorts = true ∧
      s.requests = [] ∧ plainCohort.status = .resident ∧ smFind plainCohort.launch s.launches = some l ∧ cardKind l.card = 2 ∧
      0 ∈ cohortQuads plainCohort := by decide
-- O49: requests behind a held write of their port; one of no bytes; the places in configuration space.
theorem test_meets_requests_behind : let s := { windowed with homeQ := [⟨.port 3, 0x8000, [7#8]⟩] }
    behind s (.port 3) = true ∧ behind s (.port 2) = false ∧ queuedAt s 0xff8 8 = false ∧ heldLine s 0xff8 8 = none ∧
      (bar4Span (.read 3 0x10000 0)).2.2 = 0 ∧ ¬ (portAt s 3).bar4size < 0x10000 + 0 ∧ (3 : Nat) ≠ 4 ∧ s.mgmt.recovery = false ∧
      4 ≤ s.mgmt.step := by decide
-- O54: a tile of a halted cohort that is to issue one bundle, with its words not there; breakpoints come first.
theorem test_meets_halted_steps : let s0 := { tileBut fun tl => { tl with halt := .held true } with agenda := [⟨0, .access 0⟩] }
    let s := clearWaits (passTime { s0 with agenda := [] } 0) 0 [3, 4]
    s0.agenda = ⟨0, .access 0⟩ :: [] ∧ mayIssue s 0 = true ∧ (tileOf s 0).halt = .held true ∧ breakAt s 0 = none ∧
      fetchBundle (tileOf s 0) (tileOf s 0).task.pc = .missing ∧
      (let k := { Task.zero with stepping := .issued }
       let z := tileBut fun tl => { tl with task := k, badFetch := some (k.act, 0, .xlate) }
       fetchBundle (tileOf z 0) k.pc = .bad .xlate ∧ k.stepping = .issued ∧ k.xinstr = []) := by decide

end Sys2Proof.Tests
end

/-! PROOF. The statements of the family `00_scope.md` that speak of the encoding: every well-formed bundle, encoded and
decoded, is itself again (R4, R47, R71, R74, R215), and the sample words of the encoding tables decode to what they
stand for. -/

namespace Sys2Proof.Laws.Encoding

open Sys2Proof.Machine

/-- Each instruction of either map has its own lemma under Laws/PerInstr; a step of the table belongs to neither map, so
both halves of the statement are empty there. -/
theorem body_roundtrip (i : Instr) : Statement i := by
  cases i with
  | nopA => exact nopA | hintA f => exact hintA f | jmp f => exact jmp f | call f => exact call f | jr f => exact jr f
  | callr f => exact callr f | beq f => exact beq f | bne f => exact bne f | blt f => exact blt f
  | bge f => exact bge f | bltu f => exact bltu f | bgeu f => exact bgeu f | bxz f => exact bxz f
  | bxnz f => exact bxnz f | bxlt f => exact bxlt f | bxge f => exact bxge f | bgd f => exact bgd f
  | bngd f => exact bngd f | loop f => exact loop f | aadd f => exact aadd f | asub f => exact asub f
  | aand f => exact aand f | aor f => exact aor f | axor f => exact axor f | ashl f => exact ashl f
  | ashr f => exact ashr f | asra f => exact asra f | amul f => exact amul f | apeer f => exact apeer f
  | aaddi f => exact aaddi f | aandi f => exact aandi f | aori f => exact aori f | axori f => exact axori f
  | ashli f => exact ashli f | ashri f => exact ashri f | asrai f => exact asrai f | ali f => exact ali f
  | alh f => exact alh f | ldSp f => exact ldSp f | ldPr f => exact ldPr f | ldQl f => exact ldQl f
  | ldGl f => exact ldGl f | stSp f => exact stSp f | stPr f => exact stPr f | stQl f => exact stQl f
  | stGl f => exact stGl f | atomSp f => exact atomSp f | atomPr f => exact atomPr f | atomGl f => exact atomGl f
  | casSp f => exact casSp f | casPr f => exact casPr f | casGl f => exact casGl f | prefGl f => exact prefGl f
  | prefQl f => exact prefQl f | tdef f => exact tdef f | tinv f => exact tinv f | tinvAll => exact tinvAll
  | mmz f => exact mmz f | mma f => exact mma f | mmaBl f => exact mmaBl f | mmaR f => exact mmaR f
  | mld f => exact mld f | mldBl f => exact mldBl f | mst f => exact mst f | cpy f => exact cpy f
  | cpyG f => exact cpyG f | cpyS f => exact cpyS f | cpyT f => exact cpyT f | cpyM f => exact cpyM f
  | cpyMma f => exact cpyMma f | strm f => exact strm f | drain f => exact drain f | chain f => exact chain f
  | ksend f => exact ksend f | kbinAdd f => exact kbinAdd f | kbinApp f => exact kbinApp f | kbinOff => exact kbinOff
  | coll f => exact coll f | collRed f => exact collRed f | engK f => exact engK f | engGo f => exact engGo f
  | spawn f => exact spawn f | forkBr f => exact forkBr f | join f => exact join f | jdec f => exact jdec f
  | suspend => exact suspend | yield => exact yield | exit => exact exit | send f => exact send f
  | sendEos f => exact sendEos f | put f => exact put f | putX f => exact putX f | wfm => exact wfm
  | nbarInit f => exact nbarInit f | nbarArr f => exact nbarArr f | nbarWt f => exact nbarWt f
  | nbarTx f => exact nbarTx f | fence f => exact fence f | stv f => exact stv f | ldv f => exact ldv f
  | ldvS f => exact ldvS f | vrcl f => exact vrcl f | sys f => exact sys f | trap f => exact trap f
  | brk f => exact brk f | rdcr f => exact rdcr f | wrcr f => exact wrcr f | halt => exact halt | nopX => exact nopX
  | hintX f => exact hintX f | vmode f => exact vmode f | gset f => exact gset f | plog f => exact plog f
  | sel f => exact sel f | add f => exact add f | sub f => exact sub f | addsI32 f => exact addsI32 f
  | addsN32 f => exact addsN32 f | subsI32 f => exact subsI32 f | subsN32 f => exact subsN32 f | mul f => exact mul f
  | mulhI32 f => exact mulhI32 f | mulhN32 f => exact mulhN32 f | divI32 f => exact divI32 f
  | divN32 f => exact divN32 f | remI32 f => exact remI32 f | remN32 f => exact remN32 f | minI32 f => exact minI32 f
  | minN32 f => exact minN32 f | maxI32 f => exact maxI32 f | maxN32 f => exact maxN32 f | and f => exact and f
  | or f => exact or f | xor f => exact xor f | andn f => exact andn f | shl f => exact shl f | shr f => exact shr f
  | sra f => exact sra f | rol f => exact rol f | clz f => exact clz f | ctz f => exact ctz f | popc f => exact popc f
  | bfx f => exact bfx f | bfi f => exact bfi f | addc f => exact addc f | subc f => exact subc f
  | addi f => exact addi f | andi f => exact andi f | ori f => exact ori f | xori f => exact xori f
  | shli f => exact shli f | shri f => exact shri f | srai f => exact srai f | li f => exact li f
  | cmpI32 f => exact cmpI32 f | cmpN32 f => exact cmpN32 f | cmpF32 f => exact cmpF32 f | addF32 f => exact addF32 f
  | subF32 f => exact subF32 f | mulF32 f => exact mulF32 f | fmaF32 f => exact fmaF32 f | fmsF32 f => exact fmsF32 f
  | fnmaF32 f => exact fnmaF32 f | fnmsF32 f => exact fnmsF32 f | minF32 f => exact minF32 f
  | maxF32 f => exact maxF32 f | absF32 f => exact absF32 f | negF32 f => exact negF32 f | rcpF32 f => exact rcpF32 f
  | sqrtF32 f => exact sqrtF32 f | rsqF32 f => exact rsqF32 f | ex2F32 f => exact ex2F32 f
  | lg2F32 f => exact lg2F32 f | tanhF32 f => exact tanhF32 f | cvt f => exact cvt f | vaddF32 f => exact vaddF32 f
  | vsubF32 f => exact vsubF32 f | vmulF32 f => exact vmulF32 f | vfmaF32 f => exact vfmaF32 f
  | vminF32 f => exact vminF32 f | vmaxF32 f => exact vmaxF32 f | vaddI32 f => exact vaddI32 f
  | vsubI32 f => exact vsubI32 f | vmulI32 f => exact vmulI32 f | vand f => exact vand f | vor f => exact vor f
  | vxor f => exact vxor f | vshl f => exact vshl f | vshr f => exact vshr f | vsra f => exact vsra f
  | vperm f => exact vperm f | vbcast f => exact vbcast f | vext f => exact vext f | vins f => exact vins f
  | vredAddF32 f => exact vredAddF32 f | vredMaxF32 f => exact vredMaxF32 f | vredAddI32 f => exact vredAddI32 f
  | vredqF32 f => exact vredqF32 f | vcvt f => exact vcvt f | waddF32 f => exact waddF32 f
  | wsubF32 f => exact wsubF32 f | wmulF32 f => exact wmulF32 f | wfmaF32 f => exact wfmaF32 f
  | wminF32 f => exact wminF32 f | wmaxF32 f => exact wmaxF32 f | wbcastF32 f => exact wbcastF32 f
  | wins f => exact wins f | wext f => exact wext f | wredAddF32 f => exact wredAddF32 f
  | wredMaxF32 f => exact wredMaxF32 f
  | _ => exact ⟨nofun, nofun⟩

end Sys2Proof.Laws.Encoding

namespace Sys2Proof.Proofs

open Sys2Proof.Machine Sys2Proof.Laws

/-! ## Frame bits over a body -/

theorem field_framed (t : BitVec 2) (w : Word) (lo len : Nat) (h : lo + len ≤ 30) :
    field (t ++ w.extractLsb' 0 30) lo len = field w lo len :=
  (BitVec.extractLsb'_append_eq_of_add_le h).trans (BitVec.extractLsb'_extractLsb'_of_le h)

theorem frame_of_framed (t : BitVec 2) (x : BitVec 30) : field (t ++ x) 30 2 = t :=
  BitVec.extractLsb'_append_eq_left

/-- No body reads the two frame bits. -/
theorem decodeABody_framed (t : BitVec 2) (w : Word) :
    decodeABody (t ++ w.extractLsb' 0 30) = decodeABody w := by
  unfold decodeABody
  simp (disch := decide) only [field_framed]

theorem decodeXBody_framed (t : BitVec 2) (w : Word) :
    decodeXBody (t ++ w.extractLsb' 0 30) = decodeXBody w := by
  unfold decodeXBody
  simp (disch := decide) only [field_framed]

theorem decodeABody_framed_encode {a : Instr} (t : BitVec 2) (hA : isA a = true) (hok : staticOk a = true) :
    decodeABody (t ++ (encode a).extractLsb' 0 30) = some a :=
  (decodeABody_framed t _).trans ((Encoding.body_roundtrip a).1 hA hok).1

theorem decodeXBody_framed_encode {x : Instr} (t : BitVec 2) (hX : isX x = true) (hok : staticOk x = true) :
    decodeXBody (t ++ (encode x).extractLsb' 0 30) = some x :=
  (decodeXBody_framed t _).trans ((Encoding.body_roundtrip x).2 hX hok).1

/-- The first frame bit (L, or HA in word 1) is bit 31. -/
theorem field_31_of_frame {w : Word} {t : BitVec 2} (h : field w 30 2 = t) : field w 31 1 = t.extractLsb' 1 1 := by
  subst h
  ext k hk
  simp [BitVec.getElem_extractLsb', Nat.lt_one_iff.mp hk]

/-- The second frame bit (K, or HB in word 1) is bit 30. -/
theorem field_30_of_frame {w : Word} {t : BitVec 2} (h : field w 30 2 = t) : field w 30 1 = t.extractLsb' 0 1 := by
  subst h
  ext k hk
  simp [BitVec.getElem_extractLsb', Nat.lt_one_iff.mp hk]

theorem holdA_of_frame (p q : Bool) : ((BitVec.ofBool p ++ BitVec.ofBool q).extractLsb' 1 1 == 1#1) = p := by
  revert p q
  decide

theorem holdB_of_frame (p q : Bool) : ((BitVec.ofBool p ++ BitVec.ofBool q).extractLsb' 0 1 == 1#1) = q := by
  revert p q
  decide

/-! ## `decodeWords` by frame bits -/

theorem checked_of_ok {b : Bundle} (h : bundleOk b = true) : checked b = .ok b := if_pos h

theorem decodeWords_paired {w0 w1 : Word} {a x : Instr} (hf : field w0 30 2 = 0#2)
    (ha : decodeABody w0 = some a) (hx : decodeXBody w1 = some x) :
    decodeWords w0 w1 = checked (.paired (field w1 31 1 == 1#1) (field w1 30 1 == 1#1) a x) := by
  simp [decodeWords, field_31_of_frame hf, field_30_of_frame hf, ha, hx]

theorem decodeWords_loneA {w0 : Word} (w1 : Word) (hf : field w0 30 2 = 2#2) :
    decodeWords w0 w1 = decodeLoneA w0 w1 := by
  simp [decodeWords, field_31_of_frame hf, field_30_of_frame hf]

theorem decodeWords_loneX {w0 : Word} (w1 : Word) {x : Instr} (hf : field w0 30 2 = 3#2)
    (hx : decodeXBody w0 = some x) : decodeWords w0 w1 = checked (.loneX x w1) := by
  simp [decodeWords, field_31_of_frame hf, field_30_of_frame hf, hx]

/-! ## The folded immediate of format AS (R215) -/

theorem foldedOpcode_cases {op : BitVec 8} (h : foldedOpcode op.toNat = true) :
    op = 0xa2#8 ∨ op = 0xa3#8 ∨ op = 0xa8#8 ∨ op = 0xa9#8 ∨ op = 0xac#8 ∨ op = 0xad#8 ∨ op = 0xae#8 ∨ op = 0xaf#8 ∨
      op = 0xb1#8 ∨ op = 0xb2#8 ∨ op = 0xb3#8 ∨ op = 0xb8#8 ∨ op = 0xb9#8 ∨ op = 0xba#8 ∨ op = 0xbb#8 ∨
      op = 0xbc#8 := by
  revert op
  decide

theorem getLsbD_of_field {w : Word} {lo len : Nat} {x : BitVec len} (k : Nat) (h : (field w lo len == x) = true)
    (hk : k < len) : w.getLsbD (lo + k) = x.getLsbD k := by
  simp [← beq_iff_eq.mp h, hk]

/-- The word holds an instruction whose immediate is folded, and the sign bit of IMM11 is clear. -/
def FoldsClear (w : Word) (i : Instr) : Prop := extUse i = .folded ∧ w.getLsbD 10 = false

/-- One guarded row of the A-class map: the row's instruction is a folded one, and its guard clears bit 10. -/
theorem foldsClear_of_ite {w : Word} {g : Bool} {i j : Instr} {r : Option Instr}
    (h : (if g = true then some i else r) = some j) (hi : extUse i = .folded)
    (hg : g = true → w.getLsbD 10 = false) (hr : r = some j → FoldsClear w j) : FoldsClear w j := by
  split at h
  case isTrue ht => cases h; exact ⟨hi, hg ht⟩
  case isFalse => exact hr h

theorem and_left {p q : Bool} (h : (p && q) = true) : p = true := (Bool.and_eq_true_iff.mp h).1

/-- What the decoder reads at an opcode of format AS that folds keeps IMM11 below 1,024: the fixed bits of its row hold
bit 10 at zero. -/
theorem decodeABody_foldsClear {w : Word} {i : Instr} (hop : foldedOpcode (field w 22 8).toNat = true)
    (hi : decodeABody w = some i) : FoldsClear w i := by
  obtain ho | ho | ho | ho | ho | ho | ho | ho | ho | ho | ho | ho | ho | ho | ho | ho := foldedOpcode_cases hop
  · exact foldsClear_of_ite ((Encoding.decodeA_a2 w ho).symm.trans hi) rfl
      (fun g => getLsbD_of_field 8 (and_left g) (by decide)) nofun
  · exact foldsClear_of_ite ((Encoding.decodeA_a3 w ho).symm.trans hi) rfl
      (fun g => getLsbD_of_field 8 g (by decide)) nofun
  · exact foldsClear_of_ite ((Encoding.decodeA_a8 w ho).symm.trans hi) rfl
      (fun g => getLsbD_of_field 1 g (by decide))
      fun h => foldsClear_of_ite h rfl (fun g => getLsbD_of_field 10 g (by decide)) nofun
  · exact foldsClear_of_ite ((Encoding.decodeA_a9 w ho).symm.trans hi) rfl
      (fun g => getLsbD_of_field 7 g (by decide))
      fun h => foldsClear_of_ite h rfl (fun g => getLsbD_of_field 7 g (by decide)) nofun
  · exact foldsClear_of_ite ((Encoding.decodeA_ac w ho).symm.trans hi) rfl
      (fun g => getLsbD_of_field 5 (and_left g) (by decide)) nofun
  · exact foldsClear_of_ite ((Encoding.decodeA_ad w ho).symm.trans hi) rfl
      (fun g => getLsbD_of_field 5 g (by decide)) nofun
  · exact foldsClear_of_ite ((Encoding.decodeA_ae w ho).symm.trans hi) rfl
      (fun g => getLsbD_of_field 5 (and_left g) (by decide)) nofun
  · exact foldsClear_of_ite ((Encoding.decodeA_af w ho).symm.trans hi) rfl
      (fun g => getLsbD_of_field 5 g (by decide)) nofun
  · exact foldsClear_of_ite ((Encoding.decodeA_b1 w ho).symm.trans hi) rfl
      (fun g => getLsbD_of_field 10 g (by decide)) nofun
  · exact foldsClear_of_ite ((Encoding.decodeA_b2 w ho).symm.trans hi) rfl
      (fun g => getLsbD_of_field 10 (and_left g) (by decide))
      fun h => foldsClear_of_ite h rfl (fun g => getLsbD_of_field 10 (and_left g) (by decide)) nofun
  · exact foldsClear_of_ite ((Encoding.decodeA_b3 w ho).symm.trans hi) rfl
      (fun g => getLsbD_of_field 10 g (by decide)) nofun
  · exact foldsClear_of_ite ((Encoding.decodeA_b8 w ho).symm.trans hi) rfl
      (fun g => getLsbD_of_field 0 (and_left g) (by decide)) nofun
  · exact foldsClear_of_ite ((Encoding.decodeA_b9 w ho).symm.trans hi) rfl
      (fun g => getLsbD_of_field 0 (and_left g) (by decide)) nofun
  · exact foldsClear_of_ite ((Encoding.decodeA_ba w ho).symm.trans hi) rfl
      (fun g => getLsbD_of_field 0 g (by decide)) nofun
  · exact foldsClear_of_ite ((Encoding.decodeA_bb w ho).symm.trans hi) rfl
      (fun g => getLsbD_of_field 7 (and_left g) (by decide)) nofun
  · exact foldsClear_of_ite ((Encoding.decodeA_bc w ho).symm.trans hi) rfl
      (fun g => getLsbD_of_field 7 (and_left g) (by decide)) nofun

theorem eq_zero_of_loneAOk_folded {i : Instr} {ext : Word} (hu : extUse i = .folded) (h : loneAOk i ext = true) :
    ext = 0#32 := by
  simpa [loneAOk, hu] using h

/-- With word 1 zero and the sign bit of IMM11 clear, the sum is IMM11 itself. -/
theorem immSum_zero {w : Word} (h : w.getLsbD 10 = false) : immSum w 0#32 = (field w 0 11).setWidth 64 := by
  have hmsb : (field w 0 11).msb = false := by simpa [BitVec.msb_eq_getLsbD_last] using h
  simp [immSum, BitVec.signExtend_eq_setWidth_of_msb_false hmsb]

theorem immSum_zero_high {w : Word} (h : w.getLsbD 10 = false) : (immSum w 0#32).extractLsb' 11 53 = 0#53 := by
  rw [immSum_zero h]
  ext k hk
  simp [BitVec.getElem_extractLsb', BitVec.getLsbD_setWidth]

theorem immSum_zero_low {w : Word} (h : w.getLsbD 10 = false) : (immSum w 0#32).extractLsb' 0 11 = field w 0 11 := by
  rw [immSum_zero h]
  ext k hk
  simp [hk, show k < 64 by omega]

theorem field_append_low (w : Word) : field w 11 21 ++ field w 0 11 = w :=
  (BitVec.extractLsb'_append_extractLsb'_eq_extractLsb' rfl).trans BitVec.extractLsb'_eq_self

/-- A lone A bundle that passes the checks: folding changes nothing, because a folded instruction's word 1 is zero. -/
theorem decodeLoneA_of_body {w ext : Word} {a : Instr} (hd : decodeABody w = some a)
    (hok : bundleOk (.loneA a ext) = true) (hext : loneAOk a ext = true) :
    decodeLoneA w ext = .ok (.loneA a ext) := by
  by_cases hop : foldedOpcode (field w 22 8).toNat = true
  case neg =>
    rw [decodeLoneA, if_neg hop]
    simp only [hd, checked_of_ok hok]
  case pos =>
    obtain ⟨hu, hbit⟩ := decodeABody_foldsClear hop hd
    obtain rfl := eq_zero_of_loneAOk_folded hu hext
    rw [decodeLoneA, if_pos hop]
    simp only [immSum_zero_high hbit, immSum_zero_low hbit, field_append_low, hd, checked_of_ok hok, BEq.rfl, if_true]

/-! ## Bundles -/

theorem decodeWords_encode_paired {ha hb : Bool} {a x : Instr} (h : bundleOk (.paired ha hb a x) = true) :
    decodeWords (encodeBundle (.paired ha hb a x)).1 (encodeBundle (.paired ha hb a x)).2 = .ok (.paired ha hb a x) := by
  obtain ⟨⟨⟨⟨⟨⟨hA, hX⟩, hokA⟩, hokX⟩, -⟩, -⟩, -⟩ := by simpa only [bundleOk, Bool.and_eq_true] using h
  obtain ⟨hdA, hfA⟩ := (Encoding.body_roundtrip a).1 hA hokA
  have hdX := decodeXBody_framed_encode (BitVec.ofBool ha ++ BitVec.ofBool hb) hX hokX
  have hf := frame_of_framed (BitVec.ofBool ha ++ BitVec.ofBool hb) ((encode x).extractLsb' 0 30)
  have hw := decodeWords_paired hfA hdA hdX
  rw [field_31_of_frame hf, field_30_of_frame hf, holdA_of_frame, holdB_of_frame, checked_of_ok h] at hw
  exact hw

theorem decodeWords_encode_loneA {a : Instr} {ext : Word} (h : bundleOk (.loneA a ext) = true) :
    decodeWords (encodeBundle (.loneA a ext)).1 (encodeBundle (.loneA a ext)).2 = .ok (.loneA a ext) := by
  obtain ⟨⟨hA, hok⟩, hext⟩ := by simpa only [bundleOk, Bool.and_eq_true] using h
  exact (decodeWords_loneA ext (frame_of_framed 2#2 _)).trans
    (decodeLoneA_of_body (decodeABody_framed_encode 2#2 hA hok) h hext)

theorem decodeWords_encode_loneX {x : Instr} {ext : Word} (h : bundleOk (.loneX x ext) = true) :
    decodeWords (encodeBundle (.loneX x ext)).1 (encodeBundle (.loneX x ext)).2 = .ok (.loneX x ext) := by
  obtain ⟨⟨hX, hok⟩, -⟩ := by simpa only [bundleOk, Bool.and_eq_true] using h
  exact (decodeWords_loneX ext (frame_of_framed 3#2 _) (decodeXBody_framed_encode 3#2 hX hok)).trans
    (checked_of_ok h)

theorem decodeWords_encodeBundle {b : Bundle} (h : b.WellFormed) :
    decodeWords (encodeBundle b).1 (encodeBundle b).2 = .ok b := by
  cases b with
  | paired ha hb a x => exact decodeWords_encode_paired h
  | loneA a ext => exact decodeWords_encode_loneA h
  | loneX x ext => exact decodeWords_encode_loneX h

/-! ## Bytes (R4) -/

theorem wordOfBytes_bytesOfWord (w : Word) :
    wordOfBytes (field w 0 8) (field w 8 8) (field w 16 8) (field w 24 8) = w := by
  simp (disch := decide) only [wordOfBytes, BitVec.extractLsb'_append_extractLsb'_eq_extractLsb',
    BitVec.extractLsb'_eq_self]

theorem decode_encodeBytes_append {b c : Bundle} (h : decodeWords (encodeBundle b).1 (encodeBundle b).2 = .ok c)
    (rest : List Byte) : decode (encodeBytes b ++ rest) = .ok (c, rest) := by
  simp only [encodeBytes, bytesOfWord, List.cons_append, List.nil_append, decode, wordOfBytes_bytesOfWord, h]

/-- Settles O52: each shape of bundle decodes from its two words, and eight little-endian bytes hold the two words. -/
theorem bundlesRoundTrip : Obligations.BundlesRoundTrip := by
  unfold Obligations.BundlesRoundTrip
  exact fun _ rest h => decode_encodeBytes_append (decodeWords_encodeBundle h) rest

/-! ## Sample words -/

/-- Settles O51: every word and every line is closed, so its decoding and its assembly are computed. -/
theorem sampleWordsDecode : Obligations.SampleWordsDecode := by
  unfold Obligations.SampleWordsDecode
  exact ⟨
    -- What the words of the tables stand for.
    rfl, rfl, rfl, rfl, rfl, rfl, rfl, rfl, rfl, rfl, rfl, rfl, rfl, rfl, rfl, rfl, rfl, rfl, rfl,
    -- The words that are no bundle.
    rfl, ⟨_, rfl⟩, ⟨_, rfl⟩, ⟨_, rfl⟩, ⟨_, rfl⟩, ⟨_, rfl⟩,
    -- The source lines of Table 5-2, and the held operand alone on its line (R88).
    rfl, rfl, rfl, rfl⟩

end Sys2Proof.Proofs

/-! PROOF. Hints, jumps, calls and register jumps (R85, R123, R124, R146): what a hint leaves, where control goes, and the
ALIGN trap of a misaligned target. -/

namespace Sys2Proof.Proofs

open Sys2Proof.Machine

/-! ## Hints (R85, R146) -/

/-- An X instruction whose meaning is to leave its queue completes. -/
theorem xCompletes_of_xDone {i : Instr} {s s' : State} {stall : Nat} (h : exec i s = .next (xDone s' stall)) :
    XCompletes i s s' := ⟨_, h, xDone_spec s' stall⟩

theorem hintsChangeNothing : Claims.HintsChangeNothing := fun s =>
  ⟨.of_finish rfl, fun _ => .of_finish rfl, fun _ => .of_finish rfl, fun _ => .of_finish rfl,
    xCompletes_of_xDone (s := s) rfl, fun _ => xCompletes_of_xDone (s := s) rfl⟩

/-! ## Jumps and calls (R123, R124) -/

/-- The ALIGN test of a register jump looks at bits 2:0. -/
theorem low3_ne_zero (v : DWord) : (v.extractLsb' 0 3 != 0#3) = decide (v.toNat % 8 ≠ 0) := by
  rw [Bool.eq_iff_iff, bne_iff_ne, decide_eq_true_iff, ne_eq, ← BitVec.toNat_inj]
  simp

theorem exec_call {s : State} (f : FAJ) (hw : FreeA s [15#4]) :
    exec (.call f) s = .next (branchTo (wrA s 15#4 (s.cur.pc + 8#64)) (target s f.o)) := by
  change execCall f s = _
  simp only [execCall, regGate_ready (rs := []) nofun hw]

theorem exec_jr {s : State} {f : FJr} (hr : ReadyA s [f.a]) :
    exec (.jr f) s = .next (if (rdA s f.a).toNat % 8 ≠ 0 then preciseTrap s .align (rdA s f.a) 0#64
      else branchTo s (rdA s f.a)) := by
  change execJr f s = _
  simp only [execJr, regGate_ready hr (ws := []) nofun, low3_ne_zero, decide_eq_true_iff]

theorem exec_callr {s : State} {f : FCallr} (hr : ReadyA s [f.a]) (hw : FreeA s [f.d]) :
    exec (.callr f) s = .next (if (rdA s f.a).toNat % 8 ≠ 0 then preciseTrap s .align (rdA s f.a) 0#64
      else branchTo (wrA s f.d (s.cur.pc + 8#64)) (rdA s f.a)) := by
  change execCallr f s = _
  simp only [execCallr, regGate_ready hr hw, low3_ne_zero, decide_eq_true_iff]

theorem jumpsAndCalls : Claims.JumpsAndCalls := by
  intro s
  refine ⟨fun f => .of_branch rfl, fun f hw => .of_branch (exec_call f hw), fun f hr h => ?_, fun f hr hw h => ?_⟩
  · exact .of_branch ((exec_jr hr).trans (by rw [if_neg (fun hn => hn h)]))
  · exact .of_branch ((exec_callr hr hw).trans (by rw [if_neg (fun hn => hn h)]))

theorem misalignedJumpTraps : Claims.MisalignedJumpTraps := by
  intro s
  refine ⟨fun f hr h => ?_, fun f hr hw h => ?_⟩
  · exact (exec_jr hr).trans (by rw [if_pos h])
  · exact (exec_callr hr hw).trans (by rw [if_pos h])

/-- Settles O1: hints finish as they are; a jump goes where its equation says, by the alignment of its target. -/
theorem hintsJumpsAndCalls : Obligations.HintsJumpsAndCalls := by
  unfold Obligations.HintsJumpsAndCalls
  exact ⟨hintsChangeNothing, jumpsAndCalls, misalignedJumpTraps⟩

end Sys2Proof.Proofs

/-! PROOF. What two words decode to is well formed and encodes back to them (R71, R74, R86, R215). Where an instruction's
encoding puts a field, its decoder reads one; where it puts a constant, its decoder compares one. -/

namespace Sys2Proof.Proofs

open Sys2Proof.Machine Sys2Proof.Laws

/-! ## What stands in a word -/

/-- The bits of `w` from `lo` on are `x`. -/
def Stands (w : Word) (lo : Nat) {n : Nat} (x : BitVec n) : Prop := field w lo n = x

theorem stands_field {w : Word} {lo n : Nat} : Stands w lo (field w lo n) := rfl

theorem field_beq {w : Word} {lo n : Nat} {c : BitVec n} : (field w lo n == c) = true ↔ Stands w lo c := beq_iff_eq

theorem stands_append {w : Word} {lo m n : Nat} {x : BitVec m} {y : BitVec n} :
    Stands w lo (x ++ y) ↔ Stands w (lo + n) x ∧ Stands w lo y := by
  have h : field w lo (m + n) = field w (lo + n) m ++ field w lo n :=
    (BitVec.extractLsb'_append_extractLsb'_eq_extractLsb' rfl).symm
  simp only [Stands, h]
  refine ⟨fun e => ⟨?_, ?_⟩, fun ⟨hx, hy⟩ => hx ▸ hy ▸ rfl⟩
  · simpa only [BitVec.extractLsb'_append_eq_left] using congrArg (BitVec.extractLsb' n m) e
  · simpa only [BitVec.extractLsb'_append_eq_right] using congrArg (BitVec.extractLsb' 0 n) e

theorem stands_opcode {w : Word} {c : BitVec 8} : Stands w 22 c ↔ (field w 22 8).toNat = c.toNat :=
  BitVec.toNat_inj.symm

/-- The opcodes of a load or store are five bits over the width (R140). -/
theorem stands_opcode_high5 {w : Word} {c : BitVec 5} : Stands w 25 c ↔ (field w 22 8).toNat / 8 = c.toNat := by
  rw [Stands, ← BitVec.toNat_inj]
  simp only [BitVec.extractLsb'_toNat, Nat.shiftRight_eq_div_pow]
  omega

theorem stands_opcode_high4 {w : Word} {c : BitVec 4} : Stands w 26 c ↔ (field w 22 8).toNat / 16 = c.toNat := by
  rw [Stands, ← BitVec.toNat_inj]
  simp only [BitVec.extractLsb'_toNat, Nat.shiftRight_eq_div_pow]
  omega

theorem eq_of_stands {w x : Word} (h : Stands w 0 x) : x = w := by
  rw [← h, field, BitVec.extractLsb'_eq_self]

/-- Where `w` holds the body that the decoder read as `r`, the encoder gives `w` back. -/
def EncodesBack (w : Word) (r : Option Instr) : Prop := ∀ i, r = some i → Stands w 0 (encode i)

theorem encodesBack_none {w : Word} : EncodesBack w none := nofun

theorem encodesBack_some {w : Word} {i : Instr} : EncodesBack w (some i) ↔ Stands w 0 (encode i) :=
  ⟨fun h => h i rfl, fun h _ e => Option.some.inj e ▸ h⟩

theorem encodesBack_ite {w : Word} {p : Prop} [Decidable p] {i : Instr} {r : Option Instr} :
    EncodesBack w (if p then some i else r) ↔ (p → Stands w 0 (encode i)) ∧ (¬p → EncodesBack w r) := by
  split
  · next hp => simp only [encodesBack_some, hp, true_imp_iff, not_true, false_imp_iff, and_true]
  · next hp => simp only [hp, false_imp_iff, true_and, not_false_iff, true_imp_iff]

/-- Row by row of the A-class map: the encoding comes apart into its fields, which the row has read, and its constants, which
the row's guard, the frame and the opcode give. -/
theorem encodesBack_decodeABody {w : Word} (hf : Stands w 30 0#2) : EncodesBack w (decodeABody w) := by
  unfold decodeABody
  generalize hop : (field w 22 8).toNat = op
  split
  -- The row's encoding, place by place, with the fields and the compared constants gone.
  all_goals
    simp +contextual only [encodesBack_ite, encodesBack_some, encodesBack_none, field_beq, Bool.and_eq_true,
      encode.eq_def, stands_append, stands_field, hf, and_true, true_and, implies_true]
  -- The opcode, whole or its high bits.
  all_goals
    simp only [Nat.reduceAdd, stands_opcode, stands_opcode_high5, stands_opcode_high4, hop, BitVec.reduceToNat, Nat.reduceDiv,
      and_self, implies_true]

/-- Row by row of the X-class map, as for the A-class map. -/
theorem encodesBack_decodeXBody {w : Word} (hf : Stands w 30 0#2) : EncodesBack w (decodeXBody w) := by
  unfold decodeXBody
  generalize hop : (field w 22 8).toNat = op
  split
  -- The row's encoding, place by place, with the fields and the compared constants gone.
  all_goals
    simp +contextual only [encodesBack_ite, encodesBack_some, encodesBack_none, field_beq, Bool.and_eq_true,
      encode.eq_def, stands_append, stands_field, hf, and_true, true_and, implies_true]
  -- The opcode, whole or its high bits.
  all_goals
    simp only [Nat.reduceAdd, stands_opcode, stands_opcode_high4, hop, BitVec.reduceToNat, Nat.reduceDiv,
      implies_true]

theorem eq_framed_of_stands {w : Word} {t : BitVec 2} {x : BitVec 30} (ht : Stands w 30 t) (hx : Stands w 0 x) :
    t ++ x = w := eq_of_stands (stands_append.mpr ⟨ht, hx⟩)

/-- The decoder reads 30 bits, so it reads the same body under a zero frame. -/
theorem encode_of_decodeABody {w : Word} {a : Instr} (h : decodeABody w = some a) : encode a = 0#2 ++ field w 0 30 :=
  eq_of_stands (encodesBack_decodeABody (frame_of_framed 0#2 _) a ((decodeABody_framed 0#2 w).trans h))

theorem encode_of_decodeXBody {w : Word} {x : Instr} (h : decodeXBody w = some x) : encode x = 0#2 ++ field w 0 30 :=
  eq_of_stands (encodesBack_decodeXBody (frame_of_framed 0#2 _) x ((decodeXBody_framed 0#2 w).trans h))

theorem stands_body_of_encode {w : Word} {i : Instr} (h : encode i = 0#2 ++ field w 0 30) :
    Stands w 0 ((encode i).extractLsb' 0 30) := by
  rw [h, BitVec.extractLsb'_append_eq_right]
  exact stands_field

/-! ## Bundles -/

theorem ofBool_beq_one (v : BitVec 1) : BitVec.ofBool (v == 1#1) = v := by
  revert v
  decide

theorem encodeBundle_paired {w0 w1 : Word} {a x : Instr} (hf : Stands w0 30 0#2) (ha : decodeABody w0 = some a)
    (hx : decodeXBody w1 = some x) :
    encodeBundle (.paired (field w1 31 1 == 1#1) (field w1 30 1 == 1#1) a x) = (w0, w1) := by
  refine Prod.ext ((encode_of_decodeABody ha).trans (eq_framed_of_stands hf stands_field)) ?_
  simp only [encodeBundle, ofBool_beq_one]
  exact eq_framed_of_stands (stands_append.mpr ⟨stands_field, stands_field⟩)
    (stands_body_of_encode (encode_of_decodeXBody hx))

theorem encodeBundle_loneA {w0 : Word} {a : Instr} (w1 : Word) (hf : Stands w0 30 2#2) (ha : decodeABody w0 = some a) :
    encodeBundle (.loneA a w1) = (w0, w1) :=
  Prod.ext (eq_framed_of_stands hf (stands_body_of_encode (encode_of_decodeABody ha))) rfl

theorem encodeBundle_loneX {w0 : Word} {x : Instr} (w1 : Word) (hf : Stands w0 30 3#2) (hx : decodeXBody w0 = some x) :
    encodeBundle (.loneX x w1) = (w0, w1) :=
  Prod.ext (eq_framed_of_stands hf (stands_body_of_encode (encode_of_decodeXBody hx))) rfl

theorem checked_eq_ok {b c : Bundle} : checked b = .ok c ↔ bundleOk b = true ∧ b = c := by
  unfold checked
  split <;> simp_all

/-! ## The folded immediate (R215) -/

/-- The sum with EXT zero repeats the sign bit of IMM11 in bit 11. -/
theorem immSum_zero_getLsbD (w : Word) : (immSum w 0#32).getLsbD 11 = w.getLsbD 10 := by
  simp [immSum, BitVec.getElem_signExtend, BitVec.msb_eq_getLsbD_last]

theorem getLsbD_of_immSum_high {w : Word} (h : (immSum w 0#32).extractLsb' 11 53 = 0#53) : w.getLsbD 10 = false := by
  rw [← immSum_zero_getLsbD]
  simpa using congrArg (BitVec.getLsbD · 0) h

theorem decodeLoneA_ok {w0 w1 : Word} {b : Bundle} (hf : Stands w0 30 2#2) (h : decodeLoneA w0 w1 = .ok b) :
    b.WellFormed ∧ ((foldedOpcode (field w0 22 8).toNat = true → w1 = 0#32) → encodeBundle b = (w0, w1)) := by
  unfold decodeLoneA at h
  split at h
  case isFalse hop =>
    split at h
    case h_1 a ha =>
      obtain ⟨hok, rfl⟩ := checked_eq_ok.mp h
      exact ⟨hok, fun _ => encodeBundle_loneA w1 hf ha⟩
    case h_2 => cases h
  case isTrue hop =>
    dsimp only at h
    split at h
    case isFalse => cases h
    case isTrue hs =>
      split at h
      case h_1 a ha =>
        obtain ⟨hok, rfl⟩ := checked_eq_ok.mp h
        refine ⟨hok, fun hw => ?_⟩
        obtain rfl := hw hop
        have hbit := getLsbD_of_immSum_high (beq_iff_eq.mp hs)
        rw [immSum_zero_low hbit, field_append_low] at ha
        exact encodeBundle_loneA 0#32 hf ha
      case h_2 => cases h

theorem frame_cases (t : BitVec 2) : t = 0#2 ∨ t = 1#2 ∨ t = 2#2 ∨ t = 3#2 := by
  revert t
  decide

/-- By the frame of word 0: paired, refused, a lone A or a lone X bundle. -/
theorem decodeWords_ok {w0 w1 : Word} {b : Bundle} (h : decodeWords w0 w1 = .ok b) :
    b.WellFormed ∧ ((field w0 30 2 = 2#2 → foldedOpcode (field w0 22 8).toNat = true → w1 = 0#32) →
      encodeBundle b = (w0, w1)) := by
  obtain hf | hf | hf | hf := frame_cases (field w0 30 2)
  · cases ha : decodeABody w0 with
    | none => simp [decodeWords, field_31_of_frame hf, field_30_of_frame hf, ha] at h
    | some a =>
      cases hx : decodeXBody w1 with
      | none => simp [decodeWords, field_31_of_frame hf, field_30_of_frame hf, ha, hx] at h
      | some x =>
        obtain ⟨hok, rfl⟩ := checked_eq_ok.mp ((decodeWords_paired hf ha hx).symm.trans h)
        exact ⟨hok, fun _ => encodeBundle_paired hf ha hx⟩
  · simp [decodeWords, field_31_of_frame hf, field_30_of_frame hf] at h
  · obtain ⟨hwf, henc⟩ := decodeLoneA_ok hf ((decodeWords_loneA w1 hf).symm.trans h)
    exact ⟨hwf, fun hw => henc (hw hf)⟩
  · cases hx : decodeXBody w0 with
    | none => simp [decodeWords, field_31_of_frame hf, field_30_of_frame hf, hx] at h
    | some x =>
      obtain ⟨hok, rfl⟩ := checked_eq_ok.mp ((decodeWords_loneX w1 hf hx).symm.trans h)
      exact ⟨hok, fun _ => encodeBundle_loneX w1 hf hx⟩

/-! ## What Wennu assembles (R90) -/

theorem decodeWords_of_assembleBundle {env : AsmEnv} {ts : List Tok} {w : Word × Word}
    (h : assembleBundle env ts = .ok w) : ∃ b, decodeWords w.1 w.2 = .ok b := by
  unfold assembleBundle at h
  cases hw : bundleWords env ts with
  | error e => simp [hw, bind, Except.bind] at h
  | ok v =>
    simp only [hw, bind, Except.bind] at h
    split at h
    case h_1 b hb =>
      cases h
      exact ⟨b, hb⟩
    case h_2 => cases h

/-- Settles O53: by the frame of word 0 for the decoder; the assembler asks the decoder before it answers. -/
theorem decodedBundlesEncodeBack : Obligations.DecodedBundlesEncodeBack := by
  unfold Obligations.DecodedBundlesEncodeBack
  exact ⟨fun _ _ _ => decodeWords_ok, fun _ _ _ => decodeWords_of_assembleBundle⟩

end Sys2Proof.Proofs

/-! PROOF. The integer forms of the execute side (R98, R155, R159, R160; Tables 11-2 and 11-3): what a form with a scalar
destination completes with, and that the model's arithmetic is that of the tables. -/

namespace Sys2Proof.Proofs

open Sys2Proof.Machine

/-! ## Forms that take their sources and write one result (R152) -/

/-- An instruction that is a run of the execute side completes with its own effect once its sources are there, its guard is
true and its destination has room. -/
theorem xCompletes_of_runX {i : Instr} {s s1 : State} {pg : BitVec 3} {a b : Operand} {c : Option (BitVec 6)}
    {room : State → Bool} {act : State → Vec → Vec → State} {va vb : Vec}
    (he : exec i s = .next (runX s pg a b c room act)) (ht : Takes s s1 pg a b va vb) (hr : room s1 = true) :
    XCompletes i s (act s1 va vb) := ⟨_, he, runX_completes ht.got ht.guard hr⟩

theorem xCompletes_of_scalar2 {i : Instr} {s s1 : State} {f : FXR} {va vb : Vec} {op : Word → Word → Word} {w : Word}
    (ht : Takes s s1 f.p (.field .scalar f.a) (.field .scalar f.b) va vb) (hr : roomScalar s1 f.d = true)
    (he : exec i s = .next (scalar2 s f op)) (hw : op (va.setWidth 32) (vb.setWidth 32) = w) :
    XCompletes i s (writeScalar s1 f.d w) := hw ▸ xCompletes_of_runX he ht hr

theorem xCompletes_of_scalarABC {i : Instr} {s s1 : State} {f : FXR} {va vb : Vec} {neutral : Word}
    {op : Word → Word → Word → Word} (ht : Takes s s1 f.p (.field .scalar f.a) (.field .scalar f.b) va vb)
    (hr : roomScalar s1 f.d = true) (he : exec i s = .next (scalarABC s f neutral op)) :
    XCompletes i s (writeScalar s1 f.d (op (va.setWidth 32) (vb.setWidth 32) (oldScalar s1 f.d neutral))) :=
  xCompletes_of_runX he ht hr

theorem xCompletes_of_scalar1 {i : Instr} {s s1 : State} {f : FXR1} {va vb : Vec} {op : Word → Word} {w : Word}
    (ht : Takes s s1 f.p (.field .scalar f.a) .absent va vb) (hr : roomScalar s1 f.d = true)
    (he : exec i s = .next (scalar1 s f op)) (hw : op (va.setWidth 32) = w) :
    XCompletes i s (writeScalar s1 f.d w) := hw ▸ xCompletes_of_runX he ht hr

/-! ## Results of two operands (R98, R159, R160) -/

theorem satI32_eq_clamp (z : Int) : satI32 z = BitVec.ofInt 32 (max (-2147483648) (min 2147483647 z)) := rfl

theorem satN32_eq_clamp (z : Int) : satN32 z = BitVec.ofInt 32 (max 0 (min 4294967295 z)) := rfl

/-- The high half of a 64-bit word is the number it stands for, divided by 2^32. -/
theorem high_ofInt (z : Int) : ((BitVec.ofInt 64 z) >>> 32).setWidth 32 = BitVec.ofInt 32 (z / 2 ^ 32) := by
  apply BitVec.eq_of_toNat_eq
  simp only [BitVec.toNat_setWidth, BitVec.toNat_ushiftRight, BitVec.toNat_ofInt, Nat.shiftRight_eq_div_pow]
  omega

theorem signExtend_eq_ofInt (a : Word) : a.signExtend 64 = BitVec.ofInt 64 a.toInt := rfl

theorem setWidth_eq_ofInt (a : Word) : a.setWidth 64 = BitVec.ofInt 64 a.toNat := by
  rw [BitVec.ofInt_natCast, BitVec.ofNat_toNat]

theorem high_signed_product (a b : Word) :
    BitVec.ofInt 32 (a.toInt * b.toInt / 2 ^ 32) = ((a.signExtend 64 * b.signExtend 64) >>> 32).setWidth 32 := by
  rw [signExtend_eq_ofInt, signExtend_eq_ofInt, ← BitVec.ofInt_mul, high_ofInt]

theorem high_unsigned_product (a b : Word) :
    BitVec.ofNat 32 (a.toNat * b.toNat / 2 ^ 32) = ((a.setWidth 64 * b.setWidth 64) >>> 32).setWidth 32 := by
  rw [setWidth_eq_ofInt, setWidth_eq_ofInt, ← BitVec.ofInt_mul, high_ofInt, ← BitVec.ofInt_natCast]
  norm_cast

theorem ite_slt {α : Type} (a b : Word) (x y : α) :
    (if a.slt b then x else y) = if a.toInt < b.toInt then x else y := by
  simp only [BitVec.slt_iff_toInt_lt]

theorem ite_ult {α : Type} (a b : Word) (x y : α) :
    (if a.ult b then x else y) = if a.toNat < b.toNat then x else y := by
  simp only [BitVec.ult_iff_lt, BitVec.lt_def]

theorem rotl_eq_shifts (a b : Word) : rotl a b = (a <<< (b.toNat % 32)) ||| (a >>> (32 - b.toNat % 32)) := by
  rw [rotl, amount, BitVec.rotateLeft_def, Nat.mod_mod]

theorem integerResults_twoOperands : Claims.IntegerResults := by
  intro s s1 f va vb ht hr a b clampI clampN
  have row {i : Instr} {op : Word → Word → Word} {w : Word} (he : exec i s = .next (scalar2 s f op)) (hw : op a b = w) :
      XCompletes i s (writeScalar s1 f.d w) := xCompletes_of_scalar2 ht hr he hw
  simp only [List.forall_mem_cons]
  exact ⟨row rfl rfl, row rfl rfl, row rfl rfl,
    row rfl (satI32_eq_clamp _), row rfl (satN32_eq_clamp _), row rfl (satI32_eq_clamp _), row rfl (satN32_eq_clamp _),
    row rfl (high_signed_product a b), row rfl (high_unsigned_product a b),
    row rfl (ite_slt a b a b), row rfl (ite_ult a b a b), row rfl (ite_slt a b b a), row rfl (ite_ult a b b a),
    row rfl rfl, row rfl rfl, row rfl rfl, row rfl rfl, row rfl rfl, row rfl rfl, row rfl rfl,
    row rfl (rotl_eq_shifts a b), nofun⟩

/-! ## Division (R98) -/

theorem ofInt_tdiv (a b : Word) : BitVec.ofInt 32 (a.toInt.tdiv b.toInt) = a.sdiv b := by
  rw [← BitVec.toInt_inj, BitVec.toInt_ofInt, BitVec.toInt_sdiv]

theorem ofInt_tmod (a b : Word) : BitVec.ofInt 32 (a.toInt.tmod b.toInt) = a.srem b := by
  rw [← BitVec.toInt_srem, BitVec.ofInt_toInt]

theorem quotI32_eq (a b : Word) : quotI32 a b =
    if b = 0#32 then (if a.toInt < 0 then 0x80000000#32 else 0x7fffffff#32) else a.sdiv b := by
  simp only [quotI32, beq_iff_eq, BitVec.msb_eq_toInt, decide_eq_true_iff, ofInt_tdiv]

theorem quotN32_eq (a b : Word) : quotN32 a b = if b = 0#32 then 0xffffffff#32 else a / b := by
  simp only [quotN32, beq_iff_eq, BitVec.udiv_eq]

theorem restI32_eq (a b : Word) : restI32 a b = if b = 0#32 then a else a.srem b := by
  simp only [restI32, beq_iff_eq, ofInt_tmod]

theorem restN32_eq (a b : Word) : restN32 a b = if b = 0#32 then a else a % b := by
  simp only [restN32, beq_iff_eq, BitVec.umod_eq]

/-! ## Bit fields (R160) -/

/-- The field that B names: its offset in bits 5:0 and its width in bits 13:8. -/
theorem bitField_eq (b : Word) : bitField b =
    if b.toNat / 256 % 64 = 0 ∨ 32 ≤ b.toNat % 64 then none
    else some (b.toNat % 64, min (b.toNat / 256 % 64) (32 - b.toNat % 64)) := by
  have hoff : b.toNat % 256 % 64 = b.toNat % 64 := Nat.mod_mod_of_dvd _ (by decide)
  have hwid : b.toNat / 256 % 256 % 64 = b.toNat / 256 % 64 := Nat.mod_mod_of_dvd _ (by decide)
  simp only [bitField, hoff, hwid, Bool.or_eq_true, beq_iff_eq, decide_eq_true_iff]

/-- The `w` bits of a word from bit `off` on, as a number. -/
theorem shiftRight_and_ones (a : Word) (off w : Nat) :
    (a >>> off) &&& BitVec.ofNat 32 (2 ^ w - 1) = BitVec.ofNat 32 (a.toNat / 2 ^ off % 2 ^ w) :=
  calc (a >>> off) &&& BitVec.ofNat 32 (2 ^ w - 1)
    _ = BitVec.ofNat 32 (a >>> off).toNat &&& BitVec.ofNat 32 (2 ^ w - 1) := by rw [BitVec.ofNat_toNat, BitVec.setWidth_eq]
    _ = BitVec.ofNat 32 ((a >>> off).toNat &&& (2 ^ w - 1)) := BitVec.ofNat_and.symm
    _ = BitVec.ofNat 32 (a.toNat / 2 ^ off % 2 ^ w) := by
      rw [Nat.and_two_pow_sub_one_eq_mod, BitVec.toNat_ushiftRight, Nat.shiftRight_eq_div_pow]

theorem extractField_eq (a b : Word) : extractField a b =
    if b.toNat / 256 % 64 = 0 ∨ 32 ≤ b.toNat % 64 then 0#32
    else BitVec.ofNat 32 (a.toNat / 2 ^ (b.toNat % 64) % 2 ^ min (b.toNat / 256 % 64) (32 - b.toNat % 64)) := by
  by_cases h : b.toNat / 256 % 64 = 0 ∨ 32 ≤ b.toNat % 64
  · simp only [extractField, bitField_eq, if_pos h]
  · simp only [extractField, bitField_eq, if_neg h, shiftRight_and_ones]

/-- The mask of a field of `w` bits from bit `off` on. -/
theorem getLsbD_fieldMask (off w i : Nat) (hi : i < 32) :
    (BitVec.ofNat 32 ((2 ^ w - 1) * 2 ^ off)).getLsbD i = decide (off ≤ i ∧ i < off + w) := by
  rw [BitVec.getLsbD_ofNat, Nat.testBit_mul_two_pow, Nat.testBit_two_pow_sub_one]
  simp only [hi, decide_true, Bool.true_and, ← Bool.decide_and]
  exact decide_eq_decide.mpr (by omega)

theorem insertField_of_empty {a b c : Word} (h : b.toNat / 256 % 64 = 0 ∨ 32 ≤ b.toNat % 64) : insertField a b c = c := by
  rw [insertField, bitField_eq, if_pos h]

theorem getLsbD_insertField {a b c : Word} (h : ¬(b.toNat / 256 % 64 = 0 ∨ 32 ≤ b.toNat % 64)) {i : Nat} (hi : i < 32) :
    (insertField a b c).getLsbD i =
      if b.toNat % 64 ≤ i ∧ i < b.toNat % 64 + min (b.toNat / 256 % 64) (32 - b.toNat % 64)
      then a.getLsbD (i - b.toNat % 64) else c.getLsbD i := by
  rw [insertField, bitField_eq, if_neg h]
  simp only [BitVec.getLsbD_or, BitVec.getLsbD_and, BitVec.getLsbD_not, BitVec.getLsbD_shiftLeft,
    getLsbD_fieldMask _ _ _ hi]
  by_cases hin : b.toNat % 64 ≤ i ∧ i < b.toNat % 64 + min (b.toNat / 256 % 64) (32 - b.toNat % 64)
  · have hlow : ¬ i < b.toNat % 64 := Nat.not_lt.mpr hin.1
    simp only [if_pos hin, decide_eq_true hin, decide_eq_true hi, decide_eq_false hlow, Bool.not_true, Bool.not_false,
      Bool.and_false, Bool.and_true, Bool.true_and, Bool.false_or]
  · simp only [if_neg hin, decide_eq_false hin, decide_eq_true hi, Bool.not_false, Bool.and_true, Bool.and_false,
      Bool.or_false]

/-! ## Counts (R160) -/

theorem bitLen_of_ne_zero {m : Nat} (h : m ≠ 0) : bitLen m = Nat.log2 m + 1 := by
  rw [bitLen, if_neg (mt beq_iff_eq.mp h)]

theorem bitLen_le_iff (m n : Nat) : bitLen m ≤ n ↔ m < 2 ^ n := by
  by_cases h : m = 0
  · subst h
    exact iff_of_true (Nat.zero_le n) (Nat.two_pow_pos n)
  · rw [bitLen_of_ne_zero h]
    exact Nat.log2_lt h

theorem testBit_of_bitLen_le {m i : Nat} (h : bitLen m ≤ i) : m.testBit i = false :=
  Nat.testBit_lt_two_pow ((bitLen_le_iff m i).mp h)

theorem testBit_bitLen_sub_one {m : Nat} (h : 0 < bitLen m) : m.testBit (bitLen m - 1) = true := by
  have hm : m ≠ 0 := by
    rintro rfl
    exact absurd h (by decide)
  rw [bitLen_of_ne_zero hm, Nat.add_sub_cancel, Nat.testBit_log2 hm]

/-- The search for the lowest one bit stops at it, or past the `n` bits from `i` on. -/
theorem trailGo_spec (a : Word) (n : Nat) : ∀ i, i ≤ trailGo a i n ∧ trailGo a i n ≤ i + n ∧
    (∀ j, i ≤ j → j < trailGo a i n → a.getLsbD j = false) ∧
    (trailGo a i n < i + n → a.getLsbD (trailGo a i n) = true) := by
  induction n with
  | zero =>
    intro i
    rw [trailGo]
    exact ⟨by omega, by omega, fun _ _ _ => by omega, fun _ => by omega⟩
  | succ n ih =>
    intro i
    by_cases hb : a.getLsbD i = true
    · rw [trailGo, if_pos hb]
      exact ⟨by omega, by omega, fun _ _ _ => by omega, fun _ => hb⟩
    · rw [trailGo, if_neg hb]
      obtain ⟨hlo, hhi, hzero, hone⟩ := ih (i + 1)
      refine ⟨by omega, by omega, fun j h h' => ?_, fun h => hone (by omega)⟩
      rcases Nat.eq_or_lt_of_le h with rfl | h
      · exact Bool.eq_false_iff.mpr hb
      · exact hzero j h h'

theorem upFrom_eq_range' (n : Nat) : ∀ lo, upFrom lo n = List.range' lo n := by
  induction n with
  | zero => exact fun _ => rfl
  | succ n ih => exact fun lo => congrArg (lo :: ·) (ih (lo + 1))

theorem onesIn_eq (a : Word) : onesIn a = BitVec.ofNat 32 ((List.range 32).filter fun i => a.getLsbD i).length := by
  rw [onesIn, upFrom_eq_range', List.range_eq_range']

/-- What `clz` counts: the zero bits above the highest one bit. -/
theorem leadingZeros_spec (a : Word) : let lz := 32 - bitLen a.toNat
    lz ≤ 32 ∧ (∀ i, i < lz → a.getLsbD (31 - i) = false) ∧ (lz < 32 → a.getLsbD (31 - lz) = true) := by
  have hlen : bitLen a.toNat ≤ 32 := (bitLen_le_iff _ _).mpr a.isLt
  refine ⟨Nat.sub_le _ _, fun i h => testBit_of_bitLen_le (by omega), fun h => ?_⟩
  rw [show 31 - (32 - bitLen a.toNat) = bitLen a.toNat - 1 by omega]
  exact testBit_bitLen_sub_one (by omega)

theorem divisionAndBits : Claims.DivisionAndBits := by
  constructor
  · intro s s1 f va vb ht hr a b off wid n empty
    have row {i : Instr} {op : Word → Word → Word} {w : Word} (he : exec i s = .next (scalar2 s f op)) (hw : op a b = w) :
        XCompletes i s (writeScalar s1 f.d w) := xCompletes_of_scalar2 ht hr he hw
    refine ⟨?_, insertField a b (oldScalar s1 f.d 0#32), xCompletes_of_scalarABC ht hr rfl, insertField_of_empty,
      fun h i => getLsbD_insertField h⟩
    simp only [List.forall_mem_cons]
    exact ⟨row rfl (quotI32_eq a b), row rfl (quotN32_eq a b), row rfl (restI32_eq a b), row rfl (restN32_eq a b),
      row rfl (extractField_eq a b), nofun⟩
  · intro s s1 f va vb ht hr a
    obtain ⟨hle, hzeros, htop⟩ := leadingZeros_spec a
    obtain ⟨-, hend, hbelow, hlow⟩ := trailGo_spec a 32 0
    rw [Nat.zero_add] at hend hlow
    exact ⟨32 - bitLen a.toNat, trailGo a 0 32, ((List.range 32).filter fun i => a.getLsbD i).length,
      xCompletes_of_scalar1 ht hr rfl rfl, xCompletes_of_scalar1 ht hr rfl rfl, xCompletes_of_scalar1 ht hr rfl (onesIn_eq a),
      hle, hzeros, htop, hend, fun i => hbelow i (Nat.zero_le i), hlow, rfl⟩

/-- Settles O8: each form writes its operation on the two low words, and each operation is that of its table. -/
theorem integerResults : Obligations.IntegerResults := by
  unfold Obligations.IntegerResults
  exact ⟨integerResults_twoOperands, divisionAndBits⟩

end Sys2Proof.Proofs

/-! PROOF. The float forms and the conversions (R78, R97, R99, R101, R105, R153, R156, R167-R170): the table of each form,
and the modes in which the lanes of a conversion are rounded. -/

namespace Sys2Proof.Proofs

open Sys2Proof.Machine

/-! ## FP32 forms (R97, R105, R153, R167, R168) -/

theorem floatForms : Claims.FloatForms := by
  constructor
  · intro s s1 f va vb ht hr a b m
    have row {i : Instr} {op : Word → Word → Word} (he : exec i s = .next (scalar2 s f op)) :
        XCompletes i s (writeScalar s1 f.d (op a b)) := xCompletes_of_scalar2 ht hr he rfl
    have rowC {i : Instr} {neutral : Word} {op : Word → Word → Word → Word}
        (he : exec i s = .next (scalarABC s f neutral op)) :
        XCompletes i s (writeScalar s1 f.d (op a b (oldScalar s1 f.d neutral))) := xCompletes_of_scalarABC ht hr he
    simp only [List.forall_mem_cons]
    exact ⟨row rfl, row rfl, row rfl, row rfl, row rfl, rowC rfl, rowC rfl, rowC rfl, rowC rfl, nofun⟩
  · intro s s1 f va vb ht hr a m
    have row {i : Instr} {op : Word → Word} {w : Word} (he : exec i s = .next (scalar1 s f op)) (hw : op a = w) :
        XCompletes i s (writeScalar s1 f.d w) := xCompletes_of_scalar1 ht hr he hw
    simp only [List.forall_mem_cons]
    exact ⟨row rfl rfl, row rfl rfl, row rfl rfl, row rfl rfl, row rfl rfl, row rfl rfl, row rfl rfl, row rfl rfl, nofun⟩

/-! ## The mode of a conversion (R78, R99, R101) -/

/-- The generator draws: its next state is the random number. -/
theorem convertMode_draw (s : State) : convertMode s 5#3 =
    (.rs (lfsrNext (curTask s).lfsr).toNat, setCurTask s { curTask s with lfsr := lfsrNext (curTask s).lfsr }) := rfl

theorem convertMode_default (s : State) : convertMode s 6#3 = (modeOf (curTask s).rm, s) := rfl

theorem convertMode_field (s : State) {r : BitVec 3} (h : r ≠ 5#3) (h' : r ≠ 6#3) : convertMode s r = (modeOf r, s) := by
  simp only [convertMode, if_neg (mt beq_iff_eq.mp h), if_neg (mt beq_iff_eq.mp h')]

/-- Every mode but RM 5 leaves the generator alone. -/
theorem convertMode_keeps (s : State) {r : BitVec 3} (h : r ≠ 5#3) :
    convertMode s r = (if r = 6#3 then modeOf (curTask s).rm else modeOf r, s) := by
  by_cases h' : r = 6#3
  · rw [if_pos h', h', convertMode_default]
  · rw [if_neg h', convertMode_field s h h']

theorem exec_cvt (s : State) (f : FCvt) : exec (.cvt f) s =
    .next (runX s f.p (.field .scalar f.a) .absent none (roomScalar · f.d) fun s1 va _ =>
      writeScalar (convertMode s1 f.r).2 f.d
        (convert f.s.toNat f.t.toNat (convertMode s1 f.r).1 (va.setWidth 32))) := rfl

theorem cvt_completes {s s1 : State} {f : FCvt} {va vb : Vec} (ht : Takes s s1 f.p (.field .scalar f.a) .absent va vb)
    (hr : roomScalar s1 f.d = true) {m : RMode} {s2 : State} (hm : convertMode s1 f.r = (m, s2)) :
    XCompletes (.cvt f) s (writeScalar s2 f.d (convert f.s.toNat f.t.toNat m (va.setWidth 32))) := by
  have h := xCompletes_of_runX (exec_cvt s f) ht hr
  rwa [hm] at h

/-! ## The lanes of `vcvt` (R101, R170) -/

/-- Where the mode of lane `j` is `m j` and drawing it takes the state `st j` to `st (j + 1)`, the lanes are converted in
those modes. -/
theorem convertLanes_eq {m : Nat → RMode} {st : Nat → State} {r : BitVec 3}
    (hm : ∀ j, convertMode (st j) r = (m j, st (j + 1))) (src : Nat) (v : Vec) (n : Nat) :
    ∀ i, convertLanes (st i) r src v i n =
      ((List.range' i n).map fun j => convert src 0 (m j) (laneOf v j), st (i + n)) := by
  induction n with
  | zero => exact fun _ => rfl
  | succ n ih =>
    intro i
    rw [convertLanes, hm, ih (i + 1), Nat.add_right_comm]
    rfl

/-- Eight lanes read back from their list. -/
theorem ofLanes_getD_range' (g : Nat → Word) :
    (ofLanes fun i => (((List.range' 0 8).map g)[i]?).getD 0#32) = ofLanes g := rfl

theorem exec_vcvt_short {s : State} (f : FVcvt) (h : (curTask s).long = false) : exec (.vcvt f) s =
    .next (runX s f.p (.field .vec f.a) .absent none (roomVector · f.d) fun s1 va _ =>
      writeVector (convertLanes s1 f.r f.s.toNat va 0 8).2 f.d
        (ofLanes fun i => ((convertLanes s1 f.r f.s.toNat va 0 8).1[i]?).getD 0#32)) := by
  change execVcvt f s = _
  rw [execVcvt, inShort, if_neg (by rw [h]; decide)]

theorem vcvt_completes {s s1 : State} {f : FVcvt} {va vb : Vec} (hl : (curTask s).long = false)
    (ht : Takes s s1 f.p (.field .vec f.a) .absent va vb) (hr : roomVector s1 f.d = true) {m : Nat → RMode}
    {st : Nat → State} (h0 : st 0 = s1) (hm : ∀ j, convertMode (st j) f.r = (m j, st (j + 1))) :
    XCompletes (.vcvt f) s (writeVector (st 8) f.d (ofLanes fun i => convert f.s.toNat 0 (m i) (laneOf va i))) := by
  subst h0
  have h := xCompletes_of_runX (exec_vcvt_short f hl) ht hr
  rwa [convertLanes_eq hm, ofLanes_getD_range'] at h

/-- The state after `n` lanes have each drawn a number. -/
def afterDraws (s : State) : Nat → State
  | 0 => s
  | n + 1 => setCurTask s { curTask s with lfsr := Nat.repeat lfsrNext (n + 1) (curTask s).lfsr }

theorem setCurTask_setCurTask (s : State) (k l : Task) : setCurTask (setCurTask s k) l = setCurTask s l := by
  simp only [setCurTask, setCurTile, setTile_cur, setTile_setTile]
  rw [curTile, setTile_cur, tileOf_setTile_self]

/-- Lane `n` draws the number after the `n` drawn before it. -/
theorem convertMode_afterDraws (s : State) (n : Nat) : convertMode (afterDraws s n) 5#3 =
    (.rs (Nat.repeat lfsrNext (n + 1) (curTask s).lfsr).toNat, afterDraws s (n + 1)) := by
  rw [convertMode_draw]
  cases n with
  | zero => rfl
  | succ n =>
    simp only [afterDraws, curTask_setCurTask, setCurTask_setCurTask]
    rfl

theorem conversions : Claims.Conversions := by
  constructor
  · intro s s1 f va vb ht hr k u res
    refine ⟨fun h => ?_, fun h => ?_, fun h => ?_⟩
    · have hf (n : BitVec 3) (hn : 5 ≤ n.toNat) : f.r ≠ n := fun e => absurd (e ▸ h) (Nat.not_lt.mpr hn)
      exact cvt_completes ht hr (convertMode_field s1 (hf 5#3 (by decide)) (hf 6#3 (by decide)))
    · exact cvt_completes ht hr (h ▸ convertMode_draw s1)
    · exact cvt_completes ht hr (h ▸ convertMode_default s1)
  · intro s s1 f va vb hl ht hr
    refine ⟨fun h _ => ?_, fun h => ?_⟩
    · exact vcvt_completes (st := fun _ => s1) hl ht hr rfl fun _ => convertMode_keeps s1 (fun e => h (e ▸ rfl))
    · exact vcvt_completes (st := afterDraws s1) hl ht hr rfl fun n => h ▸ convertMode_afterDraws s1 n

/-- Settles O11: each form is the row of its table; a conversion rounds in the modes that its RM field gives, a number being
drawn for each lane under RM 5. -/
theorem floatFormsAndConversions : Obligations.FloatFormsAndConversions := by
  unfold Obligations.FloatFormsAndConversions
  exact ⟨floatForms, conversions⟩

end Sys2Proof.Proofs
